-- ==== Sys2Proof/Word.lean ====
section
/-!
DEFINITION. The word of the device (R1): 24 bits. The accumulator (R5): 56 bits. Both are bit vectors, since software sees them as
bits.
-/

namespace Sys2Proof

/-- A word: 24 bits, numbered 23 to 0 (R1). -/
abbrev Word := BitVec 24

/-- An accumulator: 56 bits, two's complement, 8.47 format (R5). -/
abbrev Acc := BitVec 56

/-- A 48-bit value: a pair of words (R2) or a device time (R403). -/
abbrev Pair := BitVec 48

/-- A byte of an external payload. -/
abbrev Byte := BitVec 8

end Sys2Proof
end

