-- ==== Sys2Proof/Machine/Bits.lean ====
section
/-!
DEFINITION. Bit fields of words, pairs of words, and the sparse map that holds registers, memory and every table of the device.
-/

namespace Sys2Proof.Machine

/-- A field of a register: bits [hi:lo]. -/
structure Fld where
  hi : Nat
  lo : Nat
  deriving DecidableEq, Repr

/-- Bits [hi:lo] of a word, as a number. -/
def getBits (v : Word) (hi lo : Nat) : Nat := (v.toNat >>> lo) % 2 ^ (hi + 1 - lo)

/-- The value of field `f` in word `v`. -/
def getF (v : Word) (f : Fld) : Nat := getBits v f.hi f.lo

/-- The bits field `f` occupies. -/
def Fld.mask (f : Fld) : Nat := (2 ^ (f.hi + 1 - f.lo) - 1) <<< f.lo

/-- The largest value field `f` holds. -/
def Fld.max (f : Fld) : Nat := 2 ^ (f.hi + 1 - f.lo) - 1

/-- Word `v` with field `f` set to the low bits of `n`. -/
def setF (v : Word) (f : Fld) (n : Nat) : Word :=
  (v &&& ~~~ BitVec.ofNat 24 f.mask) ||| (BitVec.ofNat 24 ((n % 2 ^ (f.hi + 1 - f.lo)) <<< f.lo))

/-- A number as a word, modulo 2^24. -/
abbrev w24 (n : Nat) : Word := BitVec.ofNat 24 n

/-- An integer as a word, modulo 2^24. -/
abbrev i24 (n : Int) : Word := BitVec.ofInt 24 n

/-- 1 for true, 0 for false. -/
abbrev b2n (b : Bool) : Nat := if b then 1 else 0

/-- The low word of a pair (R2). -/
def pairLo (p : Pair) : Word := p.extractLsb' 0 24

/-- The high word of a pair (R2). -/
def pairHi (p : Pair) : Word := p.extractLsb' 24 24

/-- A pair from its two words (R2). -/
def mkPair (lo hi : Word) : Pair := hi ++ lo

/-- The blank word, "no item" (R4). -/
def blank : Word := 0x800000

/-- Saturation of an integer to Q23 (R4): the range is symmetric and the blank word is never produced. -/
def satQ (x : Int) : Int := max (-0x7FFFFF) (min 0x7FFFFF x)

/-- `x` raised by one, held at `m`. -/
def satInc (x m : Nat) : Nat := if x < m then x + 1 else m

/-- A sparse map: a list of (key, value) pairs in one canonical form, keys strictly rising, no value equal to what an unlisted key
reads as. -/
abbrev SMap (α : Type) := List (Nat × α)

/-- The value at key `k`; `d` is what an unlisted key reads as. -/
def SMap.get {α : Type} (d : α) : SMap α → Nat → α
  | [], _ => d
  | (k', v) :: r, k => if k' = k then v else SMap.get d r k

/-- The map with key `k` at `v`, in key order. -/
def SMap.put {α : Type} : SMap α → Nat → α → SMap α
  | [], k, v => [(k, v)]
  | (k', v') :: r, k, v =>
    if k < k' then (k, v) :: (k', v') :: r
    else if k = k' then (k, v) :: r
    else (k', v') :: SMap.put r k v

/-- The map with key `k` set to `v`; writing what an unlisted key reads as removes the entry. -/
def SMap.set {α : Type} [DecidableEq α] (d : α) (m : SMap α) (k : Nat) (v : α) : SMap α :=
  if v = d then m.filter (fun p => decide (p.1 ≠ k)) else SMap.put m k v

/-- Every key of the list is above `b`, keys strictly rise, and no value equals what its key reads as when unlisted. -/
def SMap.wfFrom {α : Type} [DecidableEq α] (dflt : Nat → α) : Option Nat → SMap α → Bool
  | _, [] => true
  | b, (k, v) :: r =>
    (match b with | none => true | some x => decide (x < k)) && decide (v ≠ dflt k) && SMap.wfFrom dflt (some k) r

/-- The canonical form. -/
def SMap.wf {α : Type} [DecidableEq α] (dflt : Nat → α) (m : SMap α) : Bool := SMap.wfFrom dflt none m

end Sys2Proof.Machine
end

