-- ==== Sys2Proof/Machine/Types.lean ====
section
/-!
DEFINITION. The data of the engines, threads, event interfaces, memories, capsules and strands: the pieces of state of
spec/02_engines.md to spec/08_strands.md that are no device register.
-/

namespace Sys2Proof.Machine

/-- The causes of an exception or entry, R182. -/
inductive Cause where
  | int | gate | align | illegal | priv | xlate | perm | walkDev | walkEcc | bus | ecc | parity | stack | budget | stall
  deriving DecidableEq, Repr

/-- The kind of an access, as XCAUSE.ACC codes it (R182). -/
inductive AccKind where
  | fetch | load | store | xchg
  deriving DecidableEq, Repr

/-- One measurement of the assay (R571): domain, plan level, the counts of its four rings, the domain's temperature at the end. -/
structure AsyMeas where
  d  : Fin 9
  p  : Fin 8
  n  : List (BitVec 24)
  tj : BitVec 12
  deriving DecidableEq, Repr

/-- A patrol result (R546): the raw ratio of a PREC channel in its low 24 bits or the conductance of a COND probe in pS, whether the input
overloads or the drive limits its current, whether it carries OPEN. -/
structure PatRes where
  v   : BitVec 40
  ovr : Bool
  op  : Bool
  deriving DecidableEq, Repr

/-- Who makes an access to a device register: a thread, the Loupe port, or the Chaden far side. -/
inductive Who where
  | thread (k : Nat)
  | loupe
  | far
  deriving DecidableEq, Repr

/-- What a memory word holds with its check bits (R194): a good word, a word with one flipped bit (the corrected word and the
syndrome), or an uncorrectable word. -/
inductive MCell where
  | good (w : Word)
  | corr (w : Word) (synd : BitVec 6)
  | bad
  deriving DecidableEq, Repr

/-- The regions of the word address map, R38. -/
inductive Region where
  | glob | mram | never | locket | unmapped | localMem | cluster | chaden | xspi | dev
  deriving DecidableEq, Repr

/-- A fault an instruction meets: its cause, the access kind, the walk level, and what XADDR receives (R182). -/
structure FaultInfo where
  cause : Cause
  acc   : AccKind
  lvl   : Nat
  addr  : Word
  deriving DecidableEq, Repr

/-- An active hardware-loop entry, R113. `owns` marks the entry whose set-up took the loop buffer (R62.1). -/
structure LoopEnt where
  count : Word
  start : Word
  stop  : Word
  tag   : Nat
  owns  : Bool
  deriving DecidableEq, Repr

/-- A control transfer that has issued and whose delay slot has not (R110, R184): the transfer's address, whether it is long-form,
its resolved target (none: the address after the slot) and the link register of a call. -/
structure Slot where
  xferAt : Word
  long   : Bool
  target : Option Word
  link   : Option Nat
  deriving DecidableEq, Repr

/-- The architectural context of a thread that an abandoned instruction gives back: registers, accumulators, ASTAT, loop stack,
the next instruction's address, the delay-slot state, the destinations of loads still awaiting data (register, access), the load
shadow (register, value before the load) of R64, and those values of the shadow that an older load still owes (register, access; R66). -/
structure Ctx where
  g      : SMap Word
  a0     : Acc
  a1     : Acc
  sat    : Bool
  aov    : Bool
  loops  : List LoopEnt
  pc     : Word
  slot   : Option Slot
  pend   : List (Nat × Nat)
  shadow : List (Nat × Word)
  shPend : List (Nat × Nat)
  deriving DecidableEq, Repr

/-- A thread's access through the spine interface, or the part of it a replay entry keeps (R58, R75). `pa2` is the second word's
address of a pair, `cid` the capsule the thread was bound to at issue (R470), 0 at keeper privilege, `prv` that privilege; `ord` the place of a
reserved or promoted request in the arrival order of its global SRAM bank, none for a best-effort one (R221); `half` says that the first of
a pair's two pushes into a strand has been made (R271). -/
structure Access where
  id   : Nat
  k    : Nat
  kind : AccKind
  pair : Bool
  va   : Word
  pa   : Nat
  pa2  : Nat
  rd   : Nat
  d0   : Word
  d1   : Word
  ia   : Word
  cid  : Nat
  prv  : Bool
  ord  : Option Nat
  half : Bool
  deriving DecidableEq, Repr

/-- What an instruction's commit does to the loop buffer of its engine: nothing, take it for the body from `bs` to `be` at physical address
`pb` (R59), or release it with the entry that took it (R62.1). -/
inductive LbAct where
  | none
  | take (bs be : Word) (pb : Nat)
  | release
  deriving DecidableEq, Repr

/-- Where an issued, uncommitted instruction stands: it waits for its access, has its results, holds the words it stores into its own
local memory until it commits (R49), or has met a fault. -/
inductive InflSt where
  | waiting
  | done
  | held (ws : List (Nat × Word))
  | faulted (f : FaultInfo)
  deriving DecidableEq, Repr

/-- An issued, uncommitted instruction (R49): its access number, the context before it issued, its size, where it stands, what its commit
does to the loop buffer (an abandoned one does nothing, R72). -/
structure Infl where
  id   : Nat
  snap : Ctx
  len  : Nat
  st   : InflSt
  lb   : LbAct
  deriving DecidableEq, Repr

/-- The outcome a replay entry holds (R75); `second` says that the second word of a pair met the fault. -/
inductive RplOut where
  | wait
  | data (d0 d1 : Word)
  | fault (c : Cause) (second : Bool)
  deriving DecidableEq, Repr

/-- A replay entry, R75. -/
structure Replay where
  ac    : Access
  depth : Nat
  out   : RplOut
  deriving DecidableEq, Repr

/-- An entry of a thread's level stack, R166. -/
structure Level where
  xpc     : Word
  xst     : Word
  xtgt    : Word
  xcause  : Word
  xaddr   : Word
  intr    : Bool
  src     : Nat
  prio    : Nat
  scan    : Bool
  claimed : Bool
  live    : Bool
  deriving DecidableEq, Repr

/-- A thread's binding, R233. -/
structure Bind where
  prv : Bool
  cid : Nat
  kg  : Bool
  tep : Nat
  deriving DecidableEq, Repr

/-- What an enabled thread is doing (R47): running, waiting by design in wfe, waitt, fence, sync or CHN_DRAIN, stopping, or off. -/
inductive Mode where
  | off | run | event | time (t : Pair) | fence | sync | drain | stopping
  deriving DecidableEq, Repr

/-- One hardware thread: its context, event latch EL (R133), level stack (top entry first), issued instructions (oldest first), replay
entries (newest first, R75), whether the next instruction settles the newest of them (R76), its binding (R233), how it was started
(R263), its allotment and the capsule it was drawn from (R253), the RWS writes it has pending (R141), the beats left of the post-EOI
window (R175), and its Loupe state: halt reason, a HALT or STEP under way, the breakpoint pass of R601. `fbuf` is the fetch buffer
(R56), `restart` an enable that waits for OFF (R80), `rom` marks ROM code (R638), `lost` counts the consecutive beats in which its fetch has
lost the memory port to data accesses (R55). For the stall watch (R556): `watch` is the tick of its last commit or of its entry into a
watched condition, `stall` says that STALL is due, `stalled` that it has been taken and nothing has committed since. -/
structure Thread where
  ctx      : Ctx
  el       : Bool
  mode     : Mode
  levels   : List Level
  infl     : List Infl
  replay   : List Replay
  settle   : Bool
  bind     : Bind
  startPrv : Bool
  startKg  : Bool
  al       : Nat
  alCid    : Nat
  rws      : List (Nat × Word)
  postEoi  : Nat
  halt     : Nat
  haltReq  : Nat
  stepping : Bool
  skipBp   : Bool
  haltIdx  : Nat
  fbuf     : List (Nat × Word)
  restart  : Bool
  rom      : Bool
  lost     : Nat
  watch    : Nat
  stall    : Bool
  stalled  : Bool
  deriving DecidableEq, Repr

/-- The loop buffer of an engine, R59–R62. `bs` and `be` are the body's addresses as its owner sees them, `pb` the physical address
of `bs`; `ents` lists the valid entries by offset from BS; `fails` counts parity failures (R69). -/
structure LoopBuf where
  owner : Option Nat
  bs    : Word
  be    : Word
  pb    : Nat
  ents  : SMap (Option Word)
  fails : SMap Nat
  dis   : Bool
  deriving DecidableEq, Repr

/-- An entry of the translation cache, R218. -/
structure TcEnt where
  cid   : Nat
  block : Bool
  vpn   : Nat
  base  : Nat
  perms : Nat
  deriving DecidableEq, Repr

/-- The coalescer and hold latch of one EVI source, R159. -/
structure Src where
  isOpen : Bool
  t0     : Pair
  k      : Nat
  run    : Nat
  latch  : Bool
  denied : Bool
  deriving DecidableEq, Repr

/-- The checkpoint staging buffer of an engine, R148: the items still to drain, the strand, the thread and the epoch. -/
structure Staging where
  items  : List Word
  strand : Nat
  thread : Nat
  epoch  : Nat
  deriving DecidableEq, Repr

/-- A breakpoint or watchpoint of the Loupe port, R601. -/
structure DbgPoint where
  addr : Word
  mask : Nat
  acc  : Nat
  m    : Nat
  deriving DecidableEq, Repr

/-- One engine: what its four threads share. -/
structure Engine where
  last    : Nat
  passed  : SMap Nat
  spine   : List Access
  lb      : LoopBuf
  stag    : Staging
  ckseq   : Nat
  tc      : SMap (Option TcEnt)
  tcPtr   : Nat
  srcs    : SMap Src
  modeEff : Bool
  baseEff : SMap Nat
  bps     : SMap (Option DbgPoint)
  wps     : SMap (Option DbgPoint)
  deriving DecidableEq, Repr

/-- One entry of the MRAM write buffer, R200. -/
structure MrEnt where
  addr    : Nat
  val     : Word
  marked  : Bool
  deriving DecidableEq, Repr

/-- One reservation entry of MEMC, R226. -/
structure Resv where
  rate   : Nat
  cls    : Nat
  adm    : Bool
  dem    : Bool
  tokens : Nat
  deriving DecidableEq, Repr

/-- MEMC state that is no register: the MRAM write buffer, the reservations, the scrubber's position, and by global SRAM bank the engine whose
best-effort request was served last (R221), and whether a µs has begun whose tokens are still due (R222). -/
structure Memc where
  wbuf  : List MrEnt
  resv  : SMap Resv
  scrub : Nat
  rr    : SMap Nat
  due   : Bool
  deriving DecidableEq, Repr

/-- The bezel's bookkeeping of one capsule ID (R237, R253–R256): live and staging descriptor words, beats left, beats issued in
the period, the last period's beats, the waiting counter, promotions, whether HELD was raised in this period, and whether a period
boundary has been reached whose effect is still due. -/
structure Capsule where
  live    : SMap Word
  stag    : SMap Word
  rem     : Nat
  used    : Nat
  last    : Nat
  waitc   : Nat
  promo   : Nat
  heldEv  : Bool
  due     : Bool
  deriving DecidableEq, Repr

/-- A hallmark check in progress (R242): the ID it names, keeper mode, the image's address. -/
structure HmCheck where
  cid   : Nat
  kmode : Bool
  addr  : Nat
  deriving DecidableEq, Repr

/-- Bezel state that is no register: the capsules, and the hallmark check in progress. -/
structure Bezel where
  caps  : SMap Capsule
  check : Option HmCheck
  deriving DecidableEq, Repr

/-- An item of a strand (R267). -/
structure Item where
  w : Word
  e : Nat
  h : Bool
  deriving DecidableEq, Repr

/-- A producer that can lock stage 0 of a strand (R277): a thread, an accessor that is no thread, a bridge queue, a staging buffer. -/
inductive Prod where
  | thread (k : Nat)
  | outside
  | queue (q : Nat)
  | staging (e : Nat)
  deriving DecidableEq, Repr

/-- One strand (R267, R277–R279): items held, the head's item first; whether the head item has reached stage 15; the lock of stage 0 with
the payload still to come; the payload of the packet being read that has not been read; whether items are discarded until a header;
pushes of word stores that wait (producer, word, the thread epoch of a capsule's push; R280); the producer between the two pushes of a pair
(R271); items of the head packet already read; whether it has become ready; whether the header of the packet that holds the lock has been
removed (R282). -/
structure Strand where
  items   : List Item
  atHead  : Bool
  lock    : Option (Prod × Nat)
  remain  : Nat
  discard : Bool
  waiting : List (Prod × Word × Option Nat)
  mid     : Option Prod
  nread   : Nat
  rdy     : Bool
  lost    : Bool
  deriving DecidableEq, Repr

/-- An item of a bridge queue: its word, and the device event released when it has left the island's side, carried by a lone item or the
last word of a packet (R637). -/
structure BqItem where
  w  : Word
  ev : Option Nat
  deriving DecidableEq, Repr

/-- One landing unit's fill in progress (R284): the bank being filled, LEN and SEQ of its header, words taken. -/
structure Landing where
  bank  : Nat
  len   : Nat
  seq   : Nat
  taken : Nat
  deriving DecidableEq, Repr

/-- A reservation entry that nothing has requested. -/
def Resv.none : Resv := { rate := 0, cls := 0, adm := false, dem := false, tokens := 0 }

/-- A context after power-on reset or before a first enable: every register 0 (R71), nothing in flight. -/
def Ctx.zero : Ctx :=
  { g := [], a0 := 0, a1 := 0, sat := false, aov := false, loops := [], pc := 0, slot := none, pend := [], shadow := [], shPend := [] }

/-- A thread that is OFF (R81), with the binding BZ_TBINDk shows after reset. -/
def Thread.off : Thread :=
  { ctx := Ctx.zero, el := false, mode := .off, levels := [], infl := [], replay := [], settle := false,
    bind := { prv := true, cid := 0, kg := false, tep := 0 }, startPrv := true, startKg := false, al := 0, alCid := 0, rws := [],
    postEoi := 0, halt := 0, haltReq := 0, stepping := false, skipBp := false, haltIdx := 0, fbuf := [], restart := false,
    rom := false, lost := 0, watch := 0, stall := false, stalled := false }

/-- T0 of engine 0 after reset: enabled, at keeper privilege, in ROM code (R81, R587, R638). -/
def Thread.boot : Thread := { Thread.off with mode := .run, rom := true, ctx := { Ctx.zero with pc := 0x800000 } }

/-- An EVI source with nothing open. -/
def Src.idle : Src := { isOpen := false, t0 := 0, k := 0, run := 0, latch := false, denied := false }

/-- The binding a return to depth 0 would restore (R236): privilege and capsule. -/
def Thread.baseBind (t : Thread) : Bool × Nat :=
  match t.levels.reverse with
  | l :: _ => (l.xst.getLsbD 23, getBits l.xst 22 13)
  | [] => (t.bind.prv, t.bind.cid)

/-- A free loop buffer. -/
def LoopBuf.free : LoopBuf := { owner := none, bs := 0, be := 0, pb := 0, ents := [], fails := [], dis := false }

/-- An engine after power-on reset. -/
def Engine.init : Engine :=
  { last := 3, passed := [], spine := [], lb := LoopBuf.free, stag := { items := [], strand := 0, thread := 0, epoch := 0 },
    ckseq := 0, tc := [], tcPtr := 0, srcs := [], modeEff := false, baseEff := [], bps := [], wps := [] }

/-- A capsule ID that is EMPTY. -/
def Capsule.empty : Capsule :=
  { live := [], stag := [], rem := 0, used := 0, last := 0, waitc := 0, promo := 0, heldEv := false, due := false }

/-- A strand that holds nothing. -/
def Strand.empty : Strand :=
  { items := [], atHead := false, lock := none, remain := 0, discard := false, waiting := [], mid := none, nread := 0, rdy := false, lost := false }

end Sys2Proof.Machine
end

