-- ==== Sys2Proof/Syntax.lean ====
section
/-!
DEFINITION. The commands the block takes: one constructor for every row of the opcode table. A command of an instruction carries the
thread `k` (R233: engine × 4 + thread) that issues it and the fields of its encoding; a command of the device carries what the
outside supplies: an index, a written word, a measured value, the accessor.
-/

namespace Sys2Proof

open Sys2Proof.Machine (Who Cause AccKind AsyMeas PatRes)

/-- A command of the block. -/
inductive Instr where
  /-- R7. A write to a device register that has no behaviour of its own writes all its fields in one indivisible access,
  judged under the access types. -/
  | registerWrite (who : Who) (a v : BitVec 24)
  /-- R634. After a write to a split block's register, the island sends each changed analog setting over the register channel,
  where it takes effect on arrival. -/
  | analogSettingTransfer (a : BitVec 24) (ok : Bool)
  /-- R29. A register access with no completion within 4 µs completes with BUS. -/
  | registerAccessTimeout (e : Fin 128) (i : Fin 4)
  /-- R20. With no die-link heartbeat for 2 µs the mixed-signal die de-energises every gate, valve and SSR output. -/
  | heartbeatLoss
  /-- R383. When the heartbeat resumes, the clasp clears every ARM bit, raises CL_DISARM and an HBLOSS entry is logged. -/
  | heartbeatResume (expected : Bool)
  /-- R34. An event raised in a clocked island completes its handshake crossing into the fabric, merging with a repeat firing
  into one. -/
  | islandEventCrossing (ev : Fin 1024)
  /-- R32. A device event entering the router is delivered to the pending logic of every source that routes it, counted by
  watches and forwarded over Chaden. -/
  | routerDelivery (ev : Fin 1024)
  /-- R190. A write to EVR_FORCE raises the written device event in the router as if its block had raised it. -/
  | evrForce (v : BitVec 24)
  /-- R56. The memory port or spine delivers one aligned pair into a thread's fetch buffer. -/
  | fetch (k : Fin 512) (upset : Bool)
  /-- R208. A load, store, fetch or xchg sent through the spine completes at its target, delivering data or a fault and
  freeing its spine request. -/
  | accessComplete (e : Fin 128) (i : Fin 4) (ok tck : Bool)
  /-- R75. The outcome of an abandoned, already-sent device-region access arrives and is stored in its replay entry. -/
  | replayOutcomeArrival (e : Fin 128) (i : Fin 4) (ok tck : Bool)
  /-- R79. Setting a thread's ENG_TCTL.EN bit starts it at ENG_TnSTART with its binding from BZ_TSTARTk. -/
  | threadEnable (k : Fin 512)
  /-- R80. Clearing a thread's EN bit stops issue, abandons waits and puts the thread in STOPPING. -/
  | threadDisable (k : Fin 512)
  /-- R80. A STOPPING thread's issued instructions and accesses finish and it becomes OFF, restarting if EN was set again. -/
  | threadStopComplete (k : Fin 512)
  /-- R62. A write to ENG_LBCTL releases the loop buffer and clears DIS. -/
  | lbctlWrite (e : Fin 128) (v : BitVec 24)
  /-- R94. add writes G[ra] + G[rb] to G[rd]. -/
  | add (k : Fin 512) (rd ra rb : Fin 16)
  /-- R94. sub writes G[ra] − G[rb]. -/
  | sub (k : Fin 512) (rd ra rb : Fin 16)
  /-- R94. and writes the bitwise AND. -/
  | and (k : Fin 512) (rd ra rb : Fin 16)
  /-- R94. or writes the bitwise OR. -/
  | or (k : Fin 512) (rd ra rb : Fin 16)
  /-- R94. xor writes the bitwise exclusive OR. -/
  | xor (k : Fin 512) (rd ra rb : Fin 16)
  /-- R94. andn writes G[ra] AND NOT G[rb]. -/
  | andn (k : Fin 512) (rd ra rb : Fin 16)
  /-- R94. nor writes NOT (G[ra] OR G[rb]). -/
  | nor (k : Fin 512) (rd ra rb : Fin 16)
  /-- R94. slt writes 1 if G[ra] is signed-less than G[rb]. -/
  | slt (k : Fin 512) (rd ra rb : Fin 16)
  /-- R94. sltu writes 1 if G[ra] is unsigned-less than G[rb]. -/
  | sltu (k : Fin 512) (rd ra rb : Fin 16)
  /-- R95. sll shifts left by G[rb] & 31. -/
  | sll (k : Fin 512) (rd ra rb : Fin 16)
  /-- R95. srl shifts right with zero fill. -/
  | srl (k : Fin 512) (rd ra rb : Fin 16)
  /-- R95. sra shifts right with sign fill. -/
  | sra (k : Fin 512) (rd ra rb : Fin 16)
  /-- R95. rol rotates left by the amount mod 24. -/
  | rol (k : Fin 512) (rd ra rb : Fin 16)
  /-- R94. min writes the signed smaller operand. -/
  | min (k : Fin 512) (rd ra rb : Fin 16)
  /-- R94. max writes the signed larger operand. -/
  | max (k : Fin 512) (rd ra rb : Fin 16)
  /-- R94. minu writes the unsigned smaller operand. -/
  | minu (k : Fin 512) (rd ra rb : Fin 16)
  /-- R94. maxu writes the unsigned larger operand. -/
  | maxu (k : Fin 512) (rd ra rb : Fin 16)
  /-- R94. mul writes the low 24 bits of the product. -/
  | mul (k : Fin 512) (rd ra rb : Fin 16)
  /-- R94. mulhs writes bits [47:24] of the signed product. -/
  | mulhs (k : Fin 512) (rd ra rb : Fin 16)
  /-- R94. mulhu writes bits [47:24] of the unsigned product. -/
  | mulhu (k : Fin 512) (rd ra rb : Fin 16)
  /-- R94. clz writes the count of leading zeros of G[ra]. -/
  | clz (k : Fin 512) (rd ra rb : Fin 16)
  /-- R96. addi adds a sign-extended 10-bit immediate. -/
  | addi (k : Fin 512) (rd ra : Fin 16) (imm : BitVec 10)
  /-- R96. andi ANDs a zero-extended immediate. -/
  | andi (k : Fin 512) (rd ra : Fin 16) (imm : BitVec 10)
  /-- R96. ori ORs a zero-extended immediate. -/
  | ori (k : Fin 512) (rd ra : Fin 16) (imm : BitVec 10)
  /-- R96. xori XORs a zero-extended immediate. -/
  | xori (k : Fin 512) (rd ra : Fin 16) (imm : BitVec 10)
  /-- R96. slti compares signed against a sign-extended immediate. -/
  | slti (k : Fin 512) (rd ra : Fin 16) (imm : BitVec 10)
  /-- R96. sltiu compares unsigned against a zero-extended immediate. -/
  | sltiu (k : Fin 512) (rd ra : Fin 16) (imm : BitVec 10)
  /-- R96. slli shifts left by an immediate 0–23. -/
  | slli (k : Fin 512) (rd ra : Fin 16) (n : BitVec 5)
  /-- R96. srli shifts right with zero fill by an immediate. -/
  | srli (k : Fin 512) (rd ra : Fin 16) (n : BitVec 5)
  /-- R96. srai shifts right with sign fill by an immediate. -/
  | srai (k : Fin 512) (rd ra : Fin 16) (n : BitVec 5)
  /-- R96. roli rotates left by an immediate. -/
  | roli (k : Fin 512) (rd ra : Fin 16) (n : BitVec 5)
  /-- R96. lui writes imm14 shifted left by 10. -/
  | lui (k : Fin 512) (rd : Fin 16) (imm : BitVec 14)
  /-- R97. extu extracts an unsigned bit field. -/
  | extu (k : Fin 512) (rd ra : Fin 16) (pos len1 : BitVec 5)
  /-- R97. exts extracts a sign-extended bit field. -/
  | exts (k : Fin 512) (rd ra : Fin 16) (pos len1 : BitVec 5)
  /-- R97. ins inserts a bit field of G[ra] into G[rd]. -/
  | ins (k : Fin 512) (rd ra : Fin 16) (pos len1 : BitVec 5)
  /-- R98. li writes a 24-bit immediate. -/
  | li (k : Fin 512) (rd ra : Fin 16) (imm : BitVec 24)
  /-- R98. addl adds a 24-bit immediate. -/
  | addl (k : Fin 512) (rd ra : Fin 16) (imm : BitVec 24)
  /-- R98. andl ANDs a 24-bit immediate. -/
  | andl (k : Fin 512) (rd ra : Fin 16) (imm : BitVec 24)
  /-- R98. orl ORs a 24-bit immediate. -/
  | orl (k : Fin 512) (rd ra : Fin 16) (imm : BitVec 24)
  /-- R98. xorl XORs a 24-bit immediate. -/
  | xorl (k : Fin 512) (rd ra : Fin 16) (imm : BitVec 24)
  /-- R98. sltl compares signed against a 24-bit immediate. -/
  | sltl (k : Fin 512) (rd ra : Fin 16) (imm : BitVec 24)
  /-- R98. sltul compares unsigned against a 24-bit immediate. -/
  | sltul (k : Fin 512) (rd ra : Fin 16) (imm : BitVec 24)
  /-- R106. ld loads a word from G[ra] + simm10. -/
  | ld (k : Fin 512) (rd ra : Fin 16) (imm : BitVec 10)
  /-- R106. st stores a word at G[ra] + simm10. -/
  | st (k : Fin 512) (rd ra : Fin 16) (imm : BitVec 10)
  /-- R100. ldp loads an aligned pair into an even register pair. -/
  | ldp (k : Fin 512) (rd ra : Fin 16) (imm : BitVec 10)
  /-- R100. stp stores an even register pair as an aligned pair. -/
  | stp (k : Fin 512) (rd ra : Fin 16) (imm : BitVec 10)
  /-- R102. Post-modify ld loads at G[ra] and then adds the immediate to G[ra]. -/
  | ldPostModify (k : Fin 512) (rd ra : Fin 16) (imm : BitVec 10)
  /-- R102. Post-modify st stores at G[ra] and then updates G[ra]. -/
  | stPostModify (k : Fin 512) (rd ra : Fin 16) (imm : BitVec 10)
  /-- R102. Post-modify ldp loads a pair at G[ra] and updates G[ra]. -/
  | ldpPostModify (k : Fin 512) (rd ra : Fin 16) (imm : BitVec 10)
  /-- R102. Post-modify stp stores a pair at G[ra] and updates G[ra]. -/
  | stpPostModify (k : Fin 512) (rd ra : Fin 16) (imm : BitVec 10)
  /-- R106. ldx loads a word at G[ra] + G[rb]. -/
  | ldx (k : Fin 512) (rd ra rb : Fin 16)
  /-- R106. stx stores a word at G[ra] + G[rb]. -/
  | stx (k : Fin 512) (rd ra rb : Fin 16)
  /-- R106. ldpx loads a pair at G[ra] + G[rb]. -/
  | ldpx (k : Fin 512) (rd ra rb : Fin 16)
  /-- R106. stpx stores a pair at G[ra] + G[rb]. -/
  | stpx (k : Fin 512) (rd ra rb : Fin 16)
  /-- R105. xchg atomically swaps G[rd] with the word at its address. -/
  | xchg (k : Fin 512) (rd ra : Fin 16) (imm : BitVec 10)
  /-- R106. Long ld loads a word at G[ra] + imm24. -/
  | ldLong (k : Fin 512) (rd ra : Fin 16) (imm : BitVec 24)
  /-- R106. Long st stores a word at G[ra] + imm24. -/
  | stLong (k : Fin 512) (rd ra : Fin 16) (imm : BitVec 24)
  /-- R106. Long ldp loads a pair at G[ra] + imm24. -/
  | ldpLong (k : Fin 512) (rd ra : Fin 16) (imm : BitVec 24)
  /-- R106. Long stp stores a pair at G[ra] + imm24. -/
  | stpLong (k : Fin 512) (rd ra : Fin 16) (imm : BitVec 24)
  /-- R107. beq branches, after its delay slot, when two registers are equal. -/
  | beq (k : Fin 512) (ra rb : Fin 16) (disp : BitVec 10)
  /-- R107. bne branches when two registers differ. -/
  | bne (k : Fin 512) (ra rb : Fin 16) (disp : BitVec 10)
  /-- R107. blt branches on signed less-than. -/
  | blt (k : Fin 512) (ra rb : Fin 16) (disp : BitVec 10)
  /-- R107. bge branches on signed greater-or-equal. -/
  | bge (k : Fin 512) (ra rb : Fin 16) (disp : BitVec 10)
  /-- R107. bltu branches on unsigned less-than. -/
  | bltu (k : Fin 512) (ra rb : Fin 16) (disp : BitVec 10)
  /-- R107. bgeu branches on unsigned greater-or-equal. -/
  | bgeu (k : Fin 512) (ra rb : Fin 16) (disp : BitVec 10)
  /-- R107. beqi branches when a register equals a 4-bit immediate. -/
  | beqi (k : Fin 512) (ra : Fin 16) (imm : BitVec 4) (disp : BitVec 10)
  /-- R107. bnei branches when a register differs from the immediate. -/
  | bnei (k : Fin 512) (ra : Fin 16) (imm : BitVec 4) (disp : BitVec 10)
  /-- R107. blti branches on signed less-than the immediate. -/
  | blti (k : Fin 512) (ra : Fin 16) (imm : BitVec 4) (disp : BitVec 10)
  /-- R107. bgei branches on signed greater-or-equal to the immediate. -/
  | bgei (k : Fin 512) (ra : Fin 16) (imm : BitVec 4) (disp : BitVec 10)
  /-- R107. bltui branches on unsigned less-than the immediate. -/
  | bltui (k : Fin 512) (ra : Fin 16) (imm : BitVec 4) (disp : BitVec 10)
  /-- R107. bgeui branches on unsigned greater-or-equal to the immediate. -/
  | bgeui (k : Fin 512) (ra : Fin 16) (imm : BitVec 4) (disp : BitVec 10)
  /-- R107. Long compare-and-branch with cond 0b000 branches to an absolute target on equality. -/
  | beqLong (k : Fin 512) (ra rb : Fin 16) (target : BitVec 24)
  /-- R107. Long branch with cond 0b001 on inequality. -/
  | bneLong (k : Fin 512) (ra rb : Fin 16) (target : BitVec 24)
  /-- R107. Long branch with cond 0b010 on signed less-than. -/
  | bltLong (k : Fin 512) (ra rb : Fin 16) (target : BitVec 24)
  /-- R107. Long branch with cond 0b011 on signed greater-or-equal. -/
  | bgeLong (k : Fin 512) (ra rb : Fin 16) (target : BitVec 24)
  /-- R107. Long branch with cond 0b100 on unsigned less-than. -/
  | bltuLong (k : Fin 512) (ra rb : Fin 16) (target : BitVec 24)
  /-- R107. Long branch with cond 0b101 on unsigned greater-or-equal. -/
  | bgeuLong (k : Fin 512) (ra rb : Fin 16) (target : BitVec 24)
  /-- R109. j jumps relative after its delay slot. -/
  | j (k : Fin 512) (disp : BitVec 18)
  /-- R110. call jumps relative and writes the link into g15 after the slot. -/
  | call (k : Fin 512) (disp : BitVec 18)
  /-- R109. jr jumps to G[ra]. -/
  | jr (k : Fin 512) (rd ra : Fin 16)
  /-- R109. callr jumps to G[ra] and links into G[rd]. -/
  | callr (k : Fin 512) (rd ra : Fin 16)
  /-- R109. jl jumps to an absolute 24-bit target. -/
  | jl (k : Fin 512) (rd ra : Fin 16) (target : BitVec 24)
  /-- R109. calll jumps to an absolute target and links into G[rd]. -/
  | calll (k : Fin 512) (rd ra : Fin 16) (target : BitVec 24)
  /-- R114. loop pushes a hardware loop counted by G[ra], or skips the body when the count is 0. -/
  | loop (k : Fin 512) (ra : Fin 16) (off : BitVec 14)
  /-- R114. loopi pushes a hardware loop with an 8-bit immediate count. -/
  | loopi (k : Fin 512) (cnt : BitVec 8) (off : BitVec 10)
  /-- R119. lpop pops the top loop entry. -/
  | lpop (k : Fin 512) (rd ra : Fin 16)
  /-- R119. mfl rd, lc reads LC. -/
  | mflLc (k : Fin 512) (rd ra : Fin 16)
  /-- R119. mfl rd, ls reads LS. -/
  | mflLs (k : Fin 512) (rd ra : Fin 16)
  /-- R119. mfl rd, le reads LE. -/
  | mflLe (k : Fin 512) (rd ra : Fin 16)
  /-- R119. mtl lc writes LC from G[ra]. -/
  | mtlLc (k : Fin 512) (rd ra : Fin 16)
  /-- R119. ldepth reads the number of active loop entries. -/
  | ldepth (k : Fin 512) (rd ra : Fin 16)
  /-- R124. adds adds with Q23 saturation. -/
  | adds (k : Fin 512) (rd ra rb : Fin 16)
  /-- R124. subs subtracts with Q23 saturation. -/
  | subs (k : Fin 512) (rd ra rb : Fin 16)
  /-- R124. negs negates with saturation. -/
  | negs (k : Fin 512) (rd ra rb : Fin 16)
  /-- R124. abss takes the saturated absolute value. -/
  | abss (k : Fin 512) (rd ra rb : Fin 16)
  /-- R124. mulr forms the rounded, saturated Q23 product. -/
  | mulr (k : Fin 512) (rd ra rb : Fin 16)
  /-- R124. clip limits G[ra] to ±|G[rb]|. -/
  | clip (k : Fin 512) (rd ra rb : Fin 16)
  /-- R124. shls shifts left with saturation. -/
  | shls (k : Fin 512) (rd ra rb : Fin 16)
  /-- R126. mpy sets an accumulator to the aligned product. -/
  | mpy (k : Fin 512) (ac ra rb : Fin 16)
  /-- R126. mac adds the aligned product with sat56. -/
  | mac (k : Fin 512) (ac ra rb : Fin 16)
  /-- R126. msu subtracts the aligned product with sat56. -/
  | msu (k : Fin 512) (ac ra rb : Fin 16)
  /-- R126. mpyi sets an accumulator to the integer product. -/
  | mpyi (k : Fin 512) (ac ra rb : Fin 16)
  /-- R126. maci adds the integer product with sat56. -/
  | maci (k : Fin 512) (ac ra rb : Fin 16)
  /-- R127. rnd rounds an accumulator half up to a saturated Q23 word. -/
  | rnd (k : Fin 512) (rd ac : Fin 16)
  /-- R127. rndc rounds to nearest even. -/
  | rndc (k : Fin 512) (rd ac : Fin 16)
  /-- R127. trn truncates an accumulator to Q23. -/
  | trn (k : Fin 512) (rd ac : Fin 16)
  /-- R128. mfah reads accumulator bits [47:24]. -/
  | mfah (k : Fin 512) (rd ac : Fin 16)
  /-- R128. mfal reads accumulator bits [23:0]. -/
  | mfal (k : Fin 512) (rd ac : Fin 16)
  /-- R128. mfag reads the guard bits sign-extended. -/
  | mfag (k : Fin 512) (rd ac : Fin 16)
  /-- R128. mtah loads an accumulator with the Q23 value of G[ra]. -/
  | mtah (k : Fin 512) (ac ra : Fin 16)
  /-- R128. mtal writes accumulator bits [23:0]. -/
  | mtal (k : Fin 512) (ac ra : Fin 16)
  /-- R128. mtag writes the guard bits. -/
  | mtag (k : Fin 512) (ac ra : Fin 16)
  /-- R128. clra clears an accumulator. -/
  | clra (k : Fin 512) (ac ra : Fin 16)
  /-- R128. adda adds accumulators with sat56. -/
  | adda (k : Fin 512) (ac ac2 : Fin 16)
  /-- R128. suba subtracts accumulators with sat56. -/
  | suba (k : Fin 512) (ac ac2 : Fin 16)
  /-- R128. mova copies an accumulator. -/
  | mova (k : Fin 512) (ac ac2 : Fin 16)
  /-- R128. nega negates an accumulator with sat56. -/
  | nega (k : Fin 512) (ac ac2 : Fin 16)
  /-- R128. absa takes an accumulator's absolute value with sat56. -/
  | absa (k : Fin 512) (ac ac2 : Fin 16)
  /-- R129. mfas reads ASTAT. -/
  | mfas (k : Fin 512) (rd ra : Fin 16)
  /-- R129. mtas writes ASTAT's SAT and AOV bits. -/
  | mtas (k : Fin 512) (rd ra : Fin 16)
  /-- R130. asha shifts an accumulator arithmetically with sat56. -/
  | asha (k : Fin 512) (ac ac2 : Fin 16) (n : BitVec 7)
  /-- R130. rnds scales, rounds and saturates an accumulator to Q23. -/
  | rnds (k : Fin 512) (rd ac : Fin 16) (n : BitVec 7)
  /-- R131. div divides signed integers on the 26-beat divider. -/
  | div (k : Fin 512) (rd ra rb : Fin 16)
  /-- R131. divu divides unsigned integers. -/
  | divu (k : Fin 512) (rd ra rb : Fin 16)
  /-- R131. rem gives the signed remainder. -/
  | rem (k : Fin 512) (rd ra rb : Fin 16)
  /-- R131. remu gives the unsigned remainder. -/
  | remu (k : Fin 512) (rd ra rb : Fin 16)
  /-- R131. divq gives the saturated Q23 quotient. -/
  | divq (k : Fin 512) (rd ra rb : Fin 16)
  /-- R134. wfe clears EL and completes, or waits in EVENT until EL is set. -/
  | wfe (k : Fin 512) (rd ra : Fin 16)
  /-- R136. waitt waits in TIME until the thread's view of device time reaches a 48-bit target. -/
  | waitt (k : Fin 512) (rd ra : Fin 16)
  /-- R137. Device time reaches a waiting waitt's target and the thread becomes ready. -/
  | waittTargetReached (k : Fin 512)
  /-- R137. rdt reads the cluster's device-time mirror into a register pair. -/
  | rdt (k : Fin 512) (rd ra : Fin 16)
  /-- R141. sync waits until the thread's pending RWS writes have taken effect. -/
  | sync (k : Fin 512) (rd ra : Fin 16)
  /-- R141. The last pending RWS write of a waiting sync takes effect and the sync completes. -/
  | syncComplete (k : Fin 512)
  /-- R142. fence holds the thread in DRAIN until its older accesses complete. -/
  | fence (k : Fin 512) (rd ra : Fin 16)
  /-- R142. The last older access of a fenced thread completes and the fence completes 1 bt later. -/
  | fenceComplete (k : Fin 512)
  /-- R144. retx removes the top level, performing an implicit end-of-interrupt, and restores the saved state and binding. -/
  | retx (k : Fin 512) (rd ra : Fin 16)
  /-- R145. cswap checks an in-area, saves the thread's context to an out-area, loads the new context and returns. -/
  | cswap (k : Fin 512) (rd ra : Fin 16)
  /-- R150. tcia invalidates every translation-cache entry of the own engine. -/
  | tcia (k : Fin 512) (rd ra : Fin 16)
  /-- R150. tcic invalidates the own engine's entries of one capsule. -/
  | tcic (k : Fin 512) (rd ra : Fin 16)
  /-- R150. tcip invalidates one page entry of one capsule on the own engine. -/
  | tcip (k : Fin 512) (rd ra : Fin 16)
  /-- R150. btcia invalidates every entry on all 128 engines. -/
  | btcia (k : Fin 512) (rd ra : Fin 16)
  /-- R150. btcic invalidates a capsule's entries on all engines. -/
  | btcic (k : Fin 512) (rd ra : Fin 16)
  /-- R150. btcip invalidates one page entry on all engines. -/
  | btcip (k : Fin 512) (rd ra : Fin 16)
  /-- R140. sev raises software device event 976 + n, subject to the bezel for a capsule. -/
  | sev (k : Fin 512) (ra : Fin 16) (imm : BitVec 10)
  /-- R140. sevl sets the own engine's DOORBELL source. -/
  | sevl (k : Fin 512) (ra : Fin 16) (imm : BitVec 10)
  /-- R143. callk enters the keeper through the exception vector with cause GATE. -/
  | callk (k : Fin 512) (ra : Fin 16) (n : BitVec 10)
  /-- R148. ckpt stages n local words behind a header into the engine's checkpoint buffer. -/
  | ckpt (k : Fin 512) (ra : Fin 16) (imm : BitVec 10)
  /-- R148. The checkpoint staging buffer drains its items into the thread's checkpoint strand, setting CKPTDONE when empty. -/
  | ckptDrain (e : Fin 128)
  /-- R159. An arrival at an EVI source passes the coalescer and hold latch and may set its pending bit. -/
  | eventArrival (e : Fin 128) (n : Fin 64)
  /-- R160. An open coalescing batch reaches CTIME and emits. -/
  | coalesceTimeLimit (e : Fin 128) (n : Fin 64)
  /-- R161. A write to EVI_PENDk sets or clears pending bits as a software trigger, bypassing coalescer and latch. -/
  | pendWrite (e : Fin 128) (w : Fin 3) (v : BitVec 24)
  /-- R162. Writing EVI_HOLD.HOLD = 1 makes emits wait in the hold latches. -/
  | eviHoldSet (e : Fin 128)
  /-- R162. Writing HOLD = 0 applies every latched emit in one step. -/
  | eviHoldRelease (e : Fin 128)
  /-- R163. HOLD held for 4,096 bt is cleared, TO is set and source 7 is set. -/
  | eviHoldTimeout (e : Fin 128)
  /-- R165. A presented wake source sets its thread's EL, clears its pending bit, subject to the capsule receive windows. -/
  | wakeDelivery (e : Fin 128) (n : Fin 64)
  /-- R177. A thread accepts its interrupt candidate, abandons uncommitted work, pushes a live level and starts its handler in
  12 bt. -/
  | interruptAccept (k : Fin 512)
  /-- R179. A synchronous exception abandons the faulting and younger instructions and enters the exception vector. -/
  | exceptionEntry (k : Fin 512) (c : Cause) (acc : AccKind) (lvl : Fin 4) (addr : BitVec 24)
  /-- R171. A read of EVI_CLAIM claims the top claim-mode entry's source, or returns SPUR. -/
  | claim (e : Fin 128) (who : Who)
  /-- R174. A write to EVI_EOI ends the matching topmost live entry and lowers the running priority. -/
  | eoi (e : Fin 128) (who : Who) (v : BitVec 24)
  /-- R198. The scrubber reads the next words of memory at SCRUB words per µs and corrects or logs errors. -/
  | scrubStep
  /-- R200. A buffered MRAM write completes in its bank with verify, retrying up to twice. -/
  | mramWordWrite (i : Fin 16) (ok : Bool)
  /-- R203. A write to MEMC_MRMARK marks the buffered entries and clears MARKDONE. -/
  | mrmark
  /-- R215. A translation-cache miss walks the capsule's tables, filling the cache or raising a walk fault. -/
  | tableWalk (k : Fin 512) (kind : AccKind) (va : BitVec 24) (upset : Bool)
  /-- R226. A write to MEMC_RENT requests, changes or releases a reservation, decided at once. -/
  | reservationRequest (v : BitVec 24)
  /-- R222. At each 1 µs boundary every reservation's token count is set to its RATE. -/
  | tokenRefill
  /-- R223. A best-effort request waiting PROMOTE_T bank cycles is promoted for one access. -/
  | memcPromotion (e : Fin 128) (i : Fin 4)
  /-- R224. A 1 µs window in which a bank exceeded 80 % reserved load is counted and raised. -/
  | hotbank (b : Fin 32)
  /-- R242. BZ_CMD HALLMARK starts verifying an image at BZ_HMADDR, or completes with BADSTATE. -/
  | hallmark (c : Fin 1024)
  /-- R242. A hallmark check finishes, setting the descriptor VERIFIED or clearing it to EMPTY, and raises HMDONE. -/
  | hallmarkComplete
  /-- R248. LOAD checks the staging descriptor and makes it live, as first load or update. -/
  | load (c : Fin 1024)
  /-- R250. SUSPEND holds every thread bound to the capsule. -/
  | suspend (c : Fin 1024)
  /-- R250. RESUME releases a suspended capsule's threads. -/
  | resume (c : Fin 1024)
  /-- R258. EPOCH increments a capsule's epoch and delivers it to the clasp and strand endpoints. -/
  | epoch (c : Fin 1024)
  /-- R251. RETIRE puts the capsule in RETIRING and holds its threads. -/
  | retire (c : Fin 1024)
  /-- R251. With no thread left bound, the bezel releases the reservation and grants, increments the epoch and empties the
  descriptor. -/
  | retireComplete
  /-- R263. KSWITCH inverts the keeper generation and stops threads of the old generation. -/
  | kswitch (c : Fin 1024)
  /-- R255. REFILL cancels allotments and sets REM to the full budget. -/
  | refill (c : Fin 1024)
  /-- R253. A thread's allotment falling to 64 draws a chunk from REM. -/
  | budgetChunk (k : Fin 512)
  /-- R254. With allotment and REM at 0 the thread takes BUDGET or is held with HOLD 3. -/
  | budgetExhausted (k : Fin 512)
  /-- R255. At a capsule's period boundary its usage is recorded, allotments cancelled, REM refilled and held threads
  released. -/
  | periodBoundary (c : Fin 1024)
  /-- R256. The waiting counter reaching WAITT adds 1,024 beats to REM and raises PROMO. -/
  | budgetPromotion (c : Fin 1024)
  /-- R261. A write to BZ_PRVA walks a capsule's live tables and reports the translation. -/
  | probe (v : BitVec 24)
  /-- R271. A store to STR_sPORT pushes an item, accepted, refused, waiting or dropped. -/
  | strandPush (who : Who) (i : Fin 512) (v va : BitVec 24)
  /-- R273. A push waiting 2 µs at a full strand is discarded and counted. -/
  | strandFullTimeout (i : Fin 512) (e : Fin 128) (p : Fin 4)
  /-- R274. A load from STR_sPORT pops an item, waits for it, or returns the blank word. -/
  | strandPop (who : Who) (i : Fin 512) (va : BitVec 24)
  /-- R279. A payload read waiting TO × 125 ns returns blank and breaks the packet. -/
  | payloadReadTimeout (i : Fin 512) (e : Fin 128) (p : Fin 4)
  /-- R277. A packet lock holder silent for 2 µs loses the lock and TRUNC is set. -/
  | packetLockTimeout (i : Fin 512)
  /-- R281. An item reaching stage 15 is checked against the expected epoch and removed if it differs. -/
  | strandItemAtHead (i : Fin 512)
  /-- R270. A write to STR_sCFG that clears EN or changes FMT, SRC or DST discards items and locks. -/
  | strandConfig (i : Fin 512) (v : BitVec 24)
  /-- R270. Writing STR_sCFG.FLUSH discards every item held. -/
  | strandFlush (i : Fin 512)
  /-- R281. A write to STR_sEP.PCID loads EXP and removes held items of another epoch. -/
  | endpointPcidWrite (i : Fin 512) (v : BitVec 24)
  /-- R284. A checkpoint header taken at stage 15 opens a fill in the non-current bank. -/
  | landingHeader (u : Fin 64)
  /-- R284. A checkpoint payload word reaching stage 15 is written to its bank offset. -/
  | landingPayloadWrite (u : Fin 64)
  /-- R284. All payload writes complete and the bank becomes current with LEN and SEQ. -/
  | checkpointComplete (u : Fin 64)
  /-- R287. The fabric side moves an item from a to-fabric bridge queue into its strand or discards it. -/
  | bridgeQueueToStrand (q : Fin 64)
  /-- R380. A held clasp value is written into its from-fabric queue when space appears. -/
  | claspBridgeQueueWrite (q : Fin 6)
  /-- R301. At a conversion boundary a channel corrects, linearises, windows, stamps and delivers a sample. -/
  | precSample (n : Fin 24) (r : BitVec 25) (ovl lead : Bool) (age : BitVec 8)
  /-- R302. A write changing a restarting field applies at the next boundary and starts the EXSET wait. -/
  | precRestart (n : Fin 24) (isExc : Bool) (v : BitVec 24)
  /-- R302. A channel's EXSET wait ends and its decimator restarts. -/
  | exsetWaitEnd (n : Fin 24)
  /-- R303. A write to PREC_SYNC restarts the named decimators on one DSM cycle. -/
  | precSync (v : BitVec 24)
  /-- R314. Writing PREC_CHnLCTL.SWAP requests a linearisation bank swap. -/
  | swapRequest (n : Fin 24)
  /-- R315. A write to a breakpoint of the active or pending bank is refused and counted. -/
  | precWref (n : Fin 24) (b : Fin 2) (i : Fin 257) (v : BitVec 24)
  /-- R310. A channel's stale timer expires, setting STALE and raising PREC_STALEn. -/
  | precStale (n : Fin 24)
  /-- R297. The cold-junction sensor converts and updates PREC_CJT or flags an invalid reading. -/
  | coldJunctionReading (v : BitVec 24)
  /-- R296. A bridge excitation output limits its current and raises PREC_BEXLIM. -/
  | precBexlim (k : Fin 4)
  /-- R316. Every 10 ms each bandgap's deviation is measured and states, DISAGREE and selection updated. -/
  | bandgapComparison (d0 d1 d2 diff : BitVec 24)
  /-- R317. A keeper write to REF_BGSTAT returns a bandgap to OK or makes it OUT. -/
  | bandgapStateWrite (v : BitVec 24)
  /-- R325. An input persisting beyond a threshold for DEB cycles moves the level and reports or holds the crossing. -/
  | xingCrossing (n : Fin 16) (up : Bool) (age : BitVec 8)
  /-- R328. At the end of the minimum interval a merged report is pushed if the level changed. -/
  | minivIntervalEnd (n : Fin 16)
  /-- R326. Enabling, a STEP write or an LBASE change starts level acquisition. -/
  | xingAcquire (n : Fin 16)
  /-- R326. Acquisition finishes by successive halving, sets the level and pushes a report. -/
  | acquisitionDone (n : Fin 16) (level : BitVec 12)
  /-- R333. The quiet timer expires, raising XING_QUIETn and, with HBEN, testing comparators and pushing a heartbeat. -/
  | xingQuiet (n : Fin 16) (ok : Bool)
  /-- R341. A trigger starts a core's run of conversion steps, or is lost while running. -/
  | sarTrigger (k : Fin 4)
  /-- R340. A write to SAR_SWTRIG triggers the named cores. -/
  | sarSwtrig (v : BitVec 24)
  /-- R343. A conversion step completes, updating registers and pushing its value. -/
  | sarStepDone (k : Fin 4) (us : List (BitVec 24)) (age : BitVec 10)
  /-- R344. A core's stale timer expires and SAR_STALEk is raised. -/
  | sarStale (k : Fin 4)
  /-- R345. A filtered level change counts as an edge, is stamped and may produce a MODE 1 report. -/
  | pulseEdge (n : Fin 8) (level : Bool) (age : BitVec 12)
  /-- R345. A change too short for the filter increments GLITCH. -/
  | pulseGlitch (n : Fin 8)
  /-- R346. A MODE 2 interval ends and a count report is pushed. -/
  | pulseIntervalEnd (n : Fin 8)
  /-- R347. A pulse stale timer expires, with a stale report in MODE 1. -/
  | pulseStale (n : Fin 8)
  /-- R349. A conductivity probe completes a result over NAVG + 1 periods and delivers it. -/
  | condResult (k : Fin 4) (g : BitVec 40) (lim : Bool)
  /-- R350. A probe's stale timer expires and COND_STALEk is raised. -/
  | condStale (k : Fin 4)
  /-- R364. An item taken at an inlet is decoded and each command evaluated, refused or released. -/
  | claspCommand (i : Fin 512) (late : Bool)
  /-- R361. A store to CL_KOUT/CL_KVAL submits a keeper command to the clasp. -/
  | keeperCommand (out : Option (BitVec 6)) (v : BitVec 24)
  /-- R365. At each 10 µs boundary the clasp makes rate steps and, every 100 µs, energy accumulation for armed outputs. -/
  | claspTick
  /-- R368. An output without a committed command for RWD × RUNIT takes SAFE and raises CL_WDOG. -/
  | refreshWatchdogExpiry (o : Fin 36)
  /-- R367. The energy integral reaches EMAX, ELIMF is set and the output limited to ELIM. -/
  | energyLimit (o : Fin 36)
  /-- R363. Writing 1 to an unarmed output's CL_ARM bit arms it at SAFE if its envelope is valid. -/
  | arm (o : Fin 36)
  /-- R363. Writing 0 to an output's CL_ARM bit disarms it to SAFE as an urgent value. -/
  | disarm (o : Fin 36)
  /-- R374. A rule meets its trip condition PERS times and forces its outputs to SAFE. -/
  | ruleTrip (r : Fin 32)
  /-- R374. A rule meets its release condition PERS times, and its latch is clear, and releases. -/
  | ruleRelease (r : Fin 32)
  /-- R376. Setting a CL_HOLD bit holds a group's outputs. -/
  | claspHoldSet (j : Fin 8)
  /-- R377. A hold ends by keeper write or first committed command, releasing the targets. -/
  | claspHoldRelease (j : Fin 8)
  /-- R377. A hold reaches HOLDT, outputs take SAFE and CL_HOLDTO is raised. -/
  | claspHoldTimeout (j : Fin 8)
  /-- R378. Writing CL_BANK.SWAP requests a table bank swap. -/
  | claspSwapRequest
  /-- R378. The first evaluation or tick after the request uses the other bank and CL_SWAP is raised. -/
  | claspSwap
  /-- R378. A write to the active or pending bank is refused and counted. -/
  | claspWref (w : Fin 7168) (v : BitVec 24)
  /-- R384. A bridge reaches cycle 0 and applies its shadow duties and pending PER, ALIGN, DT. -/
  | pwmPeriodBoundary (b : Fin 4)
  /-- R387. A bridge's counter reaches TRGA or TRGB and fires the trigger. -/
  | bridgeTriggerPoint (b : Fin 4) (isB : Bool)
  /-- R384. A write to BR_SYNC restarts the named bridge counters together. -/
  | brSync (v : BitVec 24)
  /-- R384. Setting a BR_CTL.EN bit starts the bridge counter at a period boundary. -/
  | bridgeEnable (v : BitVec 24)
  /-- R390. A shunt amplifier beyond OCTH trips the bridge or phase and raises BR_TRIPb. -/
  | overcurrentTrip (b : Fin 4) (p : Fin 3) (uv : BitVec 24)
  /-- R390. Clearing TRIPF in TRIPMODE 0 releases the tripped gates. -/
  | tripfClear (b : Fin 4)
  /-- R388. VGD below 7.5 V holds every gate off and raises BR_VGDUV. -/
  | vgdUndervoltage
  /-- R388. A phase's bootstrap below 7.0 V holds its high side off and raises BR_BSTUVb. -/
  | bootstrapUndervoltage (b : Fin 4) (p : Fin 3)
  /-- R392. A queued peak request is granted and the channel switches on in its peak phase. -/
  | solPeakGrant
  /-- R391. A channel's TPK ends and it changes to hold current. -/
  | solPeakEnd (c : Fin 16)
  /-- R393. At 1 ms after switch-on a current below 50 mA sets OPENF and raises SOL_FAULTc. -/
  | solOpenCheck (c : Fin 16) (ma : BitVec 11)
  /-- R393. A coil current above 1.6 A switches the channel off and sets SHORTF. -/
  | solShort (c : Fin 16)
  /-- R394. An accepted zero-cross edge starts a half-cycle at which SSR outputs fire. -/
  | zeroCrossEdge (k : Fin 2) (us : BitVec 16)
  /-- R394. No accepted edge for 25 ms sets LOST and raises SSR_ZCLOSTk. -/
  | zeroCrossLost (k : Fin 2)
  /-- R396. An SSR output sinking above 90 mA is switched off and SSR_OC raised. -/
  | ssrOc (o : Fin 8)
  /-- R408. At each 1 s window end the time-base sources are evaluated, states updated, selection and AWUCAL made. -/
  | windowEnd (seen : BitVec 3) (c0 c1 c2 : BitVec 32) (awu : BitVec 24)
  /-- R407. A source with no edge for 1 µs becomes ABSENT and may be switched away from or holdover entered. -/
  | tbAbsent (k : Fin 3)
  /-- R411. A keeper write to REF_TBSTAT.STk returns a source to OK or makes it OUT. -/
  | tbStateWrite (v : BitVec 24)
  /-- R412. A write to TIME_SLEW adds ticks to SLEWREM. -/
  | timeSlew (v : BitVec 24)
  /-- R412. Every SLEWI × 100 ticks while SLEWREM ≠ 0, DT advances by 0 or 2. -/
  | slewAdjustment
  /-- R415. Enabling a timer channel with STG = 0 starts it on the 4th TB tick. -/
  | timerStart (n : Fin 64)
  /-- R416. A counter incrementing to CMP sets CMPF, raises TIME_CMPn, adds INT and may clear EN. -/
  | timerMatch (n : Fin 64)
  /-- R418. A selected capture edge writes TCn_CAP and raises TIME_CAPn. -/
  | timerCapture (n : Fin 64) (rise : Bool)
  /-- R417. Writing TCn_STAT.SWCAP makes a capture when CSEL = 21. -/
  | swcap (n : Fin 64)
  /-- R418. A load of TCn_CAP returns the capture and clears CAPV. -/
  | captureRead (who : Who) (n : Fin 64)
  /-- R419. A write to TIME_GSTART releases staged channels or sets or cancels a timed start. -/
  | gstart (v : BitVec 24)
  /-- R419. DT reaches the GSAT target and the staged channels start together. -/
  | timedGlobalStart
  /-- R433. A received frame is filtered, stamped and written to the next receive descriptor, or dropped. -/
  | ethReceive (ws : List (BitVec 24)) (len : BitVec 12) (fcs err : Bool) (age : BitVec 18)
  /-- R431. A transmitted frame completes and its descriptor is written back, raising ETH_TX. -/
  | ethTransmitDone (cause : BitVec 3) (age : BitVec 18)
  /-- R431. Writing ETH_STAT.TXPOLL makes the engine read the next transmit descriptor. -/
  | txpoll
  /-- R433. Writing ETH_MDC.GO starts an MDIO read or write. -/
  | mdioAccess (v : BitVec 24) (data : BitVec 16)
  /-- R433. Every 10 ms the MAC reads the PHY's link status and raises ETH_LINK on change. -/
  | linkPoll (up : Bool)
  /-- R438. A received CAN frame is filtered and pushed to the RX FIFO or dropped. -/
  | canReceive (c : Fin 2) (f : List (BitVec 24)) (err : BitVec 4) (age : BitVec 18)
  /-- R437. A store to CANc_FIFO pushes a transmit word, committing a frame at its last word. -/
  | canFifoWrite (c : Fin 2) (v : BitVec 24)
  /-- R429. A load from CANc_FIFO pops a received word. -/
  | canFifoRead (c : Fin 2)
  /-- R437. A frame is sent or loses arbitration, with error counting and state change. -/
  | canTransmitDone (c : Fin 2) (r : Fin 4) (age : BitVec 18)
  /-- R437. A frame not sent within TXTO is removed and CANc_TXTO raised. -/
  | canTxTimeout (c : Fin 2)
  /-- R437. Writing ABORT empties the TX FIFO after the frame on the bus. -/
  | canAbort (c : Fin 2) (onBus : Bool)
  /-- R439. Writing RECOVER starts bus-off recovery. -/
  | canRecover (c : Fin 2)
  /-- R439. 128 occurrences of 11 recessive bits complete bus-off recovery. -/
  | canBusOffRecovery (c : Fin 2)
  /-- R441. A received character or break is pushed with its flags. -/
  | uartReceive (u : Fin 4) (byte : BitVec 8) (pe fe brk : Bool)
  /-- R441. The line idle for RTO bit times sets RTOF and raises UARTu_RX. -/
  | uartIdleTimeout (u : Fin 4)
  /-- R441. A store to UARTu_DATA queues a character or a break. -/
  | uartDataWrite (u : Fin 4) (v : BitVec 24)
  /-- R429. A load from UARTu_DATA pops a received item. -/
  | uartDataRead (u : Fin 4)
  /-- R442. A character is sent, with DE release and UARTu_TX when the FIFO empties. -/
  | uartTransmitDone (u : Fin 4)
  /-- R443. A store to SPIs_DATA queues a word to send. -/
  | spiDataWrite (i : Fin 2) (v : BitVec 24)
  /-- R429. A load from SPIs_DATA pops a received word. -/
  | spiDataRead (i : Fin 2)
  /-- R443. A word transfer completes, pushing received bits and handling CS. -/
  | spiWordDone (i : Fin 2) (v : BitVec 24)
  /-- R443. CS held with an empty FIFO for 2^STALL µs is released with STALLF. -/
  | spiStallTimeout (i : Fin 2)
  /-- R443. Writing END releases CS after the current word. -/
  | spiEnd (i : Fin 2)
  /-- R444. I²C command 0 sends START or repeated START and an address byte. -/
  | start (c : Fin 2) (byte : BitVec 8)
  /-- R444. I²C command 1 sends a byte. -/
  | send (c : Fin 2) (byte : BitVec 8)
  /-- R444. I²C command 2 reads a byte and acknowledges it. -/
  | readAck (c : Fin 2)
  /-- R444. I²C command 3 reads a byte without acknowledge. -/
  | readNack (c : Fin 2)
  /-- R444. I²C command 4 sends STOP. -/
  | stop (c : Fin 2)
  /-- R444. I²C command 5 pulses SCL until SDA is high, then STOP. -/
  | i2cRecover (c : Fin 2)
  /-- R444. An I²C controller command completes on the bus, with NACK handling. -/
  | i2cCommandDone (c : Fin 2) (ack : Bool) (byte : BitVec 8)
  /-- R445. A lost arbitration flushes the command FIFO and raises I2Cc_ERR. -/
  | arbitrationLost (c : Fin 2)
  /-- R445. SCL held low for SCLTO ms flushes the FIFO and releases the lines. -/
  | sclTimeout (c : Fin 2)
  /-- R429. A load from I2Cc_PORT pops a received byte. -/
  | i2cPortRead (c : Fin 2)
  /-- R446. The target matches its address, or wakes the device outside RUN. -/
  | i2ctMatch (rd : Bool)
  /-- R446. A byte is written into or read from the target's FIFO, stretching when needed. -/
  | i2ctByte (b : BitVec 8)
  /-- R446. A STOP or repeated START ends the target transfer. -/
  | i2ctDone
  /-- R447. A stretch beyond STRMAX releases SCL and raises I2CT_STRTO. -/
  | i2ctStrto
  /-- R446. A load or store of I2CT_PORT pops or pushes a target byte. -/
  | i2ctPortAccess (store : Bool) (v : BitVec 24)
  /-- R448. A bus reset clears ADDR and RDY bits and raises USB_BUS. -/
  | usbBusReset
  /-- R448. 3 ms of bus idle sets SUSP. -/
  | usbSuspend
  /-- R448. Bus activity clears SUSP and sets RESUMEF. -/
  | usbResume
  /-- R449. An OUT packet is stored, NAKed or STALLed. -/
  | usbOut (p : Fin 4) (ws : List (BitVec 24)) (cnt : BitVec 7)
  /-- R449. A SETUP packet is accepted into buffer 0. -/
  | usbSetup (w0 w1 w2 : BitVec 24)
  /-- R449. An IN packet is sent and, once acknowledged, RDY clears. -/
  | usbIn (p : Fin 4) (ack : Bool)
  /-- R448. VBUS becomes present or absent, changing attachment. -/
  | usbVbusChange (v : Bool)
  /-- R450. A load from the xSPI window performs one flash read transaction, or BUS when busy. -/
  | xspiWindowRead (e : Fin 128) (i : Fin 4) (d0 d1 : BitVec 24)
  /-- R452. Writing XSPI_CMD.GO starts a flash command. -/
  | xspiCommand (v : BitVec 24)
  /-- R452. A flash command ends, after status polling, raising XSPI_DONE. -/
  | xspiCommandDone (ws : List (BitVec 24))
  /-- R452. Status polling reaching TMO sets TOF. -/
  | xspiPollTimeout (ws : List (BitVec 24))
  /-- R453. CRYPT OP 1 hashes ARG2 bytes. -/
  | sha256 (v : BitVec 24)
  /-- R453. CRYPT OP 2 encrypts with AES-GCM and writes the tag. -/
  | gcmEncrypt (v : BitVec 24)
  /-- R454. CRYPT OP 3 decrypts and checks the tag, zeroing output on failure. -/
  | gcmDecrypt (v : BitVec 24)
  /-- R453. CRYPT OP 4 verifies an ECDSA P-256 signature. -/
  | ecdsaVerify (v : BitVec 24)
  /-- R453. CRYPT OP 5 clears the key registers. -/
  | clearKey (v : BitVec 24)
  /-- R455. A crypto job ends, raising CRYPT_DONE or CRYPT_ERR. -/
  | cryptJobDone
  /-- R456. 1,024 noise samples are conditioned and 10 words pushed into the RNG FIFO. -/
  | rngBlock (fail : Bool)
  /-- R456. A load from CRYPT_RNG pops one word. -/
  | rngPop
  /-- R468. A Chaden port receives 64 valid sets and becomes LINKED. -/
  | linkUp (p : Fin 2)
  /-- R468. A port loses valid characters or sees 16 violations and goes down. -/
  | linkDown (p : Fin 2)
  /-- R473. A frame's fourth sending goes unacknowledged and the port goes DEAD. -/
  | portDead (p : Fin 2)
  /-- R473. 2 µs without ACK resends every unacknowledged frame. -/
  | retransmitTimeout (p : Fin 2)
  /-- R472. An ACK acknowledges frames up to LSEQ. -/
  | ack (p : Fin 2) (lseq : Fin 256)
  /-- R473. A NAK makes the sender resend from the named frame. -/
  | nak (p : Fin 2) (lseq : Fin 256)
  /-- R491. An ECHO is answered with ECHR after a fixed turnaround. -/
  | echo (p : Fin 2)
  /-- R491. An ECHR completes a delay measurement and updates CHN_TDLY. -/
  | echr (p : Fin 2) (rt : BitVec 24)
  /-- R491. Every 100 ms a worker sends ECHO upstream. -/
  | linkDelayMeasure
  /-- R475. Writing CHN_CTL.ENUM starts enumeration after outstanding accesses end. -/
  | enumerationStart
  /-- R475. A received ENUM frame numbers the worker and propagates, or tells the manager of a ring. -/
  | enum (p : Fin 2) (n : Fin 32)
  /-- R475. A received ENUMR registers a worker at the manager. -/
  | enumr (p : Fin 2) (sysid : BitVec 24) (fin inport more : Bool) (n : Fin 32)
  /-- R475. 20 µs with no new ENUMR ends a side's enumeration. -/
  | enumerationTimeout
  /-- R484. A store into a Chaden window is accepted as a posted write with a sequence. -/
  | windowWrite (e : Fin 128) (i : Fin 4)
  /-- R482. A load from a Chaden window sends an RD and waits for its RDR. -/
  | windowRead (e : Fin 128) (i : Fin 4)
  /-- R479. A worker's far side checks and performs a received WR. -/
  | wr (p : Fin 2) (dst : Fin 32) (cid : Fin 1024) (a seq d0 d1 : BitVec 24) (pair ue ok tck : Bool)
  /-- R479. A worker's far side checks and performs a received RD and answers RDR. -/
  | rd (p : Fin 2) (dst : Fin 32) (cid : Fin 1024) (a : BitVec 24) (tag : Fin 256) (pair ue ok tck : Bool)
  /-- R483. An RDR completes the waiting window load with data or a fault. -/
  | rdr (p : Fin 2) (src : Fin 32) (pair : Bool) (status : Fin 8) (tag : Fin 256) (d0 d1 : BitVec 24)
  /-- R485. A WACK covers posted writes to a worker up to its sequence. -/
  | wack (p : Fin 2) (src : Fin 32) (seq : BitVec 24)
  /-- R485. 2 µs after the last performed write the worker sends a WACK. -/
  | wackTimer
  /-- R487. A WFAIL records a failed posted write in the failure ring and raises its event. -/
  | wfail (p : Fin 2) (src : Fin 32) (seq addr : BitVec 24) (cause : Fin 8)
  /-- R483. No RDR within RTO ends the window load with BUS. -/
  | readTimeout (tag : Fin 256)
  /-- R486. No WACK or WFAIL within WTO fails the posted write with TIMEOUT. -/
  | writeTimeout (seq : BitVec 24)
  /-- R488. A store to CHN_DRAIN puts the thread in DRAIN. -/
  | chnDrainStore (e : Fin 128) (i : Fin 4)
  /-- R488. All posted writes before the drain are covered or failed and the thread leaves DRAIN. -/
  | chnDrainComplete (k : Fin 512)
  /-- R484. A load of CHN_SEQ returns the thread's last posted sequence after older stores are accepted. -/
  | chnSeqRead (e : Fin 128) (i : Fin 4)
  /-- R488. A load of CHN_DRAIN returns the failures of the thread's last drain. -/
  | chnDrainRead (e : Fin 128) (i : Fin 4)
  /-- R489. A received EVT raises the matching inbound events. -/
  | evt (p : Fin 2) (dst src : Fin 32) (slot : Fin 16)
  /-- R490. Every 100 µs of DT a manager sends a BEACON on each linked port. -/
  | beaconSend
  /-- R492. A worker receives a beacon, relays it and slews, steps or flags its device time. -/
  | beacon (p : Fin 2) (t : BitVec 48) (corr : BitVec 24) (tq : Fin 4) (ago res : BitVec 24)
  /-- R493. 1 ms without a beacon clears LOCK and sets BLOST. -/
  | beaconLoss
  /-- R496. A RING frame reverses part of the ring and resends outstanding frames. -/
  | ring (p : Fin 2) (rev : Bool) (n : Fin 32)
  /-- R498. A worker's upstream down for 30 µs sets UPLOST and raises CHN_WLOST. -/
  | upstreamLost
  /-- R508. Filtered VIN falls below a step's threshold and the step's actions begin. -/
  | shedStepEnter (k : Fin 5)
  /-- R511. Filtered VIN rises past threshold + 0.5 V and the step is left. -/
  | shedStepLeave (k : Fin 5)
  /-- R512. A write to PWR_SHCFG.FORCE forces or releases steps 1–3. -/
  | shedForce (v : BitVec 24)
  /-- R509. VSYS below 6.5 V for 1 µs closes the hold-up switch. -/
  | vsysCollapse
  /-- R516. Usable energy falls to HOLD_RES, opening the switch and possibly entering step 5. -/
  | holdupExhausted
  /-- R520. Filtered VIN above 41.0 V stops the charger and raises PWR_VINHI. -/
  | vinHigh
  /-- R513. The hold-up bank reaches VT and HOLD_FULL is raised. -/
  | chargerFull
  /-- R513. VHOLD rising under 0.5 V in 1 s stops the charger with FAULTF. -/
  | chargerFault
  /-- R515. Every 1 ms VHOLD, current and energy estimates are updated. -/
  | holdMeasure (vin vsys vh : BitVec 13) (i dq : BitVec 24)
  /-- R517. After 10 s at rest with disagreeing estimates, Q is re-based. -/
  | holdRebase
  /-- R517. A continuous charge of 2 V or more ends and HOLD_CMEAS is set. -/
  | chargeMeasurement
  /-- R504. A regulator reaches its current limit and PWR_REGFLT is raised. -/
  | regulatorLimit (rail : Fin 4)
  /-- R505. A write to PWR_PLn.REQ requests a plan level. -/
  | planLevelRequest (d : Fin 9) (v : BitVec 24)
  /-- R506. A domain's effective level changes, moving VCORE, and PWR_PLDONE is raised. -/
  | planLevelChange (d : Fin 9)
  /-- R527. PWR_PSREQ TGT 1 starts an entry to DOZE. -/
  | dozeRequest
  /-- R527. PWR_PSREQ TGT 2 starts an entry to PATROL. -/
  | patrolRequest
  /-- R527. PWR_PSREQ TGT 3 starts an entry to DORMANT. -/
  | dormantRequest
  /-- R530. PWR_PSREQ TGT 0 cancels an entry before the point of no return. -/
  | cancel
  /-- R529. A participant answers OK, DELAY or REFUSE. -/
  | participantAnswer (p : Fin 16) (wire : Bool)
  /-- R529. A participant still delaying after 1 ms is taken as refusing with TIMEOUT. -/
  | participantTimeout
  /-- R531. With all OK, the save is written and the device passes the point of no return into the state. -/
  | pointOfNoReturn
  /-- R540. An enabled wake source aborts an entry or starts a return. -/
  | awuWake (b : Fin 10)
  /-- R538. The return from DOZE completes and held happenings take effect. -/
  | dozeReturn
  /-- R539. The return from PATROL or DORMANT powers the fabric, restores saves and DT and runs the ROM resume path. -/
  | fabricRestart (n : BitVec 48) (srcOk : Bool) (img : List (BitVec 24))
  /-- R541. A filtered edge on WKUPn is a wake. -/
  | wakePin (n : Fin 2) (rising : Bool) (held : BitVec 8)
  /-- R542. A swing after silence on a watched receive pair is a wake. -/
  | chadenWakeDetect (p : Fin 2)
  /-- R542. A write to PWR_LWAKE sends a wake burst on named down ports. -/
  | lwake (v : BitVec 24)
  /-- R543. The AWU count reaches AWU_ALM and wakes the device. -/
  | timeAlarm (n : BitVec 48)
  /-- R544. At each AWU_PER the sequencer measures its due entries, or skips. -/
  | patrolVisit (n : BitVec 48) (skip : Bool) (rs : List PatRes)
  /-- R556. A watched thread without progress for STALL_T µs takes STALL. -/
  | stall (k : Fin 512)
  /-- R557. A cluster misses its token or loses voltage and is quarantined. -/
  | clusterFault (c : Fin 8) (volt : Bool)
  /-- R559. A write to FLT_READMIT starts readmitting a quarantined cluster. -/
  | readmit (v : BitVec 24)
  /-- R559. Readmission completes and FLT_READMIT is raised. -/
  | readmitComplete (c : Fin 8)
  /-- R561. Writing SP_nCTL.EN = 1 arms a shadow pair or sets FAILF. -/
  | pairArm (n : Fin 32) (v : BitVec 24)
  /-- R561. Writing SP_nCTL.EN = 0 disarms a pair. -/
  | pairDisarm (n : Fin 32) (v : BitVec 24)
  /-- R563. A pair's checkpoint deadline expires, logging CKMISS and triggering. -/
  | ckmiss (n : Fin 32)
  /-- R562. A write to FLT_TAKE triggers a pair with KEEPER. -/
  | fltTake (v : BitVec 24)
  /-- R564. A trigger holds the outputs, stops the primary, bumps the epoch, settles landing and starts the shadow. -/
  | takeover (n : Fin 32)
  /-- R565. The shadow issues at RESUME, TOOK is set and SP_TAKE raised. -/
  | takeoverComplete (n : Fin 32)
  /-- R568. ESCDLY after escalation the device makes a fault-escalation reset. -/
  | escalationReset (straps : BitVec 4) (img : List (BitVec 24))
  /-- R572. An hour of RUN and DOZE passes, ASY_HOURS increments and an hourly run starts. -/
  | assayHour
  /-- R572. Writing ASY_CTL.RUN starts an assay run. -/
  | assayRunCommand
  /-- R573. An assay run completes, raising adders or retiring levels, and ASY_DONE is raised. -/
  | assayRunComplete (ms : List AsyMeas) (bg : List (BitVec 24)) (mrm : BitVec 24) (solr bst : List (BitVec 24))
  /-- R573. A keeper write to ASY_MPdp raises an adder or retires a level. -/
  | assayPlanWrite (d : Fin 9) (p : Fin 8) (v : BitVec 24)
  /-- R577. Every 10 ms the thermal governor sets the thermal cap from TMAX. -/
  | thermalEvaluation (tj : List (BitVec 12))
  /-- R583. Power-on resets every block, clears registers and runs the boot ROM. -/
  | powerOnReset (src : Fin 5) (vaon : Bool) (straps : BitVec 4) (img : List (BitVec 24))
  /-- R582. RESET_N held low for 1 µs makes a system reset. -/
  | resetPin (straps : BitVec 4) (img : List (BitVec 24))
  /-- R582. Writing 0x5E7501 to SYS_RESET makes a keeper-command reset. -/
  | keeperReset (v : BitVec 24) (straps : BitVec 4) (img : List (BitVec 24))
  /-- R586. A write to SYS_WDKICK restarts the watchdog, or resets with WDBAD. -/
  | watchdogKick (v n : BitVec 24) (straps : BitVec 4) (img : List (BitVec 24))
  /-- R586. The watchdog reaches half its timeout and raises SYS_WDWARN. -/
  | watchdogWarn (n : BitVec 24)
  /-- R586. The watchdog count reaches TO × 1,024 and makes a watchdog reset. -/
  | watchdogTimeout (n : BitVec 24) (straps : BitVec 4) (img : List (BitVec 24))
  /-- R592. SYS_FUSECMD with SEP 0 programs a fuse word in service mode. -/
  | fuseProgram (v : BitVec 24)
  /-- R592. SYS_FUSECMD with SEP 1 blows the next security-epoch fuse. -/
  | epochFuseBlow (v : BitVec 24)
  /-- R592. A fuse command completes, reads back and raises SYS_FUSEDONE. -/
  | fuseDone (got : BitVec 24)
  /-- R593. A write to SYS_SVC.EN enters or leaves service mode. -/
  | serviceModeWrite (v : BitVec 24)
  /-- R598. Writing SYS_DBG.KLOCK returns the Loupe to LOCKED. -/
  | klock
  /-- R595. TRST_N resets the TAP. -/
  | trst
  /-- R595. TAP instruction EXTEST drives boundary cells, as BYPASS while locked. -/
  | extest
  /-- R595. TAP instruction SAMPLE/PRELOAD samples or loads boundary cells. -/
  | samplePreload (cells : BitVec 402)
  /-- R595. TAP instruction IDCODE selects the ID register. -/
  | idcode
  /-- R595. TAP instruction CLAMP holds outputs from boundary cells. -/
  | clamp
  /-- R595. TAP instruction HIGHZ puts outputs in high impedance. -/
  | highz
  /-- R596. TAP instruction LOUPE selects the transport register. -/
  | loupeSelect
  /-- R595. TAP instruction BYPASS selects the bypass bit. -/
  | bypass
  /-- R597. Loupe NOP does nothing. -/
  | nop
  /-- R597. Loupe RDK reads a physical word. -/
  | rdk (a : BitVec 24) (ok : Bool)
  /-- R597. Loupe WRK writes a physical word. -/
  | wrk (a d : BitVec 24) (ok : Bool)
  /-- R597. Loupe RDC reads a capsule virtual word. -/
  | rdc (a : BitVec 24) (ok : Bool)
  /-- R597. Loupe WRC writes a capsule virtual word. -/
  | wrc (a d : BitVec 24) (ok : Bool)
  /-- R597. Loupe SETCID selects the capsule for RDC and WRC. -/
  | setcid (d : BitVec 24)
  /-- R600. Loupe HALT stops a thread after its issued instructions and raises LP_HALT. -/
  | halt (k : Fin 512)
  /-- R600. Loupe RUN resumes a halted thread. -/
  | run (k : Fin 512)
  /-- R600. Loupe STEP issues one instruction of a halted thread and halts again. -/
  | step (k : Fin 512)
  /-- R597. Loupe RDREG reads a halted thread's register. -/
  | rdreg (k : Fin 512) (c : Fin 64)
  /-- R597. Loupe WRREG writes a halted thread's register. -/
  | wrreg (k : Fin 512) (c : Fin 64) (v : BitVec 24)
  /-- R597. Loupe TSTAT reports a thread's state and next address. -/
  | tstat (k : Fin 512)
  /-- R601. Loupe SETBP sets a breakpoint. -/
  | setbp (a d : BitVec 24)
  /-- R601. Loupe SETWP sets a watchpoint. -/
  | setwp (a d : BitVec 24)
  /-- R601. A thread about to issue an instruction at a breakpoint halts with BREAK. -/
  | breakpointHalt (k : Fin 512) (len : Fin 3)
  /-- R602. Loupe FREEZE asserts or releases the freeze signal. -/
  | freeze (d : BitVec 24)
  /-- R599. Loupe CHAL returns a nonce word, drawing a new nonce for i = 0. -/
  | chal (i : Fin 8)
  /-- R599. Loupe KEYW writes a public key word. -/
  | keyw (w : Fin 32) (v : BitVec 24)
  /-- R599. Loupe RESP writes a signature word. -/
  | resp (w : Fin 32) (v : BitVec 24)
  /-- R599. Loupe UNLOCK verifies the signature and opens the port to CAPS or OPEN. -/
  | unlock (v : BitVec 24)
  /-- R599. 32,768 AWU cycles after a failed unlock, CHAL is accepted again. -/
  | unlockLockoutEnd
  /-- R598. Loupe LOCK returns the port to LOCKED. -/
  | lock
  /-- R597. Loupe WAKE raises wake source 8. -/
  | wake
  /-- R598. Loupe MAILW writes LP_MAILIN and raises LP_MAIL. -/
  | mailw (v : BitVec 24)
  /-- R597. Loupe MAILR reads LP_MAILOUT. -/
  | mailr
  /-- R28. TPLL first locks after power-on, starting the TB island, device time and every function that waits for lock. -/
  | tpllLock
  /-- R472. A Chaden frame arrives with a bad CRC, a code violation, the wrong LSEQ, a bad TYPE or word count, or ends in
  EOFA; it is discarded, counted in CRCERR and answered with one NAK. -/
  | frameCrcFailure (p : Fin 2) (quiet : Bool)
  /-- R388. VGD rises back to 7.5 V or above, UVNOW clears and the gates follow their commands again from the next period
  boundary. -/
  | vgdRecovery
  /-- R388. A phase's bootstrap voltage rises back to 7.0 V or above and BSTUVNOW clears. -/
  | bootstrapRecovery (b : Fin 4) (p : Fin 3)
  /-- R296. A bridge excitation output stops limiting its current, LIMNOW clears and its ratiometric channels stop carrying
  OPEN. -/
  | bexLimitEnd (k : Fin 4)
  /-- R520. Filtered VIN falls below 40.5 V, VINHI clears and the hold-up charger may run again. -/
  | vinhiEnd
  /-- R396. The 1 ms off time of an SSR output in MODE 0 after an overcurrent ends and the output follows its value again. -/
  | ssrOcEnd (o : Fin 8)
  /-- R444. Another controller releases the I²C bus with a STOP, and a START waiting for a free bus proceeds. -/
  | i2cBusFree (c : Fin 2)
  deriving DecidableEq, Repr

end Sys2Proof
end

