-- ==== Sys2Proof/Decode.lean ====
section
/-!
DEFINITION. Decoding. The table of this block gives no row any bits, so no table word spells a command (`decodeTableWord`). An instruction's
words are fetched and decoded inside the device: `decodeWord` reads them by the formats of R87, the opcode map of R88 and the function
tables of R94–R150, and refuses what R86 makes ILLEGAL by its major opcode, its function field or a zero field. Fields that an
instruction's row carries as operands are judged by its meaning.
-/

namespace Sys2Proof

/-- The command that `nbits` bits `w` spell: none, since no row of the table has bits. -/
def decodeTableWord (_nbits _w : Nat) : Option Instr := none

/-- The major opcode of a first word (R84). -/
def majorOf (w : BitVec 24) : Nat := (w.extractLsb' 18 6).toNat

/-- An instruction whose first word is `w` has two words (R84). -/
def longForm (w : BitVec 24) : Bool := decide (0x3C ≤ majorOf w)

/-- The register field of a word whose low bit is `lo` (R87). -/
def regField (w : BitVec 24) (lo : Nat) : Fin 16 := ⟨(w.extractLsb' lo 4).toNat, (w.extractLsb' lo 4).isLt⟩

/-- An instruction whose zero field holds zero, else none (R86). -/
def zeroed (z : Bool) (i : Option Instr) : Option Instr := if z then i else none

/-- The register ALU functions (R94). -/
def decodeAlu (k : Fin 512) (rd ra rb : Fin 16) : Nat → Option Instr
  | 0x00 => some (.add k rd ra rb)
  | 0x01 => some (.sub k rd ra rb)
  | 0x02 => some (.and k rd ra rb)
  | 0x03 => some (.or k rd ra rb)
  | 0x04 => some (.xor k rd ra rb)
  | 0x05 => some (.andn k rd ra rb)
  | 0x06 => some (.nor k rd ra rb)
  | 0x07 => some (.slt k rd ra rb)
  | 0x08 => some (.sltu k rd ra rb)
  | 0x09 => some (.sll k rd ra rb)
  | 0x0A => some (.srl k rd ra rb)
  | 0x0B => some (.sra k rd ra rb)
  | 0x0C => some (.rol k rd ra rb)
  | 0x0D => some (.min k rd ra rb)
  | 0x0E => some (.max k rd ra rb)
  | 0x0F => some (.minu k rd ra rb)
  | 0x10 => some (.maxu k rd ra rb)
  | 0x11 => some (.mul k rd ra rb)
  | 0x12 => some (.mulhs k rd ra rb)
  | 0x13 => some (.mulhu k rd ra rb)
  | 0x14 => some (.clz k rd ra rb)
  | _ => none

/-- The shift immediates (R96), by imm10 [9:8]. -/
def decodeShift (k : Fin 512) (rd ra : Fin 16) (n : BitVec 5) : Nat → Option Instr
  | 0x00 => some (.slli k rd ra n)
  | 0x01 => some (.srli k rd ra n)
  | 0x02 => some (.srai k rd ra n)
  | 0x03 => some (.roli k rd ra n)
  | _ => none

/-- The indexed memory functions (R106). -/
def decodeIdx (k : Fin 512) (rd ra rb : Fin 16) : Nat → Option Instr
  | 0x00 => some (.ldx k rd ra rb)
  | 0x01 => some (.stx k rd ra rb)
  | 0x02 => some (.ldpx k rd ra rb)
  | 0x03 => some (.stpx k rd ra rb)
  | _ => none

/-- jr and callr (R109). -/
def decodeJump (k : Fin 512) (rd ra : Fin 16) : Nat → Option Instr
  | 0x00 => some (.jr k rd ra)
  | 0x01 => some (.callr k rd ra)
  | _ => none

/-- Loop control (R119). -/
def decodeLoop (k : Fin 512) (rd ra : Fin 16) : Nat → Option Instr
  | 0x00 => some (.lpop k rd ra)
  | 0x01 => some (.mflLc k rd ra)
  | 0x02 => some (.mflLs k rd ra)
  | 0x03 => some (.mflLe k rd ra)
  | 0x04 => some (.mtlLc k rd ra)
  | 0x05 => some (.ldepth k rd ra)
  | _ => none

/-- The Q23 saturating functions (R124). -/
def decodeQ23 (k : Fin 512) (rd ra rb : Fin 16) : Nat → Option Instr
  | 0x00 => some (.adds k rd ra rb)
  | 0x01 => some (.subs k rd ra rb)
  | 0x02 => some (.negs k rd ra rb)
  | 0x03 => some (.abss k rd ra rb)
  | 0x04 => some (.mulr k rd ra rb)
  | 0x05 => some (.clip k rd ra rb)
  | 0x06 => some (.shls k rd ra rb)
  | _ => none

/-- The products into accumulators (R126). -/
def decodeProd (k : Fin 512) (rd ra rb : Fin 16) : Nat → Option Instr
  | 0x00 => some (.mpy k rd ra rb)
  | 0x01 => some (.mac k rd ra rb)
  | 0x02 => some (.msu k rd ra rb)
  | 0x03 => some (.mpyi k rd ra rb)
  | 0x04 => some (.maci k rd ra rb)
  | _ => none

/-- Accumulator transfer, rounding and status (R128). -/
def decodeAcc (k : Fin 512) (rd ra : Fin 16) : Nat → Option Instr
  | 0x00 => some (.rnd k rd ra)
  | 0x01 => some (.rndc k rd ra)
  | 0x02 => some (.trn k rd ra)
  | 0x03 => some (.mfah k rd ra)
  | 0x04 => some (.mfal k rd ra)
  | 0x05 => some (.mfag k rd ra)
  | 0x06 => some (.mtah k rd ra)
  | 0x07 => some (.mtal k rd ra)
  | 0x08 => some (.mtag k rd ra)
  | 0x09 => some (.clra k rd ra)
  | 0x0A => some (.adda k rd ra)
  | 0x0B => some (.suba k rd ra)
  | 0x0C => some (.mova k rd ra)
  | 0x0D => some (.nega k rd ra)
  | 0x0E => some (.absa k rd ra)
  | 0x0F => some (.mfas k rd ra)
  | 0x10 => some (.mtas k rd ra)
  | _ => none

/-- Accumulator shift and scaled rounding (R130), by imm10 [9:7]. -/
def decodeAshift (k : Fin 512) (rd ra : Fin 16) (n : BitVec 7) : Nat → Option Instr
  | 0x00 => some (.asha k rd ra n)
  | 0x01 => some (.rnds k rd ra n)
  | _ => none

/-- Division (R131). -/
def decodeDiv (k : Fin 512) (rd ra rb : Fin 16) : Nat → Option Instr
  | 0x00 => some (.div k rd ra rb)
  | 0x01 => some (.divu k rd ra rb)
  | 0x02 => some (.rem k rd ra rb)
  | 0x03 => some (.remu k rd ra rb)
  | 0x04 => some (.divq k rd ra rb)
  | _ => none

/-- Waiting, ordering, return, context and translation (R134–R150). -/
def decodeSys (k : Fin 512) (rd ra : Fin 16) : Nat → Option Instr
  | 0x00 => some (.wfe k rd ra)
  | 0x01 => some (.waitt k rd ra)
  | 0x02 => some (.rdt k rd ra)
  | 0x03 => some (.sync k rd ra)
  | 0x04 => some (.fence k rd ra)
  | 0x05 => some (.retx k rd ra)
  | 0x06 => some (.cswap k rd ra)
  | 0x07 => some (.tcia k rd ra)
  | 0x08 => some (.tcic k rd ra)
  | 0x09 => some (.tcip k rd ra)
  | 0x0A => some (.btcia k rd ra)
  | 0x0B => some (.btcic k rd ra)
  | 0x0C => some (.btcip k rd ra)
  | _ => none

/-- Signalling, gate and checkpoint (R139), by the rd field. -/
def decodeSignal (k : Fin 512) (ra : Fin 16) (n : BitVec 10) : Nat → Option Instr
  | 0x00 => some (.sev k ra n)
  | 0x01 => some (.sevl k ra n)
  | 0x02 => some (.callk k ra n)
  | 0x03 => some (.ckpt k ra n)
  | _ => none

/-- The long immediates (R98). -/
def decodeLongImm (k : Fin 512) (rd ra : Fin 16) (v : BitVec 24) : Nat → Option Instr
  | 0x00 => some (.li k rd ra v)
  | 0x01 => some (.addl k rd ra v)
  | 0x02 => some (.andl k rd ra v)
  | 0x03 => some (.orl k rd ra v)
  | 0x04 => some (.xorl k rd ra v)
  | 0x05 => some (.sltl k rd ra v)
  | 0x06 => some (.sltul k rd ra v)
  | _ => none

/-- The long memory forms (R106). -/
def decodeLongMem (k : Fin 512) (rd ra : Fin 16) (v : BitVec 24) : Nat → Option Instr
  | 0x00 => some (.ldLong k rd ra v)
  | 0x01 => some (.stLong k rd ra v)
  | 0x02 => some (.ldpLong k rd ra v)
  | 0x03 => some (.stpLong k rd ra v)
  | _ => none

/-- The long jump and call (R109). -/
def decodeLongJump (k : Fin 512) (rd ra : Fin 16) (v : BitVec 24) : Nat → Option Instr
  | 0x00 => some (.jl k rd ra v)
  | 0x01 => some (.calll k rd ra v)
  | _ => none

/-- The long compare-and-branch conditions (R107). -/
def decodeLongBranch (k : Fin 512) (ra rb : Fin 16) (v : BitVec 24) : Nat → Option Instr
  | 0x00 => some (.beqLong k ra rb v)
  | 0x01 => some (.bneLong k ra rb v)
  | 0x02 => some (.bltLong k ra rb v)
  | 0x03 => some (.bgeLong k ra rb v)
  | 0x04 => some (.bltuLong k ra rb v)
  | 0x05 => some (.bgeuLong k ra rb v)
  | _ => none

/-- The instruction of thread `k` whose first word is `w`, and whose second word is `v` where it has one; none where R86 makes the encoding
ILLEGAL (R84–R88, R120). -/
def decodeWord (k : Fin 512) (w v : BitVec 24) : Option Instr :=
  let rd := regField w 14
  let ra := regField w 10
  let rb := regField w 6
  let i10 := w.extractLsb' 0 10
  let fn := (w.extractLsb' 0 6).toNat
  let fx := (w.extractLsb' 4 6).toNat
  let zx := decide (w.extractLsb' 0 4 = 0)
  match majorOf w with
  | 0x00 => decodeAlu k rd ra rb fn
  | 0x01 => some (.addi k rd ra i10)
  | 0x02 => some (.andi k rd ra i10)
  | 0x03 => some (.ori k rd ra i10)
  | 0x04 => some (.xori k rd ra i10)
  | 0x05 => some (.slti k rd ra i10)
  | 0x06 => some (.sltiu k rd ra i10)
  | 0x07 => zeroed (decide (w.extractLsb' 5 3 = 0)) (decodeShift k rd ra (w.extractLsb' 0 5) (w.extractLsb' 8 2).toNat)
  | 0x08 => some (.lui k rd (w.extractLsb' 0 14))
  | 0x09 => some (.extu k rd ra (w.extractLsb' 5 5) (w.extractLsb' 0 5))
  | 0x0A => some (.exts k rd ra (w.extractLsb' 5 5) (w.extractLsb' 0 5))
  | 0x0B => some (.ins k rd ra (w.extractLsb' 5 5) (w.extractLsb' 0 5))
  | 0x10 => some (.ld k rd ra i10)
  | 0x11 => some (.st k rd ra i10)
  | 0x12 => some (.ldp k rd ra i10)
  | 0x13 => some (.stp k rd ra i10)
  | 0x14 => some (.ldPostModify k rd ra i10)
  | 0x15 => some (.stPostModify k rd ra i10)
  | 0x16 => some (.ldpPostModify k rd ra i10)
  | 0x17 => some (.stpPostModify k rd ra i10)
  | 0x18 => decodeIdx k rd ra rb fn
  | 0x19 => some (.xchg k rd ra i10)
  | 0x21 => some (.beq k rd ra i10)
  | 0x22 => some (.bne k rd ra i10)
  | 0x23 => some (.blt k rd ra i10)
  | 0x24 => some (.bge k rd ra i10)
  | 0x25 => some (.bltu k rd ra i10)
  | 0x26 => some (.bgeu k rd ra i10)
  | 0x27 => some (.beqi k rd (w.extractLsb' 10 4) i10)
  | 0x28 => some (.bnei k rd (w.extractLsb' 10 4) i10)
  | 0x29 => some (.blti k rd (w.extractLsb' 10 4) i10)
  | 0x2A => some (.bgei k rd (w.extractLsb' 10 4) i10)
  | 0x2B => some (.bltui k rd (w.extractLsb' 10 4) i10)
  | 0x2C => some (.bgeui k rd (w.extractLsb' 10 4) i10)
  | 0x2D => some (.j k (w.extractLsb' 0 18))
  | 0x2E => some (.call k (w.extractLsb' 0 18))
  | 0x2F => zeroed zx (decodeJump k rd ra fx)
  | 0x30 => some (.loop k rd (w.extractLsb' 0 14))
  | 0x31 => some (.loopi k (w.extractLsb' 10 8) i10)
  | 0x32 => zeroed zx (decodeLoop k rd ra fx)
  | 0x34 => decodeQ23 k rd ra rb fn
  | 0x35 => decodeProd k rd ra rb fn
  | 0x36 => zeroed zx (decodeAcc k rd ra fx)
  | 0x37 => decodeAshift k rd ra (w.extractLsb' 0 7) (w.extractLsb' 7 3).toNat
  | 0x38 => decodeDiv k rd ra rb fn
  | 0x39 => zeroed zx (decodeSys k rd ra fx)
  | 0x3A => decodeSignal k ra i10 rd.val
  | 0x3C => zeroed zx (decodeLongImm k rd ra v fx)
  | 0x3D => zeroed zx (decodeLongMem k rd ra v fx)
  | 0x3E => zeroed zx (decodeLongJump k rd ra v fx)
  | 0x3F => zeroed (decide (w.extractLsb' 0 7 = 0)) (decodeLongBranch k rd ra v (w.extractLsb' 7 3).toNat)
  | _ => none

end Sys2Proof
end

