-- ==== Sys2Proof/Config.lean ====
section
/-!
DEFINITION. What an implementation fixes and the spec leaves open: free values, each an opaque constant with no body.
-/

namespace Sys2Proof

/-- The n-th free word drawn: a value the spec says the device produces without saying which (log entry 6). -/
opaque Config.freeWord : Nat → Word

end Sys2Proof
end

