-- ==== Sys2Proof/Machine/RegMap.lean ====
section
/-!
DEFINITION. The register map of the device: every register group of the register tables of spec/ as one row (address, index
strides and counts, reset value, the bits of each access type of R6), the address of every register under the spec's own name, and
the place of every field. Addresses and types are those of the chapters' register maps (R15, R82, R189, R190, R230, R266, R289, R323,
R353–R355, R399–R402, R426, R427, R458–R465, R501, R521, R522, R545, R551, R552, R581, R605, R606).
-/

namespace Sys2Proof.Machine

/-- One register group of the map: `base` address, `dims` the (stride, count) of each index, outermost first, the reset value, and
the bits of each access type of R6 (`ro`, `w1c`, `rws`, `krw`, `k`, `rw`, `wo`). A bit in none of the masks is reserved (R8). -/
structure RegGroup where
  base  : Nat
  dims  : List (Nat × Nat)
  reset : Nat
  ro    : Nat
  w1c   : Nat
  rws   : Nat
  krw   : Nat
  k     : Nat
  rw    : Nat
  wo    : Nat
  deriving DecidableEq, Repr

/-- Offset `o` is one of the offsets the strides and counts of a group reach. -/
def dimsHit : List (Nat × Nat) → Nat → Bool
  | [], o => o == 0
  | (st, n) :: ds, o => decide (o / st < n) && dimsHit ds (o % st)

/-- Address `a` is a register of group `g`. -/
def RegGroup.hit (g : RegGroup) (a : Nat) : Bool := decide (g.base ≤ a) && dimsHit g.dims (a - g.base)

/-- Index number `i` (outermost first) of offset `o` in a group's strides. -/
def dimIndex : List (Nat × Nat) → Nat → Nat → Nat
  | [], _, _ => 0
  | (st, _) :: _, o, 0 => o / st
  | (st, _) :: ds, o, i + 1 => dimIndex ds (o % st) i

/-- Index number `i` of address `a` in group `g`. -/
def RegGroup.index (g : RegGroup) (a i : Nat) : Nat := dimIndex g.dims (a - g.base) i

/-- Register groups of block sys (R40). -/
def sysRegs : List RegGroup := [
  ⟨0xF00000, [], 0x412811, 0xFFFFFF, 0, 0, 0, 0, 0, 0⟩, -- SYS_ID (R15)
  ⟨0xF00001, [], 0x800000, 0xFFF8FF, 0, 0, 0, 0, 0, 0⟩, -- SYS_RCAUSE (R605)
  ⟨0xF00002, [], 0, 0xF00000, 0, 0, 0, 0, 0, 0⟩, -- SYS_STRAP (R605)
  ⟨0xF00003, [], 0, 0xFCFFF0, 0, 0, 0, 0, 0, 0⟩, -- SYS_BOOTSTAT (R605)
  ⟨0xF00004, [], 0, 0, 0, 0, 0, 0, 0, 0xFFFFFF⟩, -- SYS_RESET (R605)
  ⟨0xF00005, [], 0, 0x000002, 0, 0, 0, 0x000001, 0, 0⟩, -- SYS_SVC (R605)
  ⟨0xF00006, [], 0xA00040, 0, 0, 0, 0, 0xE0FFFF, 0, 0⟩, -- SYS_WDCTL (R605)
  ⟨0xF00007, [], 0, 0, 0, 0, 0, 0, 0, 0xFFFFFF⟩, -- SYS_WDKICK (R605)
  ⟨0xF00008, [], 0, 0, 0, 0, 0, 0xFFFFFF, 0, 0⟩, -- SYS_KRESUME (R605)
  ⟨0xF00009, [], 0, 0x1803FF, 0, 0, 0, 0xC00000, 0, 0x200000⟩, -- SYS_DBG (R605)
  ⟨0xF00010, [], 0, 0, 0, 0, 0, 0xFF803F, 0, 0⟩, -- SYS_FUSECMD (R605)
  ⟨0xF00011, [], 0, 0, 0, 0, 0, 0xFFFFFF, 0, 0⟩, -- SYS_FUSEDAT (R605)
  ⟨0xF00012, [], 0, 0x800000, 0x400000, 0, 0, 0, 0, 0⟩, -- SYS_FUSESTAT (R605)
  ⟨0xF00020, [(1, 34)], 0, 0xFFFFFF, 0, 0, 0, 0, 0, 0⟩] -- SYS_FUSEw (R605)

/-- Register groups of block pwr (R40). -/
def pwrRegs : List RegGroup := [
  ⟨0xF01000, [], 0, 0x001FFF, 0, 0, 0, 0, 0, 0⟩, -- PWR_VIN (R521)
  ⟨0xF01001, [], 0, 0x001FFF, 0, 0, 0, 0, 0, 0⟩, -- PWR_VSYS (R521)
  ⟨0xF01002, [], 0, 0x800007, 0x7C0000, 0, 0, 0, 0, 0⟩, -- PWR_SHSTAT (R521)
  ⟨0xF01003, [], 0x000003, 0, 0, 0, 0, 0x000037, 0, 0⟩, -- PWR_SHCFG (R521)
  ⟨0xF01004, [(1, 4)], 0, 0, 0, 0, 0xFFFFFF, 0, 0, 0⟩, -- PWR_SHCNTk (R521)
  ⟨0xF01008, [], 0x001FFF, 0, 0, 0, 0x001FFF, 0, 0, 0⟩, -- PWR_VINMIN (R521)
  ⟨0xF01009, [], 0x000384, 0x8003FF, 0, 0, 0, 0, 0, 0⟩, -- PWR_VCORE (R521)
  ⟨0xF0100A, [], 0, 0, 0xF00000, 0, 0, 0, 0, 0⟩, -- PWR_REGSTAT (R521)
  ⟨0xF01010, [(1, 9)], 0xFC0007, 0xFE0000, 0, 0, 0, 0x000007, 0, 0⟩, -- PWR_PLn (R521)
  ⟨0xF01100, [], 0, 0, 0, 0, 0, 0xC00000, 0, 0⟩, -- PWR_PSREQ (R551)
  ⟨0xF01101, [], 0, 0xFFF800, 0x000600, 0, 0, 0, 0, 0⟩, -- PWR_PSSTAT (R551)
  ⟨0xF01102, [], 0, 0x00FFFF, 0, 0, 0, 0, 0, 0⟩, -- PWR_PSVOTE (R551)
  ⟨0xF01103, [], 0, 0x00FFFF, 0, 0, 0, 0, 0, 0⟩, -- PWR_PSDLY (R551)
  ⟨0xF01104, [(1, 3)], 0, 0, 0, 0, 0xFFFFFF, 0, 0, 0⟩, -- PWR_PSENTs (R551)
  ⟨0xF01108, [(1, 3)], 0, 0, 0, 0, 0xFFFFFF, 0, 0, 0⟩, -- PWR_PSRAs (R551)
  ⟨0xF0110C, [(1, 3)], 0, 0xFF0000, 0, 0, 0, 0, 0, 0⟩, -- PWR_PSLASTs (R551)
  ⟨0xF01110, [], 0, 0, 0, 0, 0, 0x0000FF, 0, 0⟩, -- PWR_DOZECFG (R551)
  ⟨0xF01111, [], 0, 0, 0, 0, 0, 0, 0, 0x000003⟩, -- PWR_LWAKE (R551)
  ⟨0xF01112, [], 0, 0, 0, 0, 0xFFFFFF, 0, 0, 0⟩, -- PWR_FORCECNT (R551)
  ⟨0xF01120, [(2, 4)], 0, 0, 0, 0, 0, 0xFFFFFF, 0, 0⟩, -- PWR_KSAVEi (R551)
  ⟨0xF01121, [(2, 4)], 0, 0, 0, 0, 0, 0x0001FF, 0, 0⟩] -- PWR_KLENi (R551)

/-- Register groups of block hold (R40). -/
def holdRegs : List RegGroup := [
  ⟨0xF02000, [], 0x400F28, 0, 0, 0, 0, 0xC00F7F, 0, 0⟩, -- HOLD_CTL (R522)
  ⟨0xF02001, [], 0, 0xFDFFFF, 0x020000, 0, 0, 0, 0, 0⟩, -- HOLD_STAT (R522)
  ⟨0xF02002, [], 0, 0x001FFF, 0, 0, 0, 0, 0, 0⟩, -- HOLD_VH (R522)
  ⟨0xF02003, [], 0, 0xFFFFFF, 0, 0, 0, 0, 0, 0⟩, -- HOLD_I (R522)
  ⟨0xF02004, [], 0, 0, 0, 0, 0xFFFFFF, 0, 0, 0⟩, -- HOLD_Q (R522)
  ⟨0xF02005, [], 0, 0, 0, 0, 0, 0xFFFFFF, 0, 0⟩, -- HOLD_CAP (R522)
  ⟨0xF02006, [], 0, 0xFFFFFF, 0, 0, 0, 0, 0, 0⟩, -- HOLD_CMEAS (R522)
  ⟨0xF02007, [], 0x000032, 0, 0, 0, 0, 0xFFFFFF, 0, 0⟩, -- HOLD_RES (R522)
  ⟨0xF02008, [], 0, 0, 0, 0, 0, 0xFFFFFF, 0, 0⟩, -- HOLD_LOWE (R522)
  ⟨0xF02009, [], 0, 0xFFFFFF, 0, 0, 0, 0, 0, 0⟩, -- HOLD_EQ (R522)
  ⟨0xF0200A, [], 0, 0xFFFFFF, 0, 0, 0, 0, 0, 0⟩, -- HOLD_EV (R522)
  ⟨0xF0200B, [], 0, 0xFFFFFF, 0, 0, 0, 0, 0, 0⟩, -- HOLD_E (R522)
  ⟨0xF0200C, [], 0, 0, 0, 0, 0xFFFFFF, 0, 0, 0⟩, -- HOLD_CNT (R522)
  ⟨0xF0200D, [], 0, 0xFFFFFF, 0, 0, 0, 0, 0, 0⟩, -- HOLD_RBOLD (R522)
  ⟨0xF0200E, [], 0, 0xFFFFFF, 0, 0, 0, 0, 0, 0⟩] -- HOLD_RBNEW (R522)

/-- Register groups of block assay (R40). -/
def assayRegs : List RegGroup := [
  ⟨0xF03000, [], 0x800000, 0, 0, 0, 0, 0x800000, 0, 0x400000⟩, -- ASY_CTL (R581)
  ⟨0xF03001, [], 0, 0xC001FF, 0, 0, 0, 0, 0, 0⟩, -- ASY_STAT (R581)
  ⟨0xF03002, [], 0, 0xFFFFFF, 0, 0, 0, 0, 0, 0⟩, -- ASY_HOURS (R581)
  ⟨0xF03003, [], 0x0000C8, 0, 0, 0, 0, 0x00FFFF, 0, 0⟩, -- ASY_GUARD (R581)
  ⟨0xF03004, [], 0, 0, 0, 0, 0xFFFFFF, 0, 0, 0⟩, -- ASY_RUNS (R581)
  ⟨0xF03008, [], 0x736903, 0, 0, 0, 0, 0xFFFF07, 0, 0⟩, -- ASY_THCFG (R581)
  ⟨0xF03009, [], 0xE00000, 0xF00FFF, 0, 0, 0, 0, 0, 0⟩, -- ASY_THSTAT (R581)
  ⟨0xF03010, [(1, 9)], 0, 0x000FFF, 0, 0, 0, 0, 0, 0⟩, -- ASY_TJd (R581)
  ⟨0xF03020, [(4, 9), (1, 4)], 0, 0xFFFFFF, 0, 0, 0, 0, 0, 0⟩, -- ASY_RCdq (R581)
  ⟨0xF03100, [(8, 9), (1, 8)], 0, 0x40FFFF, 0, 0, 0, 0x8F0000, 0, 0⟩, -- ASY_MPdp (R581)
  ⟨0xF03180, [(2, 9)], 0xFFFFFF, 0xFFFFFF, 0, 0, 0, 0, 0, 0⟩, -- ASY_PRJd (R581)
  ⟨0xF03181, [(2, 9)], 0, 0x800007, 0, 0, 0, 0, 0, 0⟩, -- ASY_PRLd (R581)
  ⟨0xF03200, [(1, 3)], 0, 0x00FFFF, 0, 0, 0, 0, 0, 0⟩, -- ASY_BGMAXk (R581)
  ⟨0xF03203, [], 0, 0x0007FF, 0, 0, 0, 0, 0, 0⟩, -- ASY_MRM (R581)
  ⟨0xF03210, [(1, 16)], 0, 0x00FFFF, 0, 0, 0, 0, 0, 0⟩, -- ASY_SOLRc (R581)
  ⟨0xF03220, [(1, 12)], 0x001FFF, 0x001FFF, 0, 0, 0, 0, 0, 0⟩, -- ASY_BSTn (R581)
  ⟨0xF03230, [], 0, 0, 0xF00000, 0, 0, 0, 0, 0⟩, -- ASY_TRF (R581)
  ⟨0xF03400, [], 0x000064, 0, 0, 0, 0, 0xF003FF, 0, 0⟩, -- FLT_CTL (R581)
  ⟨0xF03401, [], 0, 0xF000FF, 0, 0, 0, 0, 0, 0⟩, -- FLT_STAT (R581)
  ⟨0xF03402, [], 0, 0, 0, 0, 0, 0, 0, 0x000007⟩, -- FLT_READMIT (R581)
  ⟨0xF03403, [], 0, 0, 0, 0, 0, 0, 0, 0x00001F⟩, -- FLT_TAKE (R581)
  ⟨0xF03404, [], 0, 0x00001F, 0, 0, 0, 0, 0, 0⟩, -- FLT_HEAD (R581)
  ⟨0xF03405, [], 0, 0, 0, 0, 0xFFFFFF, 0, 0, 0⟩, -- FLT_CNT0 (R581)
  ⟨0xF03406, [], 0, 0, 0, 0, 0xFFFFFF, 0, 0, 0⟩, -- FLT_CNT1 (R581)
  ⟨0xF03407, [], 0, 0, 0, 0, 0xFFFFFF, 0, 0, 0⟩, -- FLT_CNT2 (R581)
  ⟨0xF03440, [(4, 32)], 0, 0xFFFFFF, 0, 0, 0, 0, 0, 0⟩, -- FLT_LAi (R581)
  ⟨0xF03441, [(4, 32)], 0, 0xFFFFFF, 0, 0, 0, 0, 0, 0⟩, -- FLT_LBi (R581)
  ⟨0xF03442, [(4, 32)], 0, 0xFFFFFF, 0, 0, 0, 0, 0, 0⟩, -- FLT_LCi (R581)
  ⟨0xF03500, [(8, 32)], 0, 0x400000, 0, 0, 0, 0xBBFFFF, 0, 0⟩, -- SP_nCTL (R581)
  ⟨0xF03501, [(8, 32)], 0, 0, 0, 0, 0, 0xFFFFFF, 0, 0⟩, -- SP_nCAP (R581)
  ⟨0xF03502, [(8, 32)], 0, 0, 0, 0, 0, 0xFFFFFF, 0, 0⟩, -- SP_nVA0 (R581)
  ⟨0xF03503, [(8, 32)], 0, 0, 0, 0, 0, 0xFFFFFF, 0, 0⟩, -- SP_nVA1 (R581)
  ⟨0xF03504, [(8, 32)], 0, 0, 0, 0, 0, 0x0FFFFF, 0, 0⟩, -- SP_nDL (R581)
  ⟨0xF03505, [(8, 32)], 0, 0x3F1FFF, 0xC00000, 0, 0, 0, 0, 0⟩] -- SP_nSTAT (R581)

/-- Register groups of block ref (R40). -/
def refRegs : List RegGroup := [
  ⟨0xF04000, [], 0xF00024, 0, 0, 0, 0, 0xF8003F, 0, 0⟩, -- REF_TBCTL (R427)
  ⟨0xF04001, [], 0x200000, 0xF03F00, 0, 0, 0, 0x00003F, 0, 0⟩, -- REF_TBSTAT (R427)
  ⟨0xF04002, [(1, 3)], 0, 0xFFFFFF, 0, 0, 0, 0, 0, 0⟩, -- REF_OFSk (R427)
  ⟨0xF04005, [], 0x0BEBC2, 0xFFFFFF, 0, 0, 0, 0, 0, 0⟩, -- REF_AWUCAL (R427)
  ⟨0xF04010, [], 0x000024, 0, 0, 0, 0, 0x00003F, 0, 0⟩, -- REF_BGCTL (R427)
  ⟨0xF04011, [], 0, 0xB00000, 0, 0, 0, 0x00003F, 0, 0⟩, -- REF_BGSTAT (R427)
  ⟨0xF04012, [(1, 3)], 0, 0xFFFFFF, 0, 0, 0, 0, 0, 0⟩] -- REF_BGDk (R427)

/-- Register groups of block time (R40). -/
def timeRegs : List RegGroup := [
  ⟨0xF05000, [], 0, 0xFFFFFF, 0, 0, 0, 0, 0, 0⟩, -- TIME_DTL (R426)
  ⟨0xF05001, [], 0, 0xFFFFFF, 0, 0, 0, 0, 0, 0⟩, -- TIME_DTH (R426)
  ⟨0xF05002, [], 0, 0xFFFFFF, 0, 0, 0, 0, 0, 0⟩, -- TIME_DTX (R426)
  ⟨0xF05003, [], 0xC00000, 0xFC0000, 0x020000, 0, 0, 0, 0, 0⟩, -- TIME_STAT (R426)
  ⟨0xF05004, [], 0, 0, 0, 0, 0, 0xFFFFFF, 0, 0⟩, -- TIME_SLEW (R426)
  ⟨0xF05005, [], 0, 0xFFFFFF, 0, 0, 0, 0, 0, 0⟩, -- TIME_SLEWREM (R426)
  ⟨0xF05006, [], 0x000064, 0, 0, 0, 0, 0x0003FF, 0, 0⟩, -- TIME_SLEWCFG (R426)
  ⟨0xF05008, [], 0, 0, 0, 0, 0, 0x8000FF, 0, 0⟩, -- TIME_GSTART (R426)
  ⟨0xF0500A, [], 0, 0, 0, 0, 0, 0xFFFFFF, 0, 0⟩, -- TIME_GSATL (R426)
  ⟨0xF0500B, [], 0, 0, 0, 0, 0, 0xFFFFFF, 0, 0⟩, -- TIME_GSATH (R426)
  ⟨0xF05100, [(8, 64)], 0, 0, 0, 0, 0, 0xFFFEFF, 0, 0⟩, -- TCn_CFG (R426)
  ⟨0xF05101, [(8, 64)], 0, 0, 0, 0, 0, 0xFFFFFF, 0, 0⟩, -- TCn_CNT (R426)
  ⟨0xF05102, [(8, 64)], 0, 0, 0, 0, 0, 0xFFFFFF, 0, 0⟩, -- TCn_CMP (R426)
  ⟨0xF05103, [(8, 64)], 0, 0, 0, 0, 0, 0xFFFFFF, 0, 0⟩, -- TCn_INT (R426)
  ⟨0xF05104, [(8, 64)], 0, 0xFFFFFF, 0, 0, 0, 0, 0, 0⟩, -- TCn_CAP (R426)
  ⟨0xF05105, [(8, 64)], 0, 0x5B0000, 0xA00000, 0, 0, 0, 0, 0x040000⟩] -- TCn_STAT (R426)

/-- Register groups of block evroute (R40). -/
def evrouteRegs : List RegGroup := [
  ⟨0xF06000, [], 0, 0, 0, 0, 0xFFFFFF, 0, 0, 0⟩, -- EVR_MERGE (R190)
  ⟨0xF06001, [], 0, 0x0003FF, 0, 0, 0, 0, 0, 0⟩, -- EVR_MLAST (R190)
  ⟨0xF06002, [], 0, 0, 0, 0, 0, 0x0003FF, 0, 0⟩, -- EVR_FORCE (R190)
  ⟨0xF06004, [(1, 4)], 0, 0, 0, 0, 0, 0x8003FF, 0, 0⟩, -- EVR_WSELn (R190)
  ⟨0xF06008, [(1, 4)], 0, 0, 0, 0, 0xFFFFFF, 0, 0, 0⟩] -- EVR_WCNTn (R190)

/-- Register groups of block awu (R40). -/
def awuRegs : List RegGroup := [
  ⟨0xF07000, [], 0x000180, 0x000004, 0, 0, 0, 0x0001FB, 0, 0⟩, -- AWU_WEN (R552)
  ⟨0xF07001, [], 0x000303, 0, 0, 0, 0, 0x03FF0F, 0, 0⟩, -- AWU_WPIN (R552)
  ⟨0xF07002, [], 0, 0x9F7000, 0x0003FF, 0, 0, 0, 0, 0⟩, -- AWU_WCAUSE (R552)
  ⟨0xF07003, [], 0, 0, 0, 0, 0, 0x000001, 0, 0⟩, -- AWU_CFG (R552)
  ⟨0xF07004, [], 0, 0, 0, 0, 0, 0xFFFFFF, 0, 0⟩, -- AWU_ALML (R552)
  ⟨0xF07005, [], 0, 0, 0, 0, 0, 0xFFFFFF, 0, 0⟩, -- AWU_ALMH (R552)
  ⟨0xF07006, [], 0, 0xFFFFFF, 0, 0, 0, 0, 0, 0⟩, -- AWU_NL (R552)
  ⟨0xF07007, [], 0, 0xFFFFFF, 0, 0, 0, 0, 0, 0⟩, -- AWU_NH (R552)
  ⟨0xF07008, [], 0x04FC29, 0, 0, 0, 0, 0xFFFFFF, 0, 0⟩, -- AWU_PER (R552)
  ⟨0xF07009, [], 0, 0, 0, 0, 0xFFFFFF, 0, 0, 0⟩, -- AWU_PVIS (R552)
  ⟨0xF0700A, [], 0, 0, 0, 0, 0xFFFFFF, 0, 0, 0⟩, -- AWU_PSKIP (R552)
  ⟨0xF07100, [(16, 8)], 0x000100, 0, 0, 0, 0, 0xFFFF00, 0, 0⟩, -- AWU_PeCFG (R545)
  ⟨0xF07101, [(16, 8)], 0, 0, 0, 0, 0, 0x7FFFFF, 0, 0⟩, -- AWU_PeANA (R545)
  ⟨0xF07102, [(16, 8)], 0x000001, 0, 0, 0, 0, 0x00FFFF, 0, 0⟩, -- AWU_PeTIM (R545)
  ⟨0xF07103, [(16, 8)], 0, 0, 0, 0, 0, 0xFFFFFF, 0, 0⟩, -- AWU_PeOFS (R545)
  ⟨0xF07104, [(16, 8)], 0x400000, 0, 0, 0, 0, 0xFFFFFF, 0, 0⟩, -- AWU_PeGAIN (R545)
  ⟨0xF07105, [(16, 8)], 0x800001, 0, 0, 0, 0, 0xFFFFFF, 0, 0⟩, -- AWU_PeWLO (R545)
  ⟨0xF07106, [(16, 8)], 0x7FFFFF, 0, 0, 0, 0, 0xFFFFFF, 0, 0⟩, -- AWU_PeWHI (R545)
  ⟨0xF07107, [(16, 8)], 0x7FFFFF, 0, 0, 0, 0xFFFFFF, 0, 0, 0⟩, -- AWU_PeMIN (R545)
  ⟨0xF07108, [(16, 8)], 0x800001, 0, 0, 0, 0xFFFFFF, 0, 0, 0⟩, -- AWU_PeMAX (R545)
  ⟨0xF07109, [(16, 8)], 0x800000, 0xFFFFFF, 0, 0, 0, 0, 0, 0⟩, -- AWU_PeLAST (R545)
  ⟨0xF0710A, [(16, 8)], 0, 0x7F0000, 0x800000, 0, 0x00FFFF, 0, 0, 0⟩] -- AWU_PeSTAT (R545)

/-- Register groups of block prec (R40). -/
def precRegs : List RegGroup := [
  ⟨0xF10000, [], 0, 0, 0, 0, 0, 0x000003, 0, 0⟩, -- PREC_CTL (R323)
  ⟨0xF10001, [], 0, 0, 0, 0, 0, 0, 0, 0xFFFFFF⟩, -- PREC_SYNC (R323)
  ⟨0xF10002, [], 0, 0xFFFFFF, 0, 0, 0, 0, 0, 0⟩, -- PREC_CJT (R323)
  ⟨0xF10003, [], 0, 0xC00000, 0x200000, 0, 0, 0, 0, 0⟩, -- PREC_CJSTAT (R323)
  ⟨0xF10004, [], 0, 0, 0, 0, 0, 0x00000F, 0, 0⟩, -- PREC_BEXCTL (R323)
  ⟨0xF10005, [], 0, 0x0000F0, 0x00000F, 0, 0, 0, 0, 0⟩, -- PREC_BEXSTAT (R323)
  ⟨0xF10006, [], 0, 0, 0, 0, 0xFFFFFF, 0, 0, 0⟩, -- PREC_WREFCNT (R323)
  ⟨0xF10040, [(32, 24)], 0, 0, 0, 0, 0, 0xFFFFF0, 0, 0⟩, -- PREC_CHnCFG (R323)
  ⟨0xF10041, [(32, 24)], 0, 0, 0, 0, 0, 0x00FF3F, 0, 0⟩, -- PREC_CHnEXC (R323)
  ⟨0xF10042, [(32, 24)], 0, 0, 0, 0, 0, 0xFFFFFF, 0, 0⟩, -- PREC_CHnOFS (R323)
  ⟨0xF10043, [(32, 24)], 0x400000, 0, 0, 0, 0, 0xFFFFFF, 0, 0⟩, -- PREC_CHnGAIN (R323)
  ⟨0xF10044, [(32, 24)], 0, 0, 0, 0, 0, 0xFFFFFF, 0, 0⟩, -- PREC_CHnCJ0 (R323)
  ⟨0xF10045, [(32, 24)], 0, 0, 0, 0, 0, 0xFFFFFF, 0, 0⟩, -- PREC_CHnCJK (R323)
  ⟨0xF10046, [(32, 24)], 0x800001, 0, 0, 0, 0, 0xFFFFFF, 0, 0⟩, -- PREC_CHnWLO (R323)
  ⟨0xF10047, [(32, 24)], 0x7FFFFF, 0, 0, 0, 0, 0xFFFFFF, 0, 0⟩, -- PREC_CHnWHI (R323)
  ⟨0xF10048, [(32, 24)], 0x000001, 0, 0, 0, 0, 0x8000FF, 0, 0⟩, -- PREC_CHnWCFG (R323)
  ⟨0xF10049, [(32, 24)], 0, 0, 0, 0, 0, 0x00FFFF, 0, 0⟩, -- PREC_CHnTMO (R323)
  ⟨0xF1004A, [(32, 24)], 0, 0xC00000, 0, 0, 0, 0, 0, 0x000001⟩, -- PREC_CHnLCTL (R323)
  ⟨0xF1004B, [(32, 24)], 0, 0, 0, 0, 0xFFFFFF, 0, 0, 0⟩, -- PREC_CHnLSTAT (R323)
  ⟨0xF1004C, [(32, 24)], 0x800000, 0xFFFFFF, 0, 0, 0, 0, 0, 0⟩, -- PREC_CHnDATA (R323)
  ⟨0xF1004D, [(32, 24)], 0, 0xFFFFFF, 0, 0, 0, 0, 0, 0⟩, -- PREC_CHnQUAL (R323)
  ⟨0xF1004E, [(32, 24)], 0, 0xFFFFFF, 0, 0, 0, 0, 0, 0⟩, -- PREC_CHnTIME (R323)
  ⟨0xF1004F, [(32, 24)], 0x800000, 0xFFFFFF, 0, 0, 0, 0, 0, 0⟩, -- PREC_CHnRAW (R323)
  ⟨0xF10050, [(32, 24)], 0, 0x1E0000, 0xE00000, 0, 0x00FFFF, 0, 0, 0⟩, -- PREC_CHnSTAT (R323)
  ⟨0xF10051, [(32, 24)], 0, 0, 0, 0, 0xFFFFFF, 0, 0, 0⟩, -- PREC_CHnCNT (R323)
  ⟨0xF10800, [(544, 24), (272, 2), (1, 257)], 0, 0, 0, 0, 0xFFFFFF, 0, 0, 0⟩] -- PREC_CHnLb (R323)

/-- Register groups of block xing (R40). -/
def xingRegs : List RegGroup := [
  ⟨0xF14000, [], 0, 0, 0, 0, 0, 0x000001, 0, 0⟩, -- XING_CTL (R353)
  ⟨0xF14040, [(16, 16)], 0x020000, 0, 0, 0, 0, 0xEFFFFF, 0, 0⟩, -- XING_CHnCFG (R353)
  ⟨0xF14041, [(16, 16)], 0, 0, 0, 0, 0, 0xFFFFFF, 0, 0⟩, -- XING_CHnSTEP (R353)
  ⟨0xF14042, [(16, 16)], 0x000019, 0, 0, 0, 0, 0xFFFFFF, 0, 0⟩, -- XING_CHnRATE (R353)
  ⟨0xF14043, [(16, 16)], 0x000001, 0, 0, 0, 0, 0xFFFFFF, 0, 0⟩, -- XING_CHnWIN (R353)
  ⟨0xF14044, [(16, 16)], 0x002710, 0, 0, 0, 0, 0x00FFFF, 0, 0⟩, -- XING_CHnTMO (R353)
  ⟨0xF14045, [(16, 16)], 0, 0xC00FFF, 0, 0, 0, 0, 0, 0⟩, -- XING_CHnLVL (R353)
  ⟨0xF14046, [(16, 16)], 0, 0xFFFFFF, 0, 0, 0, 0, 0, 0⟩, -- XING_CHnTIME (R353)
  ⟨0xF14047, [(16, 16)], 0, 0x1C0000, 0xE00000, 0, 0x00FFFF, 0, 0, 0⟩] -- XING_CHnSTAT (R353)

/-- Register groups of block sar (R40). -/
def sarRegs : List RegGroup := [
  ⟨0xF18000, [], 0, 0, 0, 0, 0, 0x00000F, 0, 0⟩, -- SAR_CTL (R354)
  ⟨0xF18001, [], 0, 0, 0, 0, 0, 0, 0, 0x00000F⟩, -- SAR_SWTRIG (R354)
  ⟨0xF18010, [(16, 4)], 0xF40064, 0, 0, 0, 0, 0xFF7FFF, 0, 0⟩, -- SAR_KkCFG (R354)
  ⟨0xF18011, [(16, 4), (1, 8)], 0, 0, 0, 0, 0, 0xF00000, 0, 0⟩, -- SAR_KkSTEPj (R354)
  ⟨0xF18019, [(16, 4)], 0, 0x2000FF, 0xC00000, 0, 0x00FF00, 0, 0, 0⟩, -- SAR_KkSTAT (R354)
  ⟨0xF1801A, [(16, 4)], 0, 0xFFFFFF, 0, 0, 0, 0, 0, 0⟩, -- SAR_KkCHK (R354)
  ⟨0xF18080, [(16, 12)], 0x000001, 0, 0, 0, 0, 0xE000FF, 0, 0⟩, -- SAR_INnCFG (R354)
  ⟨0xF18081, [(16, 12)], 0, 0, 0, 0, 0, 0xFFFFFF, 0, 0⟩, -- SAR_INnOFS (R354)
  ⟨0xF18082, [(16, 12)], 0x400000, 0, 0, 0, 0, 0xFFFFFF, 0, 0⟩, -- SAR_INnGAIN (R354)
  ⟨0xF18083, [(16, 12)], 0x800001, 0, 0, 0, 0, 0xFFFFFF, 0, 0⟩, -- SAR_INnWLO (R354)
  ⟨0xF18084, [(16, 12)], 0x7FFFFF, 0, 0, 0, 0, 0xFFFFFF, 0, 0⟩, -- SAR_INnWHI (R354)
  ⟨0xF18086, [(16, 12)], 0x800000, 0xFFFFFF, 0, 0, 0, 0, 0, 0⟩, -- SAR_INnDATA (R354)
  ⟨0xF18087, [(16, 12)], 0, 0xFFFFFF, 0, 0, 0, 0, 0, 0⟩, -- SAR_INnQUAL (R354)
  ⟨0xF18088, [(16, 12)], 0, 0xFFFFFF, 0, 0, 0, 0, 0, 0⟩, -- SAR_INnTIME (R354)
  ⟨0xF18089, [(16, 12)], 0, 0x600000, 0x800000, 0, 0x0000FF, 0, 0, 0⟩] -- SAR_INnSTAT (R354)

/-- Register groups of block pulseCond (R40). -/
def pulseCondRegs : List RegGroup := [
  ⟨0xF1C040, [(16, 8)], 0x000A00, 0, 0, 0, 0, 0xFEFFFF, 0, 0⟩, -- PULSE_INnCFG (R355)
  ⟨0xF1C041, [(16, 8)], 0x012710, 0, 0, 0, 0, 0xFFFFFF, 0, 0⟩, -- PULSE_INnHYG (R355)
  ⟨0xF1C042, [(16, 8)], 0x800001, 0, 0, 0, 0, 0xFFFFFF, 0, 0⟩, -- PULSE_INnWLO (R355)
  ⟨0xF1C043, [(16, 8)], 0x7FFFFF, 0, 0, 0, 0, 0xFFFFFF, 0, 0⟩, -- PULSE_INnWHI (R355)
  ⟨0xF1C044, [(16, 8)], 0x800000, 0xFFFFFF, 0, 0, 0, 0, 0, 0⟩, -- PULSE_INnDATA (R355)
  ⟨0xF1C045, [(16, 8)], 0, 0xFFFFFF, 0, 0, 0, 0, 0, 0⟩, -- PULSE_INnQUAL (R355)
  ⟨0xF1C046, [(16, 8)], 0, 0xFFFFFF, 0, 0, 0, 0, 0, 0⟩, -- PULSE_INnTIME (R355)
  ⟨0xF1C047, [(16, 8)], 0, 0, 0, 0, 0xFFFFFF, 0, 0, 0⟩, -- PULSE_INnCOUNT (R355)
  ⟨0xF1C048, [(16, 8)], 0, 0x380000, 0xC00000, 0, 0x0000FF, 0, 0, 0⟩, -- PULSE_INnSTAT (R355)
  ⟨0xF1D000, [(16, 4)], 0x00000F, 0, 0, 0, 0, 0xFF80FF, 0, 0⟩, -- COND_PkCFG (R355)
  ⟨0xF1D001, [(16, 4)], 0x400000, 0, 0, 0, 0, 0xFFFFFF, 0, 0⟩, -- COND_PkGAIN (R355)
  ⟨0xF1D002, [(16, 4)], 0x010000, 0, 0, 0, 0, 0xFFFFFF, 0, 0⟩, -- COND_PkHYG (R355)
  ⟨0xF1D003, [(16, 4)], 0x800001, 0, 0, 0, 0, 0xFFFFFF, 0, 0⟩, -- COND_PkWLO (R355)
  ⟨0xF1D004, [(16, 4)], 0x7FFFFF, 0, 0, 0, 0, 0xFFFFFF, 0, 0⟩, -- COND_PkWHI (R355)
  ⟨0xF1D005, [(16, 4)], 0x800000, 0xFFFFFF, 0, 0, 0, 0, 0, 0⟩, -- COND_PkDATA (R355)
  ⟨0xF1D006, [(16, 4)], 0, 0xFFFFFF, 0, 0, 0, 0, 0, 0⟩, -- COND_PkQUAL (R355)
  ⟨0xF1D007, [(16, 4)], 0, 0xFFFFFF, 0, 0, 0, 0, 0, 0⟩, -- COND_PkTIME (R355)
  ⟨0xF1D008, [(16, 4)], 0, 0x1C0000, 0xE00000, 0, 0x0000FF, 0, 0, 0⟩] -- COND_PkSTAT (R355)

/-- Register groups of block bridge (R40). -/
def bridgeRegs : List RegGroup := [
  ⟨0xF20000, [], 0, 0, 0, 0, 0, 0x80000F, 0, 0⟩, -- BR_CTL (R399)
  ⟨0xF20001, [], 0, 0, 0, 0, 0, 0, 0, 0x00000F⟩, -- BR_SYNC (R399)
  ⟨0xF20002, [], 0, 0x400000, 0x800000, 0, 0, 0, 0, 0⟩, -- BR_VGDSTAT (R399)
  ⟨0xF20040, [(32, 4)], 0x001F40, 0, 0, 0, 0, 0xF8FFFF, 0, 0⟩, -- BR_bCFG (R399)
  ⟨0xF20041, [(32, 4)], 0x000050, 0, 0, 0, 0, 0x0007FF, 0, 0⟩, -- BR_bDT (R399)
  ⟨0xF20042, [(32, 4)], 0x00FFFF, 0, 0, 0, 0, 0x00FFFF, 0, 0⟩, -- BR_bTRGA (R399)
  ⟨0xF20043, [(32, 4)], 0x00FFFF, 0, 0, 0, 0, 0x00FFFF, 0, 0⟩, -- BR_bTRGB (R399)
  ⟨0xF20044, [(32, 4)], 0x0020FA, 0, 0, 0, 0, 0x00FFFF, 0, 0⟩, -- BR_bOC (R399)
  ⟨0xF20045, [(32, 4)], 0, 0x470007, 0xB80000, 0, 0x00FF00, 0, 0, 0⟩, -- BR_bSTAT (R399)
  ⟨0xF20046, [(32, 4), (1, 3)], 0, 0x00FFFF, 0, 0, 0, 0, 0, 0⟩] -- BR_bONp (R399)

/-- Register groups of block sol (R40). -/
def solRegs : List RegGroup := [
  ⟨0xF24000, [], 0, 0, 0, 0, 0, 0x00FFFF, 0, 0⟩, -- SOL_CTL (R400)
  ⟨0xF24001, [], 0, 0xFF0000, 0, 0, 0x00FFFF, 0, 0, 0⟩, -- SOL_SEQ (R400)
  ⟨0xF24002, [], 0, 0, 0, 0, 0xFFFFFF, 0, 0, 0⟩, -- SOL_DLYCNT (R400)
  ⟨0xF24040, [(16, 16)], 0x405000, 0, 0, 0, 0, 0xF07F00, 0, 0⟩, -- SOL_cCFG (R400)
  ⟨0xF24041, [(16, 16)], 0x0007D0, 0, 0, 0, 0, 0x003FFF, 0, 0⟩, -- SOL_cTPK (R400)
  ⟨0xF24042, [(16, 16)], 0, 0x3007FF, 0xC80000, 0, 0, 0, 0, 0⟩, -- SOL_cSTAT (R400)
  ⟨0xF24043, [(16, 16)], 0, 0x00FFFF, 0, 0, 0, 0, 0, 0⟩] -- SOL_cDLY (R400)

/-- Register groups of block ssr (R40). -/
def ssrRegs : List RegGroup := [
  ⟨0xF26000, [], 0, 0, 0, 0, 0, 0x0000FF, 0, 0⟩, -- SSR_CTL (R401)
  ⟨0xF26001, [(1, 2)], 0x00A000, 0, 0, 0, 0, 0x8FFFFF, 0, 0⟩, -- SSR_ZCkCFG (R401)
  ⟨0xF26003, [(1, 2)], 0x800000, 0x80FFFF, 0x400000, 0, 0, 0, 0, 0⟩, -- SSR_ZCkSTAT (R401)
  ⟨0xF26010, [(8, 8)], 0x00000A, 0, 0, 0, 0, 0xE0007F, 0, 0⟩, -- SSR_oCFG (R401)
  ⟨0xF26011, [(8, 8)], 0, 0x60FFFF, 0x800000, 0, 0, 0, 0, 0⟩] -- SSR_oSTAT (R401)

/-- Register groups of block clasp (R40). -/
def claspRegs : List RegGroup := [
  ⟨0xF28000, [], 0, 0xC00000, 0, 0, 0, 0, 0, 0x000001⟩, -- CL_BANK (R402)
  ⟨0xF28001, [], 0, 0, 0, 0, 0, 0xFFFFFF, 0, 0⟩, -- CL_ARM0 (R402)
  ⟨0xF28002, [], 0, 0, 0, 0, 0, 0x000FFF, 0, 0⟩, -- CL_ARM1 (R402)
  ⟨0xF28003, [], 0, 0, 0x00FF00, 0, 0, 0x0000FF, 0, 0⟩, -- CL_HOLD (R402)
  ⟨0xF28004, [], 0, 0x000007, 0, 0, 0, 0, 0, 0⟩, -- CL_SHED (R402)
  ⟨0xF28005, [], 0, 0xFFFFFF, 0, 0, 0, 0, 0, 0⟩, -- CL_RTRIP0 (R402)
  ⟨0xF28006, [], 0, 0xFFFFFF, 0, 0, 0, 0, 0, 0⟩, -- CL_RTRIP1 (R402)
  ⟨0xF28007, [], 0, 0, 0xFFFFFF, 0, 0, 0, 0, 0⟩, -- CL_RLAT0 (R402)
  ⟨0xF28008, [], 0, 0, 0xFFFFFF, 0, 0, 0, 0, 0⟩, -- CL_RLAT1 (R402)
  ⟨0xF28009, [], 0, 0x0001FF, 0, 0, 0, 0, 0, 0⟩, -- CL_GCNT (R402)
  ⟨0xF2800A, [], 0, 0, 0, 0, 0, 0x00003F, 0, 0⟩, -- CL_KOUT (R402)
  ⟨0xF2800B, [], 0, 0, 0, 0, 0, 0xFFFFFF, 0, 0⟩, -- CL_KVAL (R402)
  ⟨0xF2800C, [], 0, 0, 0, 0, 0xFFFFFF, 0, 0, 0⟩, -- CL_REFCNT (R402)
  ⟨0xF2800D, [], 0, 0, 0, 0, 0xFFFFFF, 0, 0, 0⟩, -- CL_LIMCNT (R402)
  ⟨0xF2800E, [], 0, 0, 0, 0, 0xFFFFFF, 0, 0, 0⟩, -- CL_WREFCNT (R402)
  ⟨0xF2800F, [], 0, 0x000007, 0, 0, 0, 0, 0, 0⟩, -- CL_LOGHEAD (R402)
  ⟨0xF28010, [(1, 8)], 0x000032, 0, 0, 0, 0, 0x80FFFF, 0, 0⟩, -- CL_HGRPj (R402)
  ⟨0xF28020, [(2, 8)], 0, 0xFFFC3F, 0, 0, 0, 0, 0, 0⟩, -- CL_LOGAi (R402)
  ⟨0xF28021, [(2, 8)], 0, 0xFFFFFF, 0, 0, 0, 0, 0, 0⟩, -- CL_LOGBi (R402)
  ⟨0xF28040, [(1, 64)], 0, 0, 0, 0, 0, 0xBF01FF, 0, 0⟩, -- CL_INi (R402)
  ⟨0xF28100, [(4, 36)], 0, 0xFFFFFF, 0, 0, 0, 0, 0, 0⟩, -- CL_oVAL (R402)
  ⟨0xF28101, [(4, 36)], 0, 0xFFFFFF, 0, 0, 0, 0, 0, 0⟩, -- CL_oTGT (R402)
  ⟨0xF28102, [(4, 36)], 0, 0xFC03FF, 0, 0, 0, 0, 0, 0⟩, -- CL_oSTAT (R402)
  ⟨0xF28103, [(4, 36)], 0, 0xFFFFFF, 0, 0, 0, 0, 0, 0⟩, -- CL_oEINT (R402)
  ⟨0xF2C000, [(1, 7168)], 0, 0, 0, 0, 0, 0xFFFFFF, 0, 0⟩] -- CL_TABw (R356)

/-- Register groups of block eth (R40). -/
def ethRegs : List RegGroup := [
  ⟨0xF30000, [], 0x0D0000, 0, 0, 0, 0, 0xFFFFFF, 0, 0⟩, -- ETH_CTL (R458)
  ⟨0xF30001, [(1, 2)], 0, 0, 0, 0, 0, 0xFFFFFF, 0, 0⟩, -- ETH_MACw (R458)
  ⟨0xF30004, [(1, 2)], 0, 0, 0, 0, 0, 0xFFFF9F, 0, 0⟩, -- ETH_RBASEd (R458)
  ⟨0xF30006, [], 0, 0xE07FE0, 0, 0, 0, 0, 0, 0x100000⟩, -- ETH_STAT (R458)
  ⟨0xF30007, [], 0, 0, 0, 0, 0, 0xFFF000, 0, 0⟩, -- ETH_MDC (R458)
  ⟨0xF30008, [], 0, 0, 0, 0, 0, 0x00FFFF, 0, 0⟩, -- ETH_MDD (R458)
  ⟨0xF30009, [], 0, 0, 0, 0, 0xFFFFFF, 0, 0, 0⟩] -- ETH_CNT (R458)

/-- Register groups of block can (R40). -/
def canRegs : List RegGroup := [
  ⟨0xF32000, [(4096, 2)], 0x000064, 0, 0, 0, 0, 0xF8FFFF, 0, 0⟩, -- CANc_CTL (R459)
  ⟨0xF32001, [(4096, 2)], 0x03F1F0, 0, 0, 0, 0, 0xFFFFF0, 0, 0⟩, -- CANc_NBT (R459)
  ⟨0xF32002, [(4096, 2)], 0x079E40, 0, 0, 0, 0, 0xFFFFFE, 0, 0⟩, -- CANc_DBT (R459)
  ⟨0xF32004, [(4096, 2)], 0, 0, 0, 0, 0, 0, 0xFFFFFF, 0⟩, -- CANc_FIFO (R459)
  ⟨0xF32005, [(4096, 2)], 0, 0xE0FFFF, 0x1C0000, 0, 0, 0, 0, 0x030000⟩, -- CANc_STAT (R459)
  ⟨0xF32006, [(4096, 2)], 0, 0xFFC000, 0, 0, 0x003FFF, 0, 0, 0⟩, -- CANc_CNT (R459)
  ⟨0xF32040, [(4096, 2), (4, 32)], 0, 0, 0, 0, 0, 0xE003FF, 0, 0⟩, -- CANc_FkCTL (R459)
  ⟨0xF32041, [(4096, 2), (4, 32), (1, 2)], 0, 0, 0, 0, 0, 0xFFFFFF, 0, 0⟩] -- CANc_FkIDw (R459)

/-- Register groups of block uart (R40). -/
def uartRegs : List RegGroup := [
  ⟨0xF34000, [(2048, 4)], 0x000820, 0, 0, 0, 0, 0xFFFFFF, 0, 0⟩, -- UARTu_CTL (R460)
  ⟨0xF34001, [(2048, 4)], 0x800ADA, 0, 0, 0, 0, 0xFBFFFF, 0, 0⟩, -- UARTu_BAUD (R460)
  ⟨0xF34002, [(2048, 4)], 0, 0, 0, 0, 0, 0, 0x0007FF, 0⟩, -- UARTu_DATA (R460)
  ⟨0xF34003, [(2048, 4)], 0x100000, 0x1FFF00, 0xE00000, 0, 0x0000FF, 0, 0, 0⟩, -- UARTu_STAT (R460)
  ⟨0xF34004, [(2048, 4)], 0x000808, 0, 0, 0, 0, 0x00FFFF, 0, 0⟩] -- UARTu_DE (R460)

/-- Register groups of block spi (R40). -/
def spiRegs : List RegGroup := [
  ⟨0xF36000, [(2048, 2)], 0x007431, 0, 0, 0, 0, 0xFFFFFF, 0, 0⟩, -- SPIs_CTL (R461)
  ⟨0xF36001, [(2048, 2)], 0, 0, 0, 0, 0, 0, 0xFFFFFF, 0⟩, -- SPIs_DATA (R461)
  ⟨0xF36002, [(2048, 2)], 0, 0x807C1F, 0x700000, 0, 0, 0, 0, 0x080000⟩] -- SPIs_STAT (R461)

/-- Register groups of block i2c (R40). -/
def i2cRegs : List RegGroup := [
  ⟨0xF37000, [(1024, 2)], 0x193228, 0, 0, 0, 0, 0xFFFFFF, 0, 0⟩, -- I2Cc_CTL (R462)
  ⟨0xF37001, [(1024, 2)], 0, 0, 0, 0, 0, 0, 0x0007FF, 0⟩, -- I2Cc_PORT (R462)
  ⟨0xF37002, [(1024, 2)], 0, 0xC003FF, 0x3C0000, 0, 0, 0, 0, 0⟩, -- I2Cc_STAT (R462)
  ⟨0xF37800, [], 0x000019, 0, 0, 0, 0, 0xDFC0FF, 0, 0⟩, -- I2CT_CFG (R462)
  ⟨0xF37801, [], 0, 0, 0, 0, 0, 0, 0x0001FF, 0⟩, -- I2CT_PORT (R462)
  ⟨0xF37802, [], 0, 0xD000FF, 0x2C0000, 0, 0, 0, 0, 0⟩] -- I2CT_STAT (R462)

/-- Register groups of block usb (R40). -/
def usbRegs : List RegGroup := [
  ⟨0xF38000, [], 0, 0, 0, 0, 0, 0xC0007F, 0, 0⟩, -- USB_CTL (R463)
  ⟨0xF38001, [], 0, 0xF007FF, 0x0C0000, 0, 0, 0, 0, 0⟩, -- USB_STAT (R463)
  ⟨0xF38010, [(1, 8)], 0, 0x020000, 0, 0, 0, 0xFC007F, 0, 0⟩, -- USB_EPeCFG (R463)
  ⟨0xF38100, [(32, 8), (1, 22)], 0, 0, 0, 0, 0, 0xFFFFFF, 0, 0⟩] -- USB_EPeBUFw (R463)

/-- Register groups of block xspi (R40). -/
def xspiRegs : List RegGroup := [
  ⟨0xF39000, [], 0x080C00, 0, 0, 0, 0, 0xFFFFFF, 0, 0⟩, -- XSPI_CTL (R464)
  ⟨0xF39001, [], 0, 0, 0, 0, 0, 0x00FFFF, 0, 0⟩, -- XSPI_BASE (R464)
  ⟨0xF39002, [], 0, 0, 0, 0, 0, 0xFCFFFF, 0, 0⟩, -- XSPI_CMD (R464)
  ⟨0xF39003, [], 0, 0, 0, 0, 0, 0xFFFFFF, 0, 0⟩, -- XSPI_ADDR (R464)
  ⟨0xF39004, [], 0x0507D0, 0, 0, 0, 0, 0xFFEFFF, 0, 0⟩, -- XSPI_POLL (R464)
  ⟨0xF39005, [], 0, 0x800000, 0x600000, 0, 0x000FFF, 0, 0, 0⟩, -- XSPI_STAT (R464)
  ⟨0xF39040, [(1, 64)], 0, 0, 0, 0, 0, 0xFFFFFF, 0, 0⟩] -- XSPI_BUFw (R464)

/-- Register groups of block crypt (R40). -/
def cryptRegs : List RegGroup := [
  ⟨0xF3A000, [], 0, 0, 0, 0, 0, 0x9E03FF, 0, 0⟩, -- CRYPT_OP (R465)
  ⟨0xF3A001, [], 0, 0xC00000, 0x300000, 0, 0x0000FF, 0, 0, 0⟩, -- CRYPT_STAT (R465)
  ⟨0xF3A004, [(1, 4)], 0, 0, 0, 0, 0, 0xFFFFFF, 0, 0⟩, -- CRYPT_ARGw (R465)
  ⟨0xF3A010, [(1, 11)], 0, 0, 0, 0, 0, 0, 0, 0xFFFFFF⟩, -- CRYPT_KEYw (R465)
  ⟨0xF3A020, [(1, 21)], 0, 0, 0, 0, 0, 0xFFFFFF, 0, 0⟩, -- CRYPT_PARw (R465)
  ⟨0xF3B000, [], 0, 0xFFFFFF, 0, 0, 0, 0, 0, 0⟩, -- CRYPT_RNG (R465)
  ⟨0xF3B001, [], 0, 0xE03F00, 0, 0, 0x0000FF, 0, 0, 0⟩] -- CRYPT_RNGSTAT (R465)

/-- Register groups of block chaden (R40). -/
def chadenRegs : List RegGroup := [
  ⟨0xF3C000, [], 0x00140A, 0, 0, 0, 0, 0xC0FFFF, 0, 0x200000⟩, -- CHN_CTL (R501)
  ⟨0xF3C001, [], 0, 0xFF03FF, 0, 0, 0, 0, 0, 0⟩, -- CHN_STAT (R501)
  ⟨0xF3C002, [], 0, 0xFFFFFF, 0, 0, 0, 0, 0, 0⟩, -- CHN_SEQ (R501)
  ⟨0xF3C003, [], 0, 0, 0, 0, 0, 0, 0x0000FF, 0⟩, -- CHN_DRAIN (R501)
  ⟨0xF3C004, [(1, 2)], 0, 0xA00000, 0x400000, 0, 0x00FFFF, 0, 0, 0⟩, -- CHN_PpSTAT (R501)
  ⟨0xF3C006, [], 0x800000, 0, 0, 0, 0, 0x800000, 0, 0⟩, -- CHN_TCTL (R501)
  ⟨0xF3C007, [], 0x080000, 0xAEFFFF, 0x500000, 0, 0, 0, 0, 0⟩, -- CHN_TSTAT (R501)
  ⟨0xF3C008, [], 0, 0x00FFFF, 0, 0, 0, 0, 0, 0⟩, -- CHN_TDLY (R501)
  ⟨0xF3C009, [], 0, 0, 0, 0, 0x3FC000, 0xC003FF, 0, 0⟩, -- CHN_FCTL (R501)
  ⟨0xF3C00A, [], 0, 0x00001F, 0, 0, 0, 0, 0, 0⟩, -- CHN_FLHEAD (R501)
  ⟨0xF3C00B, [], 0, 0, 0, 0, 0xFFFFFF, 0, 0, 0⟩, -- CHN_FLCNT (R501)
  ⟨0xF3C00C, [], 0, 0, 0, 0, 0xFFFFFF, 0, 0, 0⟩, -- CHN_EMRG (R501)
  ⟨0xF3C00D, [], 0, 0x0001FF, 0, 0, 0, 0, 0, 0⟩, -- CHN_OUTST (R501)
  ⟨0xF3C010, [(1, 8)], 0, 0, 0, 0, 0, 0x8003FF, 0, 0⟩, -- CHN_PWFk (R501)
  ⟨0xF3C020, [(1, 16)], 0, 0, 0, 0, 0, 0x807FFF, 0, 0⟩, -- CHN_EOUTk (R501)
  ⟨0xF3C030, [(1, 16)], 0, 0, 0, 0, 0, 0x8001FF, 0, 0⟩, -- CHN_EINk (R501)
  ⟨0xF3C108, [(8, 31)], 0, 0xE01FFF, 0, 0, 0, 0, 0, 0⟩, -- CHN_WnSTAT (R501)
  ⟨0xF3C109, [(8, 31)], 0, 0xFFFFFF, 0, 0, 0, 0, 0, 0⟩, -- CHN_WnID (R501)
  ⟨0xF3C10C, [(8, 31), (1, 4)], 0, 0, 0, 0, 0, 0x0003FF, 0, 0⟩, -- CHN_WnMAPq (R501)
  ⟨0xF3C200, [(4, 32)], 0, 0xFFFFFF, 0, 0, 0, 0, 0, 0⟩, -- CHN_FLAi (R501)
  ⟨0xF3C201, [(4, 32)], 0, 0xFFFFFF, 0, 0, 0, 0, 0, 0⟩, -- CHN_FLBi (R501)
  ⟨0xF3C202, [(4, 32)], 0, 0xFF83FF, 0, 0, 0, 0, 0, 0⟩, -- CHN_FLCi (R501)
  ⟨0xF3C300, [(4, 8)], 0, 0, 0, 0, 0, 0xFFFC00, 0, 0⟩, -- CHN_FRkBASE (R501)
  ⟨0xF3C301, [(4, 8)], 0, 0, 0, 0, 0, 0xFFFC00, 0, 0⟩, -- CHN_FRkLIM (R501)
  ⟨0xF3C302, [(4, 8)], 0, 0, 0, 0, 0, 0xE003FF, 0, 0⟩] -- CHN_FRkCTL (R501)

/-- Register groups of block memc (R40). -/
def memcRegs : List RegGroup := [
  ⟨0xF40000, [], 0x000010, 0, 0, 0, 0, 0x00003F, 0, 0⟩, -- MEMC_CTL (R230)
  ⟨0xF40001, [], 0x000190, 0, 0, 0, 0, 0x000FFF, 0, 0⟩, -- MEMC_PROMOTE (R230)
  ⟨0xF40002, [], 0, 0, 0, 0, 0xFFFFFF, 0, 0, 0⟩, -- MEMC_PROMOCNT (R230)
  ⟨0xF40003, [], 0, 0xE03FFF, 0, 0, 0, 0, 0, 0⟩, -- MEMC_FLOOR (R230)
  ⟨0xF40004, [], 0, 0x003FFF, 0, 0, 0, 0, 0, 0⟩, -- MEMC_RLIM (R230)
  ⟨0xF40005, [], 0, 0x003FFF, 0, 0, 0, 0, 0, 0⟩, -- MEMC_RSUM (R230)
  ⟨0xF40006, [], 0, 0, 0, 0, 0, 0x0003FF, 0, 0⟩, -- MEMC_RSEL (R230)
  ⟨0xF40007, [], 0, 0xC00000, 0, 0, 0, 0x01FFFF, 0, 0⟩, -- MEMC_RENT (R230)
  ⟨0xF40008, [], 0, 0xC03FFF, 0, 0, 0, 0, 0, 0⟩, -- MEMC_RSTAT (R230)
  ⟨0xF40009, [], 0, 0, 0, 0, 0xFFFFFF, 0, 0, 0⟩, -- MEMC_OVF (R230)
  ⟨0xF4000A, [], 0, 0, 0, 0, 0xFFFFFF, 0, 0, 0⟩, -- MEMC_HOTCNT (R230)
  ⟨0xF4000B, [], 0, 0x00001F, 0, 0, 0, 0, 0, 0⟩, -- MEMC_HOTBANK (R230)
  ⟨0xF4000C, [], 0, 0, 0, 0, 0xFFFFFF, 0, 0, 0⟩, -- MEMC_DEMCNT (R230)
  ⟨0xF4000D, [], 0, 0x00000F, 0, 0, 0, 0, 0, 0⟩, -- MEMC_DEMHEAD (R230)
  ⟨0xF40010, [(1, 16)], 0, 0xF1C3FF, 0, 0, 0, 0, 0, 0⟩, -- MEMC_DEMLOGi (R230)
  ⟨0xF40020, [], 0, 0, 0, 0, 0, 0x000003, 0, 0⟩, -- MEMC_MRPROT (R230)
  ⟨0xF40021, [], 0x800000, 0x80001F, 0, 0, 0, 0, 0, 0⟩, -- MEMC_MRSTAT (R230)
  ⟨0xF40022, [], 0, 0, 0, 0, 0, 0, 0, 0⟩, -- MEMC_MRMARK (R230)
  ⟨0xF40023, [], 0, 0, 0, 0, 0xFFFFFF, 0, 0, 0⟩, -- MEMC_MRFAIL (R230)
  ⟨0xF40024, [], 0, 0xFFFFFF, 0, 0, 0, 0, 0, 0⟩, -- MEMC_MRFADDR (R230)
  ⟨0xF40028, [(1, 5)], 0, 0, 0, 0, 0xFFFFFF, 0, 0, 0⟩, -- MEMC_ECNTr (R230)
  ⟨0xF4002D, [], 0, 0, 0, 0, 0xFFFFFF, 0, 0, 0⟩, -- MEMC_TCPCNT (R230)
  ⟨0xF4002E, [], 0, 0x000007, 0, 0, 0, 0, 0, 0⟩, -- MEMC_ELHEAD (R230)
  ⟨0xF40030, [(4, 8)], 0, 0xFFFFFF, 0, 0, 0, 0, 0, 0⟩, -- MEMC_ELADDRi (R230)
  ⟨0xF40031, [(4, 8)], 0, 0xFFFF3F, 0, 0, 0, 0, 0, 0⟩, -- MEMC_ELINFOi (R230)
  ⟨0xF40032, [(4, 8)], 0, 0xFFFFFF, 0, 0, 0, 0, 0, 0⟩] -- MEMC_ELTIMEi (R230)

/-- Register groups of block bezel (R40). -/
def bezelRegs : List RegGroup := [
  ⟨0xF41000, [], 0, 0, 0, 0, 0, 0xF003FF, 0, 0⟩, -- BZ_CMD (R266)
  ⟨0xF41001, [], 0, 0xF003FF, 0, 0, 0, 0, 0, 0⟩, -- BZ_CSTAT (R266)
  ⟨0xF41002, [], 0, 0, 0, 0, 0, 0xFFFFFF, 0, 0⟩, -- BZ_HMADDR (R266)
  ⟨0xF41003, [], 0, 0xFDC3FF, 0, 0, 0, 0x020000, 0, 0⟩, -- BZ_HMSTAT (R266)
  ⟨0xF41004, [], 0, 0xFFFFFF, 0, 0, 0, 0, 0, 0⟩, -- BZ_HMVER (R266)
  ⟨0xF41005, [], 0, 0, 0, 0, 0, 0x0003FF, 0, 0⟩, -- BZ_DSEL (R266)
  ⟨0xF41006, [], 0, 0x000001, 0, 0, 0, 0x000002, 0, 0⟩, -- BZ_KGEN (R266)
  ⟨0xF41007, [], 0x000400, 0x170000, 0, 0, 0, 0x000707, 0, 0⟩, -- BZ_SHED (R266)
  ⟨0xF41008, [], 0, 0, 0, 0, 0xFFFFFF, 0, 0, 0⟩, -- BZ_PROMOCNT (R266)
  ⟨0xF41009, [], 0, 0, 0, 0, 0xFFFFFF, 0, 0, 0⟩, -- BZ_DENYCNT (R266)
  ⟨0xF4100A, [], 0, 0, 0, 0, 0xFFFFFF, 0, 0, 0⟩, -- BZ_KSTOPCNT (R266)
  ⟨0xF4100B, [], 0, 0x000007, 0, 0, 0, 0, 0, 0⟩, -- BZ_DLHEAD (R266)
  ⟨0xF41010, [(2, 8)], 0, 0xFFFFFF, 0, 0, 0, 0, 0, 0⟩, -- BZ_DLAi (R266)
  ⟨0xF41011, [(2, 8)], 0, 0xFFFFFF, 0, 0, 0, 0, 0, 0⟩, -- BZ_DLBi (R266)
  ⟨0xF41020, [], 0, 0, 0, 0, 0, 0x0003FF, 0, 0⟩, -- BZ_PRCID (R266)
  ⟨0xF41021, [], 0, 0, 0, 0, 0, 0xFFFFFF, 0, 0⟩, -- BZ_PRVA (R266)
  ⟨0xF41022, [], 0, 0xFF000F, 0, 0, 0, 0, 0, 0⟩, -- BZ_PRSTAT (R266)
  ⟨0xF41023, [], 0, 0xFFFFFF, 0, 0, 0, 0, 0, 0⟩, -- BZ_PRPA (R266)
  ⟨0xF41030, [], 0, 0xFFFFFF, 0, 0, 0, 0, 0, 0⟩, -- BZ_SREM (R266)
  ⟨0xF41031, [], 0, 0xFFFFFF, 0, 0, 0, 0, 0, 0⟩, -- BZ_SUSED (R266)
  ⟨0xF41032, [], 0, 0x00FFFF, 0, 0, 0, 0, 0, 0⟩, -- BZ_SWAIT (R266)
  ⟨0xF41033, [], 0, 0x0003FF, 0, 0, 0, 0, 0, 0⟩, -- BZ_STHR (R266)
  ⟨0xF41034, [], 0, 0, 0, 0, 0xFFFFFF, 0, 0, 0⟩, -- BZ_SPROMO (R266)
  ⟨0xF41040, [(1, 32)], 0, 0, 0, 0, 0, 0xFFFFFF, 0, 0⟩, -- BZ_Dw (R266)
  ⟨0xF41200, [(1, 512)], 0x800000, 0xFF83FF, 0, 0, 0, 0, 0, 0⟩, -- BZ_TBINDk (R266)
  ⟨0xF41400, [(1, 512)], 0x800000, 0, 0, 0, 0, 0xC003FF, 0, 0⟩, -- BZ_TSTARTk (R266)
  ⟨0xF41600, [(32, 8), (1, 22)], 0, 0, 0, 0, 0, 0xFFFFFF, 0, 0⟩, -- BZ_KjKEYw (R266)
  ⟨0xF41616, [(32, 8)], 0, 0, 0, 0, 0, 0xC00000, 0, 0⟩, -- BZ_KjCTL (R266)
  ⟨0xF41617, [(32, 8)], 0, 0, 0, 0, 0, 0xFFFFFF, 0, 0⟩, -- BZ_KjMINVER (R266)
  ⟨0xF41800, [], 0x800000, 0x803FFF, 0, 0, 0, 0, 0, 0⟩, -- BZ_SELFID (R266)
  ⟨0xF41801, [], 0, 0xFFFFFF, 0, 0, 0, 0, 0, 0⟩] -- BZ_SELFREM (R266)

/-- Register groups of block strand (R40). -/
def strandRegs : List RegGroup := [
  ⟨0xF42000, [(2, 512)], 0, 0, 0, 0, 0, 0, 0xFFFFFF, 0⟩, -- STR_sPORT (R289)
  ⟨0xF42400, [(4, 512)], 0, 0, 0, 0, 0, 0xFFFF00, 0, 0⟩, -- STR_sCFG (R289)
  ⟨0xF42401, [(4, 512)], 0, 0x801FFF, 0x600000, 0, 0, 0, 0, 0⟩, -- STR_sSTAT (R289)
  ⟨0xF42402, [(4, 512)], 0, 0x003C00, 0, 0, 0, 0x0003FF, 0, 0⟩, -- STR_sEP (R289)
  ⟨0xF42403, [(4, 512)], 0, 0, 0, 0, 0xFFFFFF, 0, 0, 0⟩, -- STR_sDROP (R289)
  ⟨0xF43000, [], 0, 0, 0, 0, 0xFFFFFF, 0, 0, 0⟩, -- STR_EPDROP (R289)
  ⟨0xF43001, [], 0, 0x0001FF, 0, 0, 0, 0, 0, 0⟩, -- STR_EPLAST (R289)
  ⟨0xF43100, [(1, 64)], 0, 0, 0, 0, 0, 0xFF81FF, 0, 0⟩, -- STR_WwCFG (R289)
  ⟨0xF43200, [(4, 64)], 0, 0, 0, 0, 0, 0xFFFFFE, 0, 0⟩, -- STR_CKuA0 (R289)
  ⟨0xF43201, [(4, 64)], 0, 0, 0, 0, 0, 0xFFFFFE, 0, 0⟩, -- STR_CKuA1 (R289)
  ⟨0xF43202, [(4, 64)], 0, 0, 0, 0, 0, 0x8001FF, 0, 0⟩, -- STR_CKuCTL (R289)
  ⟨0xF43203, [(4, 64)], 0, 0xFFFFFE, 0x000001, 0, 0, 0, 0, 0⟩, -- STR_CKuSTAT (R289)
  ⟨0xF43400, [(2, 70)], 0, 0, 0, 0, 0, 0x8001FF, 0, 0⟩, -- STR_BQqCFG (R289)
  ⟨0xF43401, [(2, 70)], 0, 0x80003F, 0, 0, 0x00FF00, 0, 0, 0⟩] -- STR_BQqSTAT (R289)

/-- Register groups of block loupe (R40). -/
def loupeRegs : List RegGroup := [
  ⟨0xF4F001, [], 0, 0xFFFFFF, 0, 0, 0, 0, 0, 0⟩, -- LP_MAILIN (R606)
  ⟨0xF4F002, [], 0, 0, 0, 0, 0, 0xFFFFFF, 0, 0⟩, -- LP_MAILOUT (R606)
  ⟨0xF4F003, [], 0, 0, 0, 0, 0xFFFFFF, 0, 0, 0⟩] -- LP_FAILCNT (R606)

/-- Register groups of block engine (R40). -/
def engineRegs : List RegGroup := [
  ⟨0xF80000, [(2048, 128)], 0, 0x00037F, 0, 0, 0, 0, 0, 0⟩, -- ENG_ID (R82)
  ⟨0xF80001, [(2048, 128)], 0, 0, 0, 0, 0, 0x00FF0F, 0, 0⟩, -- ENG_TCTL (R82)
  ⟨0xF80002, [(2048, 128)], 0, 0x000FFF, 0, 0, 0, 0, 0, 0⟩, -- ENG_TSTAT (R82)
  ⟨0xF80003, [(2048, 128)], 0, 0, 0, 0, 0, 0x000033, 0, 0⟩, -- ENG_LBCTL (R82)
  ⟨0xF80004, [(2048, 128)], 0, 0x3F00B1, 0, 0, 0, 0, 0, 0⟩, -- ENG_LBSTAT (R82)
  ⟨0xF80005, [(2048, 128)], 0, 0xFFFFFF, 0, 0, 0, 0, 0, 0⟩, -- ENG_LBS (R82)
  ⟨0xF80006, [(2048, 128)], 0, 0xFFFFFF, 0, 0, 0, 0, 0, 0⟩, -- ENG_LBE (R82)
  ⟨0xF80007, [(2048, 128)], 0, 0, 0, 0, 0, 0x00007F, 0, 0⟩, -- ENG_STALL (R82)
  ⟨0xF80008, [(2048, 128)], 0, 0x00FE1F, 0x030000, 0, 0, 0, 0, 0⟩, -- ENG_PARSTAT (R82)
  ⟨0xF80010, [(2048, 128), (1, 4)], 0, 0, 0, 0, 0, 0xFFFFFF, 0, 0⟩, -- ENG_TnSTART (R82)
  ⟨0xF80014, [(2048, 128), (1, 4)], 0, 0, 0, 0, 0xFFFFFF, 0, 0, 0⟩, -- ENG_TnISS (R82)
  ⟨0xF80018, [(2048, 128)], 0, 0, 0, 0, 0xFFFFFF, 0, 0, 0⟩, -- ENG_PROMO (R82)
  ⟨0xF80019, [(2048, 128)], 0, 0, 0, 0, 0xFFFFFF, 0, 0, 0⟩, -- ENG_FPROMO (R82)
  ⟨0xF8001A, [(2048, 128)], 0, 0, 0, 0, 0xFFFFFF, 0, 0, 0⟩, -- ENG_LBFILL (R82)
  ⟨0xF8001B, [(2048, 128)], 0, 0, 0, 0, 0xFFFFFF, 0, 0, 0⟩, -- ENG_PARCNT (R82)
  ⟨0xF8001C, [(2048, 128)], 0, 0, 0, 0, 0xFFFFFF, 0, 0, 0⟩, -- ENG_RPLDROP (R82)
  ⟨0xF80020, [(2048, 128), (1, 4)], 0, 0x00003F, 0, 0, 0, 0, 0, 0⟩, -- ENG_TnRPL (R82)
  ⟨0xF80400, [(2048, 128)], 0, 0, 0, 0x000001, 0, 0, 0, 0⟩, -- EVI_CTL (R189)
  ⟨0xF80401, [(2048, 128)], 0, 0, 0x000002, 0, 0, 0, 0x000001, 0⟩, -- EVI_HOLD (R189)
  ⟨0xF80402, [(2048, 128)], 0, 0, 0, 0, 0, 0x000F3F, 0, 0⟩, -- EVI_EOI (R189)
  ⟨0xF80403, [(2048, 128)], 0x000040, 0x00007F, 0, 0, 0, 0, 0, 0⟩, -- EVI_CLAIM (R189)
  ⟨0xF80404, [(2048, 128)], 0, 0x7FFFFF, 0x800000, 0, 0, 0, 0, 0⟩, -- EVI_SFSTAT (R189)
  ⟨0xF80405, [(2048, 128)], 0, 0x307C00, 0x800000, 0, 0x0000FF, 0, 0, 0⟩, -- EVI_TFSTAT (R189)
  ⟨0xF80406, [(2048, 128)], 0, 0xFFFFFF, 0, 0, 0, 0, 0, 0⟩, -- EVI_TFADDR (R189)
  ⟨0xF80407, [(2048, 128)], 0, 0, 0, 0, 0xFFFFFF, 0, 0, 0⟩, -- EVI_CNT0 (R189)
  ⟨0xF80408, [(2048, 128)], 0, 0, 0, 0, 0xFFFFFF, 0, 0, 0⟩, -- EVI_CNT1 (R189)
  ⟨0xF8040C, [(2048, 128), (1, 3)], 0xFFFFFF, 0, 0, 0, 0, 0, 0xFFFFFF, 0⟩, -- EVI_MASKk (R189)
  ⟨0xF80410, [(2048, 128), (1, 3)], 0, 0, 0, 0, 0, 0, 0xFFFFFF, 0⟩, -- EVI_PENDk (R189)
  ⟨0xF80414, [(2048, 128), (1, 3)], 0, 0xFFFFFF, 0, 0, 0, 0, 0, 0⟩, -- EVI_ACTk (R189)
  ⟨0xF80420, [(2048, 128), (16, 4)], 0, 0, 0, 0, 0, 0xFFFFFE, 0, 0⟩, -- EVI_TtIVEC (R189)
  ⟨0xF80421, [(2048, 128), (16, 4)], 0, 0, 0, 0, 0, 0xFFFFFE, 0, 0⟩, -- EVI_TtXVEC (R189)
  ⟨0xF80422, [(2048, 128), (16, 4)], 0, 0, 0, 0x00001F, 0, 0, 0, 0⟩, -- EVI_TtBASE (R189)
  ⟨0xF80423, [(2048, 128), (16, 4)], 0, 0x8FFF9F, 0, 0, 0, 0, 0, 0⟩, -- EVI_TtLVL (R189)
  ⟨0xF80424, [(2048, 128), (16, 4)], 0, 0, 0, 0, 0, 0xFFFFFF, 0, 0⟩, -- EVI_TtXPC (R189)
  ⟨0xF80425, [(2048, 128), (16, 4)], 0, 0, 0, 0, 0, 0xFFFFFF, 0, 0⟩, -- EVI_TtXST (R189)
  ⟨0xF80426, [(2048, 128), (16, 4)], 0, 0, 0, 0, 0, 0xFFFFFF, 0, 0⟩, -- EVI_TtXTGT (R189)
  ⟨0xF80427, [(2048, 128), (16, 4)], 0, 0, 0, 0, 0, 0x00FFDF, 0, 0⟩, -- EVI_TtXCAUSE (R189)
  ⟨0xF80428, [(2048, 128), (16, 4)], 0, 0, 0, 0, 0, 0xFFFFFF, 0, 0⟩, -- EVI_TtXADDR (R189)
  ⟨0xF80480, [(2048, 128), (2, 64)], 0, 0, 0, 0, 0, 0x8CF7FF, 0, 0⟩, -- EVI_SsCFG (R189)
  ⟨0xF80481, [(2048, 128), (2, 64)], 0, 0xFF0000, 0, 0, 0, 0x00FFFF, 0, 0⟩] -- EVI_SsCOAL (R189)

/-- The register groups of the block that holds address `a` (R40); none for an address in no block. -/
def groupsAt (a : Nat) : List RegGroup :=
  if 0xF00000 ≤ a ∧ a ≤ 0xF00FFF then sysRegs
  else if 0xF01000 ≤ a ∧ a ≤ 0xF01FFF then pwrRegs
  else if 0xF02000 ≤ a ∧ a ≤ 0xF02FFF then holdRegs
  else if 0xF03000 ≤ a ∧ a ≤ 0xF03FFF then assayRegs
  else if 0xF04000 ≤ a ∧ a ≤ 0xF04FFF then refRegs
  else if 0xF05000 ≤ a ∧ a ≤ 0xF05FFF then timeRegs
  else if 0xF06000 ≤ a ∧ a ≤ 0xF06FFF then evrouteRegs
  else if 0xF07000 ≤ a ∧ a ≤ 0xF07FFF then awuRegs
  else if 0xF10000 ≤ a ∧ a ≤ 0xF13FFF then precRegs
  else if 0xF14000 ≤ a ∧ a ≤ 0xF17FFF then xingRegs
  else if 0xF18000 ≤ a ∧ a ≤ 0xF1BFFF then sarRegs
  else if 0xF1C000 ≤ a ∧ a ≤ 0xF1FFFF then pulseCondRegs
  else if 0xF20000 ≤ a ∧ a ≤ 0xF23FFF then bridgeRegs
  else if 0xF24000 ≤ a ∧ a ≤ 0xF25FFF then solRegs
  else if 0xF26000 ≤ a ∧ a ≤ 0xF27FFF then ssrRegs
  else if 0xF28000 ≤ a ∧ a ≤ 0xF2FFFF then claspRegs
  else if 0xF30000 ≤ a ∧ a ≤ 0xF31FFF then ethRegs
  else if 0xF32000 ≤ a ∧ a ≤ 0xF33FFF then canRegs
  else if 0xF34000 ≤ a ∧ a ≤ 0xF35FFF then uartRegs
  else if 0xF36000 ≤ a ∧ a ≤ 0xF36FFF then spiRegs
  else if 0xF37000 ≤ a ∧ a ≤ 0xF37FFF then i2cRegs
  else if 0xF38000 ≤ a ∧ a ≤ 0xF38FFF then usbRegs
  else if 0xF39000 ≤ a ∧ a ≤ 0xF39FFF then xspiRegs
  else if 0xF3A000 ≤ a ∧ a ≤ 0xF3BFFF then cryptRegs
  else if 0xF3C000 ≤ a ∧ a ≤ 0xF3FFFF then chadenRegs
  else if 0xF40000 ≤ a ∧ a ≤ 0xF40FFF then memcRegs
  else if 0xF41000 ≤ a ∧ a ≤ 0xF41FFF then bezelRegs
  else if 0xF42000 ≤ a ∧ a ≤ 0xF43FFF then strandRegs
  else if 0xF4F000 ≤ a ∧ a ≤ 0xF4FFFF then loupeRegs
  else if 0xF80000 ≤ a ∧ a ≤ 0xFBFFFF then engineRegs
  else []

/-- Address `a` lies in one of the blocks of R40 (the own-engine view apart). -/
def inBlock (a : Nat) : Bool :=
  decide (0xF00000 ≤ a ∧ a ≤ 0xF00FFF) ||
  decide (0xF01000 ≤ a ∧ a ≤ 0xF01FFF) ||
  decide (0xF02000 ≤ a ∧ a ≤ 0xF02FFF) ||
  decide (0xF03000 ≤ a ∧ a ≤ 0xF03FFF) ||
  decide (0xF04000 ≤ a ∧ a ≤ 0xF04FFF) ||
  decide (0xF05000 ≤ a ∧ a ≤ 0xF05FFF) ||
  decide (0xF06000 ≤ a ∧ a ≤ 0xF06FFF) ||
  decide (0xF07000 ≤ a ∧ a ≤ 0xF07FFF) ||
  decide (0xF10000 ≤ a ∧ a ≤ 0xF13FFF) ||
  decide (0xF14000 ≤ a ∧ a ≤ 0xF17FFF) ||
  decide (0xF18000 ≤ a ∧ a ≤ 0xF1BFFF) ||
  decide (0xF1C000 ≤ a ∧ a ≤ 0xF1FFFF) ||
  decide (0xF20000 ≤ a ∧ a ≤ 0xF23FFF) ||
  decide (0xF24000 ≤ a ∧ a ≤ 0xF25FFF) ||
  decide (0xF26000 ≤ a ∧ a ≤ 0xF27FFF) ||
  decide (0xF28000 ≤ a ∧ a ≤ 0xF2FFFF) ||
  decide (0xF30000 ≤ a ∧ a ≤ 0xF31FFF) ||
  decide (0xF32000 ≤ a ∧ a ≤ 0xF33FFF) ||
  decide (0xF34000 ≤ a ∧ a ≤ 0xF35FFF) ||
  decide (0xF36000 ≤ a ∧ a ≤ 0xF36FFF) ||
  decide (0xF37000 ≤ a ∧ a ≤ 0xF37FFF) ||
  decide (0xF38000 ≤ a ∧ a ≤ 0xF38FFF) ||
  decide (0xF39000 ≤ a ∧ a ≤ 0xF39FFF) ||
  decide (0xF3A000 ≤ a ∧ a ≤ 0xF3BFFF) ||
  decide (0xF3C000 ≤ a ∧ a ≤ 0xF3FFFF) ||
  decide (0xF40000 ≤ a ∧ a ≤ 0xF40FFF) ||
  decide (0xF41000 ≤ a ∧ a ≤ 0xF41FFF) ||
  decide (0xF42000 ≤ a ∧ a ≤ 0xF43FFF) ||
  decide (0xF4F000 ≤ a ∧ a ≤ 0xF4FFFF) ||
  decide (0xF80000 ≤ a ∧ a ≤ 0xFBFFFF)

/-- The group of the register at address `a`, where the map has one (R41: any other offset of a block reads 0 and ignores writes). -/
def regGroup (a : Nat) : Option RegGroup := (groupsAt a).find? (fun g => g.hit a)

end Sys2Proof.Machine

namespace Sys2Proof.Machine.Reg

/-- Address of SYS_ID (spec/00_scope.md R15). -/
abbrev SYS_ID : Nat := 0xF00000
abbrev SYS_ID_PART : Fld := ⟨23, 8⟩
abbrev SYS_ID_STEPL : Fld := ⟨7, 4⟩
abbrev SYS_ID_STEPD : Fld := ⟨3, 0⟩
/-- Address of ENG_ID (spec/02_engines.md R82). -/
abbrev ENG_ID (e : Nat) : Nat := 0xF80000 + 2048 * e
abbrev ENG_ID_CURTHR : Fld := ⟨9, 8⟩
abbrev ENG_ID_CLUSTER : Fld := ⟨6, 4⟩
abbrev ENG_ID_INDEX : Fld := ⟨3, 0⟩
/-- Address of ENG_TCTL (spec/02_engines.md R82). -/
abbrev ENG_TCTL (e : Nat) : Nat := 0xF80001 + 2048 * e
abbrev ENG_TCTL_PRIO3 : Fld := ⟨15, 14⟩
abbrev ENG_TCTL_PRIO2 : Fld := ⟨13, 12⟩
abbrev ENG_TCTL_PRIO1 : Fld := ⟨11, 10⟩
abbrev ENG_TCTL_PRIO0 : Fld := ⟨9, 8⟩
abbrev ENG_TCTL_EN : Fld := ⟨3, 0⟩
/-- Address of ENG_TSTAT (spec/02_engines.md R82). -/
abbrev ENG_TSTAT (e : Nat) : Nat := 0xF80002 + 2048 * e
abbrev ENG_TSTAT_ST3 : Fld := ⟨11, 9⟩
abbrev ENG_TSTAT_ST2 : Fld := ⟨8, 6⟩
abbrev ENG_TSTAT_ST1 : Fld := ⟨5, 3⟩
abbrev ENG_TSTAT_ST0 : Fld := ⟨2, 0⟩
/-- Address of ENG_LBCTL (spec/02_engines.md R82). -/
abbrev ENG_LBCTL (e : Nat) : Nat := 0xF80003 + 2048 * e
abbrev ENG_LBCTL_THR : Fld := ⟨5, 4⟩
abbrev ENG_LBCTL_MODE : Fld := ⟨1, 0⟩
/-- Address of ENG_LBSTAT (spec/02_engines.md R82). -/
abbrev ENG_LBSTAT (e : Nat) : Nat := 0xF80004 + 2048 * e
abbrev ENG_LBSTAT_ENTRIES : Fld := ⟨21, 16⟩
abbrev ENG_LBSTAT_DIS : Fld := ⟨7, 7⟩
abbrev ENG_LBSTAT_OWNER : Fld := ⟨5, 4⟩
abbrev ENG_LBSTAT_VALID : Fld := ⟨0, 0⟩
/-- Address of ENG_LBS (spec/02_engines.md R82). -/
abbrev ENG_LBS (e : Nat) : Nat := 0xF80005 + 2048 * e
abbrev ENG_LBS_BS : Fld := ⟨23, 0⟩
/-- Address of ENG_LBE (spec/02_engines.md R82). -/
abbrev ENG_LBE (e : Nat) : Nat := 0xF80006 + 2048 * e
abbrev ENG_LBE_BE : Fld := ⟨23, 0⟩
/-- Address of ENG_STALL (spec/02_engines.md R82). -/
abbrev ENG_STALL (e : Nat) : Nat := 0xF80007 + 2048 * e
abbrev ENG_STALL_STALL_T : Fld := ⟨6, 0⟩
/-- Address of ENG_PARSTAT (spec/02_engines.md R82). -/
abbrev ENG_PARSTAT (e : Nat) : Nat := 0xF80008 + 2048 * e
abbrev ENG_PARSTAT_RF : Fld := ⟨17, 17⟩
abbrev ENG_PARSTAT_LB : Fld := ⟨16, 16⟩
abbrev ENG_PARSTAT_RFTHR : Fld := ⟨15, 14⟩
abbrev ENG_PARSTAT_RFREG : Fld := ⟨13, 9⟩
abbrev ENG_PARSTAT_LBENT : Fld := ⟨4, 0⟩
/-- Address of ENG_TnSTART (spec/02_engines.md R82). -/
abbrev ENG_TnSTART (e n : Nat) : Nat := 0xF80010 + 2048 * e + n
abbrev ENG_TnSTART_START : Fld := ⟨23, 0⟩
/-- Address of ENG_TnISS (spec/02_engines.md R82). -/
abbrev ENG_TnISS (e n : Nat) : Nat := 0xF80014 + 2048 * e + n
abbrev ENG_TnISS_COUNT : Fld := ⟨23, 0⟩
/-- Address of ENG_PROMO (spec/02_engines.md R82). -/
abbrev ENG_PROMO (e : Nat) : Nat := 0xF80018 + 2048 * e
abbrev ENG_PROMO_COUNT : Fld := ⟨23, 0⟩
/-- Address of ENG_FPROMO (spec/02_engines.md R82). -/
abbrev ENG_FPROMO (e : Nat) : Nat := 0xF80019 + 2048 * e
abbrev ENG_FPROMO_COUNT : Fld := ⟨23, 0⟩
/-- Address of ENG_LBFILL (spec/02_engines.md R82). -/
abbrev ENG_LBFILL (e : Nat) : Nat := 0xF8001A + 2048 * e
abbrev ENG_LBFILL_COUNT : Fld := ⟨23, 0⟩
/-- Address of ENG_PARCNT (spec/02_engines.md R82). -/
abbrev ENG_PARCNT (e : Nat) : Nat := 0xF8001B + 2048 * e
abbrev ENG_PARCNT_RF : Fld := ⟨23, 12⟩
abbrev ENG_PARCNT_LB : Fld := ⟨11, 0⟩
/-- Address of ENG_RPLDROP (spec/02_engines.md R82). -/
abbrev ENG_RPLDROP (e : Nat) : Nat := 0xF8001C + 2048 * e
abbrev ENG_RPLDROP_COUNT : Fld := ⟨23, 0⟩
/-- Address of ENG_TnRPL (spec/02_engines.md R82). -/
abbrev ENG_TnRPL (e n : Nat) : Nat := 0xF80020 + 2048 * e + n
abbrev ENG_TnRPL_AWAIT : Fld := ⟨5, 5⟩
abbrev ENG_TnRPL_COUNT : Fld := ⟨4, 0⟩
/-- Address of EVI_CTL (spec/05_events_exceptions.md R189). -/
abbrev EVI_CTL (e : Nat) : Nat := 0xF80400 + 2048 * e
abbrev EVI_CTL_MODE : Fld := ⟨0, 0⟩
/-- Address of EVI_HOLD (spec/05_events_exceptions.md R189). -/
abbrev EVI_HOLD (e : Nat) : Nat := 0xF80401 + 2048 * e
abbrev EVI_HOLD_TO : Fld := ⟨1, 1⟩
abbrev EVI_HOLD_HOLD : Fld := ⟨0, 0⟩
/-- Address of EVI_EOI (spec/05_events_exceptions.md R189). -/
abbrev EVI_EOI (e : Nat) : Nat := 0xF80402 + 2048 * e
abbrev EVI_EOI_PRIO : Fld := ⟨11, 8⟩
abbrev EVI_EOI_SRC : Fld := ⟨5, 0⟩
/-- Address of EVI_CLAIM (spec/05_events_exceptions.md R189). -/
abbrev EVI_CLAIM (e : Nat) : Nat := 0xF80403 + 2048 * e
abbrev EVI_CLAIM_SPUR : Fld := ⟨6, 6⟩
abbrev EVI_CLAIM_SRC : Fld := ⟨5, 0⟩
/-- Address of EVI_SFSTAT (spec/05_events_exceptions.md R189). -/
abbrev EVI_SFSTAT (e : Nat) : Nat := 0xF80404 + 2048 * e
abbrev EVI_SFSTAT_SF : Fld := ⟨23, 23⟩
abbrev EVI_SFSTAT_NOLIVE : Fld := ⟨22, 22⟩
abbrev EVI_SFSTAT_THR : Fld := ⟨21, 20⟩
abbrev EVI_SFSTAT_WPRIO : Fld := ⟨19, 16⟩
abbrev EVI_SFSTAT_TPRIO : Fld := ⟨15, 12⟩
abbrev EVI_SFSTAT_WSRC : Fld := ⟨11, 6⟩
abbrev EVI_SFSTAT_TSRC : Fld := ⟨5, 0⟩
/-- Address of EVI_TFSTAT (spec/05_events_exceptions.md R189). -/
abbrev EVI_TFSTAT (e : Nat) : Nat := 0xF80405 + 2048 * e
abbrev EVI_TFSTAT_TF : Fld := ⟨23, 23⟩
abbrev EVI_TFSTAT_THR : Fld := ⟨21, 20⟩
abbrev EVI_TFSTAT_CODE : Fld := ⟨14, 10⟩
abbrev EVI_TFSTAT_CNT : Fld := ⟨7, 0⟩
/-- Address of EVI_TFADDR (spec/05_events_exceptions.md R189). -/
abbrev EVI_TFADDR (e : Nat) : Nat := 0xF80406 + 2048 * e
abbrev EVI_TFADDR_ADDR : Fld := ⟨23, 0⟩
/-- Address of EVI_CNT0 (spec/05_events_exceptions.md R189). -/
abbrev EVI_CNT0 (e : Nat) : Nat := 0xF80407 + 2048 * e
abbrev EVI_CNT0_SF : Fld := ⟨23, 12⟩
abbrev EVI_CNT0_IMPEOI : Fld := ⟨11, 0⟩
/-- Address of EVI_CNT1 (spec/05_events_exceptions.md R189). -/
abbrev EVI_CNT1 (e : Nat) : Nat := 0xF80408 + 2048 * e
abbrev EVI_CNT1_SPUR : Fld := ⟨23, 12⟩
abbrev EVI_CNT1_HOLDMRG : Fld := ⟨11, 0⟩
/-- Address of EVI_MASKk (spec/05_events_exceptions.md R189). -/
abbrev EVI_MASKk (e k : Nat) : Nat := 0xF8040C + 2048 * e + k
abbrev EVI_MASKk_MASK : Fld := ⟨23, 0⟩
/-- Address of EVI_PENDk (spec/05_events_exceptions.md R189). -/
abbrev EVI_PENDk (e k : Nat) : Nat := 0xF80410 + 2048 * e + k
abbrev EVI_PENDk_PEND : Fld := ⟨23, 0⟩
/-- Address of EVI_ACTk (spec/05_events_exceptions.md R189). -/
abbrev EVI_ACTk (e k : Nat) : Nat := 0xF80414 + 2048 * e + k
abbrev EVI_ACTk_ACT : Fld := ⟨23, 0⟩
/-- Address of EVI_TtIVEC (spec/05_events_exceptions.md R189). -/
abbrev EVI_TtIVEC (e t : Nat) : Nat := 0xF80420 + 2048 * e + 16 * t
abbrev EVI_TtIVEC_VEC : Fld := ⟨23, 1⟩
/-- Address of EVI_TtXVEC (spec/05_events_exceptions.md R189). -/
abbrev EVI_TtXVEC (e t : Nat) : Nat := 0xF80421 + 2048 * e + 16 * t
abbrev EVI_TtXVEC_VEC : Fld := ⟨23, 1⟩
/-- Address of EVI_TtBASE (spec/05_events_exceptions.md R189). -/
abbrev EVI_TtBASE (e t : Nat) : Nat := 0xF80422 + 2048 * e + 16 * t
abbrev EVI_TtBASE_BASE : Fld := ⟨4, 0⟩
/-- Address of EVI_TtLVL (spec/05_events_exceptions.md R189). -/
abbrev EVI_TtLVL (e t : Nat) : Nat := 0xF80423 + 2048 * e + 16 * t
abbrev EVI_TtLVL_LIVE : Fld := ⟨23, 23⟩
abbrev EVI_TtLVL_RP : Fld := ⟨19, 16⟩
abbrev EVI_TtLVL_SRC : Fld := ⟨15, 10⟩
abbrev EVI_TtLVL_CLMD : Fld := ⟨9, 9⟩
abbrev EVI_TtLVL_SCAN : Fld := ⟨8, 8⟩
abbrev EVI_TtLVL_INTR : Fld := ⟨7, 7⟩
abbrev EVI_TtLVL_DEPTH : Fld := ⟨4, 0⟩
/-- Address of EVI_TtXPC (spec/05_events_exceptions.md R189). -/
abbrev EVI_TtXPC (e t : Nat) : Nat := 0xF80424 + 2048 * e + 16 * t
abbrev EVI_TtXPC_XPC : Fld := ⟨23, 0⟩
/-- Address of EVI_TtXST (spec/05_events_exceptions.md R189). -/
abbrev EVI_TtXST (e t : Nat) : Nat := 0xF80425 + 2048 * e + 16 * t
abbrev EVI_TtXST_PPRV : Fld := ⟨23, 23⟩
abbrev EVI_TtXST_PCID : Fld := ⟨22, 13⟩
abbrev EVI_TtXST_LR : Fld := ⟨12, 9⟩
abbrev EVI_TtXST_CL : Fld := ⟨8, 8⟩
abbrev EVI_TtXST_PRIO : Fld := ⟨7, 4⟩
abbrev EVI_TtXST_LP : Fld := ⟨3, 3⟩
abbrev EVI_TtXST_DL : Fld := ⟨2, 2⟩
abbrev EVI_TtXST_SY : Fld := ⟨1, 1⟩
abbrev EVI_TtXST_DS : Fld := ⟨0, 0⟩
/-- Address of EVI_TtXTGT (spec/05_events_exceptions.md R189). -/
abbrev EVI_TtXTGT (e t : Nat) : Nat := 0xF80426 + 2048 * e + 16 * t
abbrev EVI_TtXTGT_XTGT : Fld := ⟨23, 0⟩
/-- Address of EVI_TtXCAUSE (spec/05_events_exceptions.md R189). -/
abbrev EVI_TtXCAUSE (e t : Nat) : Nat := 0xF80427 + 2048 * e + 16 * t
abbrev EVI_TtXCAUSE_SRC : Fld := ⟨15, 10⟩
abbrev EVI_TtXCAUSE_ACC : Fld := ⟨9, 8⟩
abbrev EVI_TtXCAUSE_LVL : Fld := ⟨7, 6⟩
abbrev EVI_TtXCAUSE_CODE : Fld := ⟨4, 0⟩
/-- Address of EVI_TtXADDR (spec/05_events_exceptions.md R189). -/
abbrev EVI_TtXADDR (e t : Nat) : Nat := 0xF80428 + 2048 * e + 16 * t
abbrev EVI_TtXADDR_XADDR : Fld := ⟨23, 0⟩
/-- Address of EVI_SsCFG (spec/05_events_exceptions.md R189). -/
abbrev EVI_SsCFG (e s : Nat) : Nat := 0xF80480 + 2048 * e + 2 * s
abbrev EVI_SsCFG_KIND : Fld := ⟨23, 23⟩
abbrev EVI_SsCFG_THR : Fld := ⟨19, 18⟩
abbrev EVI_SsCFG_PRIO : Fld := ⟨15, 12⟩
abbrev EVI_SsCFG_RTE : Fld := ⟨10, 10⟩
abbrev EVI_SsCFG_ROUTE : Fld := ⟨9, 0⟩
/-- Address of EVI_SsCOAL (spec/05_events_exceptions.md R189). -/
abbrev EVI_SsCOAL (e s : Nat) : Nat := 0xF80481 + 2048 * e + 2 * s
abbrev EVI_SsCOAL_BATCH : Fld := ⟨23, 16⟩
abbrev EVI_SsCOAL_CTIME : Fld := ⟨15, 8⟩
abbrev EVI_SsCOAL_CCNT : Fld := ⟨7, 0⟩
/-- Address of EVR_MERGE (spec/05_events_exceptions.md R190). -/
abbrev EVR_MERGE : Nat := 0xF06000
abbrev EVR_MERGE_COUNT : Fld := ⟨23, 0⟩
/-- Address of EVR_MLAST (spec/05_events_exceptions.md R190). -/
abbrev EVR_MLAST : Nat := 0xF06001
abbrev EVR_MLAST_EVENT : Fld := ⟨9, 0⟩
/-- Address of EVR_FORCE (spec/05_events_exceptions.md R190). -/
abbrev EVR_FORCE : Nat := 0xF06002
abbrev EVR_FORCE_EVENT : Fld := ⟨9, 0⟩
/-- Address of EVR_WSELn (spec/05_events_exceptions.md R190). -/
abbrev EVR_WSELn (n : Nat) : Nat := 0xF06004 + n
abbrev EVR_WSELn_EN : Fld := ⟨23, 23⟩
abbrev EVR_WSELn_EVENT : Fld := ⟨9, 0⟩
/-- Address of EVR_WCNTn (spec/05_events_exceptions.md R190). -/
abbrev EVR_WCNTn (n : Nat) : Nat := 0xF06008 + n
abbrev EVR_WCNTn_COUNT : Fld := ⟨23, 0⟩
/-- Address of MEMC_CTL (spec/06_memory.md R230). -/
abbrev MEMC_CTL : Nat := 0xF40000
abbrev MEMC_CTL_SCRUB : Fld := ⟨5, 0⟩
/-- Address of MEMC_PROMOTE (spec/06_memory.md R230). -/
abbrev MEMC_PROMOTE : Nat := 0xF40001
abbrev MEMC_PROMOTE_PROMOTE_T : Fld := ⟨11, 0⟩
/-- Address of MEMC_PROMOCNT (spec/06_memory.md R230). -/
abbrev MEMC_PROMOCNT : Nat := 0xF40002
abbrev MEMC_PROMOCNT_COUNT : Fld := ⟨23, 0⟩
/-- Address of MEMC_FLOOR (spec/06_memory.md R230). -/
abbrev MEMC_FLOOR : Nat := 0xF40003
abbrev MEMC_FLOOR_PL : Fld := ⟨23, 21⟩
abbrev MEMC_FLOOR_FLOOR : Fld := ⟨13, 0⟩
/-- Address of MEMC_RLIM (spec/06_memory.md R230). -/
abbrev MEMC_RLIM : Nat := 0xF40004
abbrev MEMC_RLIM_LIMIT : Fld := ⟨13, 0⟩
/-- Address of MEMC_RSUM (spec/06_memory.md R230). -/
abbrev MEMC_RSUM : Nat := 0xF40005
abbrev MEMC_RSUM_SUM : Fld := ⟨13, 0⟩
/-- Address of MEMC_RSEL (spec/06_memory.md R230). -/
abbrev MEMC_RSEL : Nat := 0xF40006
abbrev MEMC_RSEL_CID : Fld := ⟨9, 0⟩
/-- Address of MEMC_RENT (spec/06_memory.md R230). -/
abbrev MEMC_RENT : Nat := 0xF40007
abbrev MEMC_RENT_ADM : Fld := ⟨23, 23⟩
abbrev MEMC_RENT_DEM : Fld := ⟨22, 22⟩
abbrev MEMC_RENT_CLASS : Fld := ⟨16, 14⟩
abbrev MEMC_RENT_RATE : Fld := ⟨13, 0⟩
/-- Address of MEMC_RSTAT (spec/06_memory.md R230). -/
abbrev MEMC_RSTAT : Nat := 0xF40008
abbrev MEMC_RSTAT_REF : Fld := ⟨23, 23⟩
abbrev MEMC_RSTAT_ADM : Fld := ⟨22, 22⟩
abbrev MEMC_RSTAT_SHORT : Fld := ⟨13, 0⟩
/-- Address of MEMC_OVF (spec/06_memory.md R230). -/
abbrev MEMC_OVF : Nat := 0xF40009
abbrev MEMC_OVF_COUNT : Fld := ⟨23, 0⟩
/-- Address of MEMC_HOTCNT (spec/06_memory.md R230). -/
abbrev MEMC_HOTCNT : Nat := 0xF4000A
abbrev MEMC_HOTCNT_COUNT : Fld := ⟨23, 0⟩
/-- Address of MEMC_HOTBANK (spec/06_memory.md R230). -/
abbrev MEMC_HOTBANK : Nat := 0xF4000B
abbrev MEMC_HOTBANK_BANK : Fld := ⟨4, 0⟩
/-- Address of MEMC_DEMCNT (spec/06_memory.md R230). -/
abbrev MEMC_DEMCNT : Nat := 0xF4000C
abbrev MEMC_DEMCNT_COUNT : Fld := ⟨23, 0⟩
/-- Address of MEMC_DEMHEAD (spec/06_memory.md R230). -/
abbrev MEMC_DEMHEAD : Nat := 0xF4000D
abbrev MEMC_DEMHEAD_HEAD : Fld := ⟨3, 0⟩
/-- Address of MEMC_DEMLOGi (spec/06_memory.md R230). -/
abbrev MEMC_DEMLOGi (i : Nat) : Nat := 0xF40010 + i
abbrev MEMC_DEMLOGi_V : Fld := ⟨23, 23⟩
abbrev MEMC_DEMLOGi_PL : Fld := ⟨22, 20⟩
abbrev MEMC_DEMLOGi_CLASS : Fld := ⟨16, 14⟩
abbrev MEMC_DEMLOGi_CID : Fld := ⟨9, 0⟩
/-- Address of MEMC_MRPROT (spec/06_memory.md R230). -/
abbrev MEMC_MRPROT : Nat := 0xF40020
abbrev MEMC_MRPROT_PROTB : Fld := ⟨1, 1⟩
abbrev MEMC_MRPROT_PROTA : Fld := ⟨0, 0⟩
/-- Address of MEMC_MRSTAT (spec/06_memory.md R230). -/
abbrev MEMC_MRSTAT : Nat := 0xF40021
abbrev MEMC_MRSTAT_MARKDONE : Fld := ⟨23, 23⟩
abbrev MEMC_MRSTAT_PEND : Fld := ⟨4, 0⟩
/-- Address of MEMC_MRMARK (spec/06_memory.md R230). -/
abbrev MEMC_MRMARK : Nat := 0xF40022
/-- Address of MEMC_MRFAIL (spec/06_memory.md R230). -/
abbrev MEMC_MRFAIL : Nat := 0xF40023
abbrev MEMC_MRFAIL_COUNT : Fld := ⟨23, 0⟩
/-- Address of MEMC_MRFADDR (spec/06_memory.md R230). -/
abbrev MEMC_MRFADDR : Nat := 0xF40024
abbrev MEMC_MRFADDR_ADDR : Fld := ⟨23, 0⟩
/-- Address of MEMC_ECNTr (spec/06_memory.md R230). -/
abbrev MEMC_ECNTr (r : Nat) : Nat := 0xF40028 + r
abbrev MEMC_ECNTr_CE : Fld := ⟨23, 12⟩
abbrev MEMC_ECNTr_UE : Fld := ⟨11, 0⟩
/-- Address of MEMC_TCPCNT (spec/06_memory.md R230). -/
abbrev MEMC_TCPCNT : Nat := 0xF4002D
abbrev MEMC_TCPCNT_COUNT : Fld := ⟨23, 0⟩
/-- Address of MEMC_ELHEAD (spec/06_memory.md R230). -/
abbrev MEMC_ELHEAD : Nat := 0xF4002E
abbrev MEMC_ELHEAD_HEAD : Fld := ⟨2, 0⟩
/-- Address of MEMC_ELADDRi (spec/06_memory.md R230). -/
abbrev MEMC_ELADDRi (i : Nat) : Nat := 0xF40030 + 4 * i
abbrev MEMC_ELADDRi_ADDR : Fld := ⟨23, 0⟩
/-- Address of MEMC_ELINFOi (spec/06_memory.md R230). -/
abbrev MEMC_ELINFOi (i : Nat) : Nat := 0xF40031 + 4 * i
abbrev MEMC_ELINFOi_V : Fld := ⟨23, 23⟩
abbrev MEMC_ELINFOi_UE : Fld := ⟨22, 22⟩
abbrev MEMC_ELINFOi_REPEAT : Fld := ⟨21, 21⟩
abbrev MEMC_ELINFOi_REGION : Fld := ⟨20, 18⟩
abbrev MEMC_ELINFOi_SRC : Fld := ⟨17, 15⟩
abbrev MEMC_ELINFOi_ENGINE : Fld := ⟨14, 8⟩
abbrev MEMC_ELINFOi_SYND : Fld := ⟨5, 0⟩
/-- Address of MEMC_ELTIMEi (spec/06_memory.md R230). -/
abbrev MEMC_ELTIMEi (i : Nat) : Nat := 0xF40032 + 4 * i
abbrev MEMC_ELTIMEi_DT : Fld := ⟨23, 0⟩
/-- Address of BZ_CMD (spec/07_capsules.md R266). -/
abbrev BZ_CMD : Nat := 0xF41000
abbrev BZ_CMD_OP : Fld := ⟨23, 20⟩
abbrev BZ_CMD_CID : Fld := ⟨9, 0⟩
/-- Address of BZ_CSTAT (spec/07_capsules.md R266). -/
abbrev BZ_CSTAT : Nat := 0xF41001
abbrev BZ_CSTAT_BUSY : Fld := ⟨23, 23⟩
abbrev BZ_CSTAT_RESULT : Fld := ⟨22, 20⟩
abbrev BZ_CSTAT_CID : Fld := ⟨9, 0⟩
/-- Address of BZ_HMADDR (spec/07_capsules.md R266). -/
abbrev BZ_HMADDR : Nat := 0xF41002
abbrev BZ_HMADDR_ADDR : Fld := ⟨23, 0⟩
/-- Address of BZ_HMSTAT (spec/07_capsules.md R266). -/
abbrev BZ_HMSTAT : Nat := 0xF41003
abbrev BZ_HMSTAT_BUSY : Fld := ⟨23, 23⟩
abbrev BZ_HMSTAT_PASS : Fld := ⟨22, 22⟩
abbrev BZ_HMSTAT_FAIL : Fld := ⟨21, 18⟩
abbrev BZ_HMSTAT_KMODE : Fld := ⟨17, 17⟩
abbrev BZ_HMSTAT_KEYSLOT : Fld := ⟨16, 14⟩
abbrev BZ_HMSTAT_CID : Fld := ⟨9, 0⟩
/-- Address of BZ_HMVER (spec/07_capsules.md R266). -/
abbrev BZ_HMVER : Nat := 0xF41004
abbrev BZ_HMVER_VERSION : Fld := ⟨23, 0⟩
/-- Address of BZ_DSEL (spec/07_capsules.md R266). -/
abbrev BZ_DSEL : Nat := 0xF41005
abbrev BZ_DSEL_CID : Fld := ⟨9, 0⟩
/-- Address of BZ_KGEN (spec/07_capsules.md R266). -/
abbrev BZ_KGEN : Nat := 0xF41006
abbrev BZ_KGEN_ARMED : Fld := ⟨1, 1⟩
abbrev BZ_KGEN_CUR : Fld := ⟨0, 0⟩
/-- Address of BZ_SHED (spec/07_capsules.md R266). -/
abbrev BZ_SHED : Nat := 0xF41007
abbrev BZ_SHED_ACT : Fld := ⟨20, 20⟩
abbrev BZ_SHED_FLOOR : Fld := ⟨18, 16⟩
abbrev BZ_SHED_STEP1 : Fld := ⟨10, 8⟩
abbrev BZ_SHED_KFLOOR : Fld := ⟨2, 0⟩
/-- Address of BZ_PROMOCNT (spec/07_capsules.md R266). -/
abbrev BZ_PROMOCNT : Nat := 0xF41008
abbrev BZ_PROMOCNT_COUNT : Fld := ⟨23, 0⟩
/-- Address of BZ_DENYCNT (spec/07_capsules.md R266). -/
abbrev BZ_DENYCNT : Nat := 0xF41009
abbrev BZ_DENYCNT_COUNT : Fld := ⟨23, 0⟩
/-- Address of BZ_KSTOPCNT (spec/07_capsules.md R266). -/
abbrev BZ_KSTOPCNT : Nat := 0xF4100A
abbrev BZ_KSTOPCNT_COUNT : Fld := ⟨23, 0⟩
/-- Address of BZ_DLHEAD (spec/07_capsules.md R266). -/
abbrev BZ_DLHEAD : Nat := 0xF4100B
abbrev BZ_DLHEAD_HEAD : Fld := ⟨2, 0⟩
/-- Address of BZ_DLAi (spec/07_capsules.md R266). -/
abbrev BZ_DLAi (i : Nat) : Nat := 0xF41010 + 2 * i
abbrev BZ_DLAi_V : Fld := ⟨23, 23⟩
abbrev BZ_DLAi_KIND : Fld := ⟨22, 20⟩
abbrev BZ_DLAi_CID : Fld := ⟨19, 10⟩
abbrev BZ_DLAi_DETAIL : Fld := ⟨9, 0⟩
/-- Address of BZ_DLBi (spec/07_capsules.md R266). -/
abbrev BZ_DLBi (i : Nat) : Nat := 0xF41011 + 2 * i
abbrev BZ_DLBi_DT : Fld := ⟨23, 9⟩
abbrev BZ_DLBi_THREAD : Fld := ⟨8, 0⟩
/-- Address of BZ_PRCID (spec/07_capsules.md R266). -/
abbrev BZ_PRCID : Nat := 0xF41020
abbrev BZ_PRCID_CID : Fld := ⟨9, 0⟩
/-- Address of BZ_PRVA (spec/07_capsules.md R266). -/
abbrev BZ_PRVA : Nat := 0xF41021
abbrev BZ_PRVA_VA : Fld := ⟨23, 0⟩
/-- Address of BZ_PRSTAT (spec/07_capsules.md R266). -/
abbrev BZ_PRSTAT : Nat := 0xF41022
abbrev BZ_PRSTAT_BUSY : Fld := ⟨23, 23⟩
abbrev BZ_PRSTAT_CODE : Fld := ⟨22, 18⟩
abbrev BZ_PRSTAT_LVL : Fld := ⟨17, 16⟩
abbrev BZ_PRSTAT_PERMS : Fld := ⟨3, 0⟩
/-- Address of BZ_PRPA (spec/07_capsules.md R266). -/
abbrev BZ_PRPA : Nat := 0xF41023
abbrev BZ_PRPA_PA : Fld := ⟨23, 0⟩
/-- Address of BZ_SREM (spec/07_capsules.md R266). -/
abbrev BZ_SREM : Nat := 0xF41030
abbrev BZ_SREM_REM : Fld := ⟨23, 0⟩
/-- Address of BZ_SUSED (spec/07_capsules.md R266). -/
abbrev BZ_SUSED : Nat := 0xF41031
abbrev BZ_SUSED_USED : Fld := ⟨23, 0⟩
/-- Address of BZ_SWAIT (spec/07_capsules.md R266). -/
abbrev BZ_SWAIT : Nat := 0xF41032
abbrev BZ_SWAIT_WAIT : Fld := ⟨15, 0⟩
/-- Address of BZ_STHR (spec/07_capsules.md R266). -/
abbrev BZ_STHR : Nat := 0xF41033
abbrev BZ_STHR_COUNT : Fld := ⟨9, 0⟩
/-- Address of BZ_SPROMO (spec/07_capsules.md R266). -/
abbrev BZ_SPROMO : Nat := 0xF41034
abbrev BZ_SPROMO_COUNT : Fld := ⟨23, 0⟩
/-- Address of BZ_Dw (spec/07_capsules.md R266). -/
abbrev BZ_Dw (w : Nat) : Nat := 0xF41040 + w
abbrev BZ_Dw_WORD : Fld := ⟨23, 0⟩
/-- Address of BZ_TBINDk (spec/07_capsules.md R266). -/
abbrev BZ_TBINDk (k : Nat) : Nat := 0xF41200 + k
abbrev BZ_TBINDk_PRV : Fld := ⟨23, 23⟩
abbrev BZ_TBINDk_KG : Fld := ⟨22, 22⟩
abbrev BZ_TBINDk_TEP : Fld := ⟨21, 18⟩
abbrev BZ_TBINDk_HOLD : Fld := ⟨17, 15⟩
abbrev BZ_TBINDk_CID : Fld := ⟨9, 0⟩
/-- Address of BZ_TSTARTk (spec/07_capsules.md R266). -/
abbrev BZ_TSTARTk (k : Nat) : Nat := 0xF41400 + k
abbrev BZ_TSTARTk_PRV : Fld := ⟨23, 23⟩
abbrev BZ_TSTARTk_KG : Fld := ⟨22, 22⟩
abbrev BZ_TSTARTk_CID : Fld := ⟨9, 0⟩
/-- Address of BZ_KjKEYw (spec/07_capsules.md R266). -/
abbrev BZ_KjKEYw (j w : Nat) : Nat := 0xF41600 + 32 * j + w
abbrev BZ_KjKEYw_KEY : Fld := ⟨23, 0⟩
/-- Address of BZ_KjCTL (spec/07_capsules.md R266). -/
abbrev BZ_KjCTL (j : Nat) : Nat := 0xF41616 + 32 * j
abbrev BZ_KjCTL_V : Fld := ⟨23, 23⟩
abbrev BZ_KjCTL_LOCK : Fld := ⟨22, 22⟩
/-- Address of BZ_KjMINVER (spec/07_capsules.md R266). -/
abbrev BZ_KjMINVER (j : Nat) : Nat := 0xF41617 + 32 * j
abbrev BZ_KjMINVER_MINVER : Fld := ⟨23, 0⟩
/-- Address of BZ_SELFID (spec/07_capsules.md R266). -/
abbrev BZ_SELFID : Nat := 0xF41800
abbrev BZ_SELFID_PRV : Fld := ⟨23, 23⟩
abbrev BZ_SELFID_TEP : Fld := ⟨13, 10⟩
abbrev BZ_SELFID_CID : Fld := ⟨9, 0⟩
/-- Address of BZ_SELFREM (spec/07_capsules.md R266). -/
abbrev BZ_SELFREM : Nat := 0xF41801
abbrev BZ_SELFREM_REM : Fld := ⟨23, 0⟩
/-- Address of STR_sPORT (spec/08_strands.md R289). -/
abbrev STR_sPORT (s : Nat) : Nat := 0xF42000 + 2 * s
abbrev STR_sPORT_ITEM : Fld := ⟨23, 0⟩
/-- Address of STR_sCFG (spec/08_strands.md R289). -/
abbrev STR_sCFG (s : Nat) : Nat := 0xF42400 + 4 * s
abbrev STR_sCFG_EN : Fld := ⟨23, 23⟩
abbrev STR_sCFG_FMT : Fld := ⟨22, 22⟩
abbrev STR_sCFG_SRC : Fld := ⟨21, 20⟩
abbrev STR_sCFG_DST : Fld := ⟨19, 18⟩
abbrev STR_sCFG_FULLPOL : Fld := ⟨17, 17⟩
abbrev STR_sCFG_FLUSH : Fld := ⟨16, 16⟩
abbrev STR_sCFG_TO : Fld := ⟨15, 12⟩
abbrev STR_sCFG_CUT : Fld := ⟨11, 8⟩
/-- Address of STR_sSTAT (spec/08_strands.md R289). -/
abbrev STR_sSTAT (s : Nat) : Nat := 0xF42401 + 4 * s
abbrev STR_sSTAT_LOCK : Fld := ⟨23, 23⟩
abbrev STR_sSTAT_BRK : Fld := ⟨22, 22⟩
abbrev STR_sSTAT_TRUNC : Fld := ⟨21, 21⟩
abbrev STR_sSTAT_HRDY : Fld := ⟨12, 12⟩
abbrev STR_sSTAT_REMAIN : Fld := ⟨11, 5⟩
abbrev STR_sSTAT_OCC : Fld := ⟨4, 0⟩
/-- Address of STR_sEP (spec/08_strands.md R289). -/
abbrev STR_sEP (s : Nat) : Nat := 0xF42402 + 4 * s
abbrev STR_sEP_EXP : Fld := ⟨13, 10⟩
abbrev STR_sEP_PCID : Fld := ⟨9, 0⟩
/-- Address of STR_sDROP (spec/08_strands.md R289). -/
abbrev STR_sDROP (s : Nat) : Nat := 0xF42403 + 4 * s
abbrev STR_sDROP_EP : Fld := ⟨23, 16⟩
abbrev STR_sDROP_FULL : Fld := ⟨15, 8⟩
abbrev STR_sDROP_REF : Fld := ⟨7, 0⟩
/-- Address of STR_EPDROP (spec/08_strands.md R289). -/
abbrev STR_EPDROP : Nat := 0xF43000
abbrev STR_EPDROP_COUNT : Fld := ⟨23, 0⟩
/-- Address of STR_EPLAST (spec/08_strands.md R289). -/
abbrev STR_EPLAST : Nat := 0xF43001
abbrev STR_EPLAST_STRAND : Fld := ⟨8, 0⟩
/-- Address of STR_WwCFG (spec/08_strands.md R289). -/
abbrev STR_WwCFG (w : Nat) : Nat := 0xF43100 + w
abbrev STR_WwCFG_EN : Fld := ⟨23, 23⟩
abbrev STR_WwCFG_COND : Fld := ⟨22, 20⟩
abbrev STR_WwCFG_LEVEL : Fld := ⟨19, 15⟩
abbrev STR_WwCFG_STRAND : Fld := ⟨8, 0⟩
/-- Address of STR_CKuA0 (spec/08_strands.md R289). -/
abbrev STR_CKuA0 (u : Nat) : Nat := 0xF43200 + 4 * u
abbrev STR_CKuA0_ADDR : Fld := ⟨23, 1⟩
/-- Address of STR_CKuA1 (spec/08_strands.md R289). -/
abbrev STR_CKuA1 (u : Nat) : Nat := 0xF43201 + 4 * u
abbrev STR_CKuA1_ADDR : Fld := ⟨23, 1⟩
/-- Address of STR_CKuCTL (spec/08_strands.md R289). -/
abbrev STR_CKuCTL (u : Nat) : Nat := 0xF43202 + 4 * u
abbrev STR_CKuCTL_EN : Fld := ⟨23, 23⟩
abbrev STR_CKuCTL_STRAND : Fld := ⟨8, 0⟩
/-- Address of STR_CKuSTAT (spec/08_strands.md R289). -/
abbrev STR_CKuSTAT (u : Nat) : Nat := 0xF43203 + 4 * u
abbrev STR_CKuSTAT_VALID : Fld := ⟨23, 23⟩
abbrev STR_CKuSTAT_CUR : Fld := ⟨22, 22⟩
abbrev STR_CKuSTAT_LEN : Fld := ⟨21, 15⟩
abbrev STR_CKuSTAT_SEQ : Fld := ⟨14, 2⟩
abbrev STR_CKuSTAT_FILL : Fld := ⟨1, 1⟩
abbrev STR_CKuSTAT_ABN : Fld := ⟨0, 0⟩
/-- Address of STR_BQqCFG (spec/08_strands.md R289). -/
abbrev STR_BQqCFG (q : Nat) : Nat := 0xF43400 + 2 * q
abbrev STR_BQqCFG_EN : Fld := ⟨23, 23⟩
abbrev STR_BQqCFG_STRAND : Fld := ⟨8, 0⟩
/-- Address of STR_BQqSTAT (spec/08_strands.md R289). -/
abbrev STR_BQqSTAT (q : Nat) : Nat := 0xF43401 + 2 * q
abbrev STR_BQqSTAT_DIR : Fld := ⟨23, 23⟩
abbrev STR_BQqSTAT_OVF : Fld := ⟨15, 8⟩
abbrev STR_BQqSTAT_OCC : Fld := ⟨5, 0⟩
/-- Address of PREC_CTL (spec/09_precision_measurement.md R323). -/
abbrev PREC_CTL : Nat := 0xF10000
abbrev PREC_CTL_CJEN : Fld := ⟨1, 1⟩
abbrev PREC_CTL_EN : Fld := ⟨0, 0⟩
/-- Address of PREC_SYNC (spec/09_precision_measurement.md R323). -/
abbrev PREC_SYNC : Nat := 0xF10001
abbrev PREC_SYNC_CH : Fld := ⟨23, 0⟩
/-- Address of PREC_CJT (spec/09_precision_measurement.md R323). -/
abbrev PREC_CJT : Nat := 0xF10002
abbrev PREC_CJT_TCJ : Fld := ⟨23, 0⟩
/-- Address of PREC_CJSTAT (spec/09_precision_measurement.md R323). -/
abbrev PREC_CJSTAT : Nat := 0xF10003
abbrev PREC_CJSTAT_V : Fld := ⟨23, 23⟩
abbrev PREC_CJSTAT_SREF : Fld := ⟨22, 22⟩
abbrev PREC_CJSTAT_FAIL : Fld := ⟨21, 21⟩
/-- Address of PREC_BEXCTL (spec/09_precision_measurement.md R323). -/
abbrev PREC_BEXCTL : Nat := 0xF10004
abbrev PREC_BEXCTL_EN : Fld := ⟨3, 0⟩
/-- Address of PREC_BEXSTAT (spec/09_precision_measurement.md R323). -/
abbrev PREC_BEXSTAT : Nat := 0xF10005
abbrev PREC_BEXSTAT_LIMNOW : Fld := ⟨7, 4⟩
abbrev PREC_BEXSTAT_LIM : Fld := ⟨3, 0⟩
/-- Address of PREC_WREFCNT (spec/09_precision_measurement.md R323). -/
abbrev PREC_WREFCNT : Nat := 0xF10006
abbrev PREC_WREFCNT_COUNT : Fld := ⟨23, 0⟩
/-- Address of PREC_CHnCFG (spec/09_precision_measurement.md R323). -/
abbrev PREC_CHnCFG (n : Nat) : Nat := 0xF10040 + 32 * n
abbrev PREC_CHnCFG_EN : Fld := ⟨23, 23⟩
abbrev PREC_CHnCFG_MODE : Fld := ⟨22, 21⟩
abbrev PREC_CHnCFG_MUX : Fld := ⟨20, 19⟩
abbrev PREC_CHnCFG_GAIN : Fld := ⟨18, 16⟩
abbrev PREC_CHnCFG_RATE : Fld := ⟨15, 12⟩
abbrev PREC_CHnCFG_FILT : Fld := ⟨11, 11⟩
abbrev PREC_CHnCFG_REFSEL : Fld := ⟨10, 9⟩
abbrev PREC_CHnCFG_REFIDX : Fld := ⟨8, 7⟩
abbrev PREC_CHnCFG_PKT : Fld := ⟨6, 6⟩
abbrev PREC_CHnCFG_LINEN : Fld := ⟨5, 5⟩
abbrev PREC_CHnCFG_CJC : Fld := ⟨4, 4⟩
/-- Address of PREC_CHnEXC (spec/09_precision_measurement.md R323). -/
abbrev PREC_CHnEXC (n : Nat) : Nat := 0xF10041 + 32 * n
abbrev PREC_CHnEXC_EXSET : Fld := ⟨15, 8⟩
abbrev PREC_CHnEXC_BURN : Fld := ⟨5, 4⟩
abbrev PREC_CHnEXC_IEXC : Fld := ⟨3, 0⟩
/-- Address of PREC_CHnOFS (spec/09_precision_measurement.md R323). -/
abbrev PREC_CHnOFS (n : Nat) : Nat := 0xF10042 + 32 * n
abbrev PREC_CHnOFS_OFS : Fld := ⟨23, 0⟩
/-- Address of PREC_CHnGAIN (spec/09_precision_measurement.md R323). -/
abbrev PREC_CHnGAIN (n : Nat) : Nat := 0xF10043 + 32 * n
abbrev PREC_CHnGAIN_GAIN : Fld := ⟨23, 0⟩
/-- Address of PREC_CHnCJ0 (spec/09_precision_measurement.md R323). -/
abbrev PREC_CHnCJ0 (n : Nat) : Nat := 0xF10044 + 32 * n
abbrev PREC_CHnCJ0_CJ0 : Fld := ⟨23, 0⟩
/-- Address of PREC_CHnCJK (spec/09_precision_measurement.md R323). -/
abbrev PREC_CHnCJK (n : Nat) : Nat := 0xF10045 + 32 * n
abbrev PREC_CHnCJK_CJK : Fld := ⟨23, 0⟩
/-- Address of PREC_CHnWLO (spec/09_precision_measurement.md R323). -/
abbrev PREC_CHnWLO (n : Nat) : Nat := 0xF10046 + 32 * n
abbrev PREC_CHnWLO_WLO : Fld := ⟨23, 0⟩
/-- Address of PREC_CHnWHI (spec/09_precision_measurement.md R323). -/
abbrev PREC_CHnWHI (n : Nat) : Nat := 0xF10047 + 32 * n
abbrev PREC_CHnWHI_WHI : Fld := ⟨23, 0⟩
/-- Address of PREC_CHnWCFG (spec/09_precision_measurement.md R323). -/
abbrev PREC_CHnWCFG (n : Nat) : Nat := 0xF10048 + 32 * n
abbrev PREC_CHnWCFG_WEN : Fld := ⟨23, 23⟩
abbrev PREC_CHnWCFG_WCNT : Fld := ⟨7, 0⟩
/-- Address of PREC_CHnTMO (spec/09_precision_measurement.md R323). -/
abbrev PREC_CHnTMO (n : Nat) : Nat := 0xF10049 + 32 * n
abbrev PREC_CHnTMO_TMO : Fld := ⟨15, 0⟩
/-- Address of PREC_CHnLCTL (spec/09_precision_measurement.md R323). -/
abbrev PREC_CHnLCTL (n : Nat) : Nat := 0xF1004A + 32 * n
abbrev PREC_CHnLCTL_PEND : Fld := ⟨23, 23⟩
abbrev PREC_CHnLCTL_ACT : Fld := ⟨22, 22⟩
abbrev PREC_CHnLCTL_SWAP : Fld := ⟨0, 0⟩
/-- Address of PREC_CHnLSTAT (spec/09_precision_measurement.md R323). -/
abbrev PREC_CHnLSTAT (n : Nat) : Nat := 0xF1004B + 32 * n
abbrev PREC_CHnLSTAT_SWAPS : Fld := ⟨23, 12⟩
abbrev PREC_CHnLSTAT_WREF : Fld := ⟨11, 0⟩
/-- Address of PREC_CHnDATA (spec/09_precision_measurement.md R323). -/
abbrev PREC_CHnDATA (n : Nat) : Nat := 0xF1004C + 32 * n
abbrev PREC_CHnDATA_Y : Fld := ⟨23, 0⟩
/-- Address of PREC_CHnQUAL (spec/09_precision_measurement.md R323). -/
abbrev PREC_CHnQUAL (n : Nat) : Nat := 0xF1004D + 32 * n
abbrev PREC_CHnQUAL_QUAL : Fld := ⟨23, 0⟩
/-- Address of PREC_CHnTIME (spec/09_precision_measurement.md R323). -/
abbrev PREC_CHnTIME (n : Nat) : Nat := 0xF1004E + 32 * n
abbrev PREC_CHnTIME_STAMP : Fld := ⟨23, 0⟩
/-- Address of PREC_CHnRAW (spec/09_precision_measurement.md R323). -/
abbrev PREC_CHnRAW (n : Nat) : Nat := 0xF1004F + 32 * n
abbrev PREC_CHnRAW_T : Fld := ⟨23, 0⟩
/-- Address of PREC_CHnSTAT (spec/09_precision_measurement.md R323). -/
abbrev PREC_CHnSTAT (n : Nat) : Nat := 0xF10050 + 32 * n
abbrev PREC_CHnSTAT_STALEF : Fld := ⟨23, 23⟩
abbrev PREC_CHnSTAT_RANGEF : Fld := ⟨22, 22⟩
abbrev PREC_CHnSTAT_FAULTF : Fld := ⟨21, 21⟩
abbrev PREC_CHnSTAT_OUT : Fld := ⟨20, 20⟩
abbrev PREC_CHnSTAT_SIDE : Fld := ⟨19, 19⟩
abbrev PREC_CHnSTAT_RUN : Fld := ⟨18, 18⟩
abbrev PREC_CHnSTAT_WAIT : Fld := ⟨17, 17⟩
abbrev PREC_CHnSTAT_OVRCNT : Fld := ⟨15, 8⟩
abbrev PREC_CHnSTAT_STALECNT : Fld := ⟨7, 0⟩
/-- Address of PREC_CHnCNT (spec/09_precision_measurement.md R323). -/
abbrev PREC_CHnCNT (n : Nat) : Nat := 0xF10051 + 32 * n
abbrev PREC_CHnCNT_COUNT : Fld := ⟨23, 0⟩
/-- Address of PREC_CHnLb (spec/09_precision_measurement.md R323). -/
abbrev PREC_CHnLb (n b i : Nat) : Nat := 0xF10800 + 544 * n + 272 * b + i
abbrev PREC_CHnLb_Y : Fld := ⟨23, 0⟩
/-- Address of XING_CTL (spec/10_fast_measurement.md R353). -/
abbrev XING_CTL : Nat := 0xF14000
abbrev XING_CTL_EN : Fld := ⟨0, 0⟩
/-- Address of XING_CHnCFG (spec/10_fast_measurement.md R353). -/
abbrev XING_CHnCFG (n : Nat) : Nat := 0xF14040 + 16 * n
abbrev XING_CHnCFG_EN : Fld := ⟨23, 23⟩
abbrev XING_CHnCFG_PKT : Fld := ⟨22, 22⟩
abbrev XING_CHnCFG_HBEN : Fld := ⟨21, 21⟩
abbrev XING_CHnCFG_DEB : Fld := ⟨19, 16⟩
abbrev XING_CHnCFG_LBASE : Fld := ⟨15, 0⟩
/-- Address of XING_CHnSTEP (spec/10_fast_measurement.md R353). -/
abbrev XING_CHnSTEP (n : Nat) : Nat := 0xF14041 + 16 * n
abbrev XING_CHnSTEP_LMAX : Fld := ⟨23, 12⟩
abbrev XING_CHnSTEP_LSTEP : Fld := ⟨11, 0⟩
/-- Address of XING_CHnRATE (spec/10_fast_measurement.md R353). -/
abbrev XING_CHnRATE (n : Nat) : Nat := 0xF14042 + 16 * n
abbrev XING_CHnRATE_HYST : Fld := ⟨23, 16⟩
abbrev XING_CHnRATE_MINIV : Fld := ⟨15, 0⟩
/-- Address of XING_CHnWIN (spec/10_fast_measurement.md R353). -/
abbrev XING_CHnWIN (n : Nat) : Nat := 0xF14043 + 16 * n
abbrev XING_CHnWIN_LWHI : Fld := ⟨23, 12⟩
abbrev XING_CHnWIN_LWLO : Fld := ⟨11, 0⟩
/-- Address of XING_CHnTMO (spec/10_fast_measurement.md R353). -/
abbrev XING_CHnTMO (n : Nat) : Nat := 0xF14044 + 16 * n
abbrev XING_CHnTMO_TMO : Fld := ⟨15, 0⟩
/-- Address of XING_CHnLVL (spec/10_fast_measurement.md R353). -/
abbrev XING_CHnLVL (n : Nat) : Nat := 0xF14045 + 16 * n
abbrev XING_CHnLVL_V : Fld := ⟨23, 23⟩
abbrev XING_CHnLVL_DIR : Fld := ⟨22, 22⟩
abbrev XING_CHnLVL_LVL : Fld := ⟨11, 0⟩
/-- Address of XING_CHnTIME (spec/10_fast_measurement.md R353). -/
abbrev XING_CHnTIME (n : Nat) : Nat := 0xF14046 + 16 * n
abbrev XING_CHnTIME_STAMP : Fld := ⟨23, 0⟩
/-- Address of XING_CHnSTAT (spec/10_fast_measurement.md R353). -/
abbrev XING_CHnSTAT (n : Nat) : Nat := 0xF14047 + 16 * n
abbrev XING_CHnSTAT_QUIETF : Fld := ⟨23, 23⟩
abbrev XING_CHnSTAT_RANGEF : Fld := ⟨22, 22⟩
abbrev XING_CHnSTAT_FAULTF : Fld := ⟨21, 21⟩
abbrev XING_CHnSTAT_OUT : Fld := ⟨20, 20⟩
abbrev XING_CHnSTAT_SIDE : Fld := ⟨19, 19⟩
abbrev XING_CHnSTAT_ACQ : Fld := ⟨18, 18⟩
abbrev XING_CHnSTAT_LOSTCNT : Fld := ⟨15, 8⟩
abbrev XING_CHnSTAT_MRGCNT : Fld := ⟨7, 0⟩
/-- Address of SAR_CTL (spec/10_fast_measurement.md R354). -/
abbrev SAR_CTL : Nat := 0xF18000
abbrev SAR_CTL_EN : Fld := ⟨3, 0⟩
/-- Address of SAR_SWTRIG (spec/10_fast_measurement.md R354). -/
abbrev SAR_SWTRIG : Nat := 0xF18001
abbrev SAR_SWTRIG_TRIG : Fld := ⟨3, 0⟩
/-- Address of SAR_KkCFG (spec/10_fast_measurement.md R354). -/
abbrev SAR_KkCFG (k : Nat) : Nat := 0xF18010 + 16 * k
abbrev SAR_KkCFG_TSEL : Fld := ⟨23, 20⟩
abbrev SAR_KkCFG_SAMP : Fld := ⟨19, 16⟩
abbrev SAR_KkCFG_NSTEP : Fld := ⟨14, 12⟩
abbrev SAR_KkCFG_AVG : Fld := ⟨11, 10⟩
abbrev SAR_KkCFG_TMO : Fld := ⟨9, 0⟩
/-- Address of SAR_KkSTEPj (spec/10_fast_measurement.md R354). -/
abbrev SAR_KkSTEPj (k j : Nat) : Nat := 0xF18011 + 16 * k + j
abbrev SAR_KkSTEPj_PUSH : Fld := ⟨23, 23⟩
abbrev SAR_KkSTEPj_IN : Fld := ⟨22, 20⟩
/-- Address of SAR_KkSTAT (spec/10_fast_measurement.md R354). -/
abbrev SAR_KkSTAT (k : Nat) : Nat := 0xF18019 + 16 * k
abbrev SAR_KkSTAT_TLOSTF : Fld := ⟨23, 23⟩
abbrev SAR_KkSTAT_STALEF : Fld := ⟨22, 22⟩
abbrev SAR_KkSTAT_BUSY : Fld := ⟨21, 21⟩
abbrev SAR_KkSTAT_TLOSTCNT : Fld := ⟨15, 8⟩
abbrev SAR_KkSTAT_RUNS : Fld := ⟨7, 0⟩
/-- Address of SAR_KkCHK (spec/10_fast_measurement.md R354). -/
abbrev SAR_KkCHK (k : Nat) : Nat := 0xF1801A + 16 * k
abbrev SAR_KkCHK_VAL : Fld := ⟨23, 0⟩
/-- Address of SAR_INnCFG (spec/10_fast_measurement.md R354). -/
abbrev SAR_INnCFG (n : Nat) : Nat := 0xF18080 + 16 * n
abbrev SAR_INnCFG_SRC : Fld := ⟨23, 23⟩
abbrev SAR_INnCFG_PKT : Fld := ⟨22, 22⟩
abbrev SAR_INnCFG_WEN : Fld := ⟨21, 21⟩
abbrev SAR_INnCFG_WCNT : Fld := ⟨7, 0⟩
/-- Address of SAR_INnOFS (spec/10_fast_measurement.md R354). -/
abbrev SAR_INnOFS (n : Nat) : Nat := 0xF18081 + 16 * n
abbrev SAR_INnOFS_OFS : Fld := ⟨23, 0⟩
/-- Address of SAR_INnGAIN (spec/10_fast_measurement.md R354). -/
abbrev SAR_INnGAIN (n : Nat) : Nat := 0xF18082 + 16 * n
abbrev SAR_INnGAIN_GAIN : Fld := ⟨23, 0⟩
/-- Address of SAR_INnWLO (spec/10_fast_measurement.md R354). -/
abbrev SAR_INnWLO (n : Nat) : Nat := 0xF18083 + 16 * n
abbrev SAR_INnWLO_WLO : Fld := ⟨23, 0⟩
/-- Address of SAR_INnWHI (spec/10_fast_measurement.md R354). -/
abbrev SAR_INnWHI (n : Nat) : Nat := 0xF18084 + 16 * n
abbrev SAR_INnWHI_WHI : Fld := ⟨23, 0⟩
/-- Address of SAR_INnDATA (spec/10_fast_measurement.md R354). -/
abbrev SAR_INnDATA (n : Nat) : Nat := 0xF18086 + 16 * n
abbrev SAR_INnDATA_W : Fld := ⟨23, 0⟩
/-- Address of SAR_INnQUAL (spec/10_fast_measurement.md R354). -/
abbrev SAR_INnQUAL (n : Nat) : Nat := 0xF18087 + 16 * n
abbrev SAR_INnQUAL_QUAL : Fld := ⟨23, 0⟩
/-- Address of SAR_INnTIME (spec/10_fast_measurement.md R354). -/
abbrev SAR_INnTIME (n : Nat) : Nat := 0xF18088 + 16 * n
abbrev SAR_INnTIME_STAMP : Fld := ⟨23, 0⟩
/-- Address of SAR_INnSTAT (spec/10_fast_measurement.md R354). -/
abbrev SAR_INnSTAT (n : Nat) : Nat := 0xF18089 + 16 * n
abbrev SAR_INnSTAT_RANGEF : Fld := ⟨23, 23⟩
abbrev SAR_INnSTAT_OUT : Fld := ⟨22, 22⟩
abbrev SAR_INnSTAT_SIDE : Fld := ⟨21, 21⟩
abbrev SAR_INnSTAT_OVRCNT : Fld := ⟨7, 0⟩
/-- Address of PULSE_INnCFG (spec/10_fast_measurement.md R355). -/
abbrev PULSE_INnCFG (n : Nat) : Nat := 0xF1C040 + 16 * n
abbrev PULSE_INnCFG_EN : Fld := ⟨23, 23⟩
abbrev PULSE_INnCFG_PKT : Fld := ⟨22, 22⟩
abbrev PULSE_INnCFG_MODE : Fld := ⟨21, 20⟩
abbrev PULSE_INnCFG_EDGE : Fld := ⟨19, 18⟩
abbrev PULSE_INnCFG_PU : Fld := ⟨17, 17⟩
abbrev PULSE_INnCFG_FLT : Fld := ⟨15, 8⟩
abbrev PULSE_INnCFG_N : Fld := ⟨7, 0⟩
/-- Address of PULSE_INnHYG (spec/10_fast_measurement.md R355). -/
abbrev PULSE_INnHYG (n : Nat) : Nat := 0xF1C041 + 16 * n
abbrev PULSE_INnHYG_WEN : Fld := ⟨23, 23⟩
abbrev PULSE_INnHYG_WCNT : Fld := ⟨22, 16⟩
abbrev PULSE_INnHYG_TMO : Fld := ⟨15, 0⟩
/-- Address of PULSE_INnWLO (spec/10_fast_measurement.md R355). -/
abbrev PULSE_INnWLO (n : Nat) : Nat := 0xF1C042 + 16 * n
abbrev PULSE_INnWLO_WLO : Fld := ⟨23, 0⟩
/-- Address of PULSE_INnWHI (spec/10_fast_measurement.md R355). -/
abbrev PULSE_INnWHI (n : Nat) : Nat := 0xF1C043 + 16 * n
abbrev PULSE_INnWHI_WHI : Fld := ⟨23, 0⟩
/-- Address of PULSE_INnDATA (spec/10_fast_measurement.md R355). -/
abbrev PULSE_INnDATA (n : Nat) : Nat := 0xF1C044 + 16 * n
abbrev PULSE_INnDATA_VAL : Fld := ⟨23, 0⟩
/-- Address of PULSE_INnQUAL (spec/10_fast_measurement.md R355). -/
abbrev PULSE_INnQUAL (n : Nat) : Nat := 0xF1C045 + 16 * n
abbrev PULSE_INnQUAL_QUAL : Fld := ⟨23, 0⟩
/-- Address of PULSE_INnTIME (spec/10_fast_measurement.md R355). -/
abbrev PULSE_INnTIME (n : Nat) : Nat := 0xF1C046 + 16 * n
abbrev PULSE_INnTIME_STAMP : Fld := ⟨23, 0⟩
/-- Address of PULSE_INnCOUNT (spec/10_fast_measurement.md R355). -/
abbrev PULSE_INnCOUNT (n : Nat) : Nat := 0xF1C047 + 16 * n
abbrev PULSE_INnCOUNT_COUNT : Fld := ⟨23, 0⟩
/-- Address of PULSE_INnSTAT (spec/10_fast_measurement.md R355). -/
abbrev PULSE_INnSTAT (n : Nat) : Nat := 0xF1C048 + 16 * n
abbrev PULSE_INnSTAT_STALEF : Fld := ⟨23, 23⟩
abbrev PULSE_INnSTAT_RANGEF : Fld := ⟨22, 22⟩
abbrev PULSE_INnSTAT_OUT : Fld := ⟨21, 21⟩
abbrev PULSE_INnSTAT_SIDE : Fld := ⟨20, 20⟩
abbrev PULSE_INnSTAT_LEVEL : Fld := ⟨19, 19⟩
abbrev PULSE_INnSTAT_GLITCH : Fld := ⟨7, 0⟩
/-- Address of COND_PkCFG (spec/10_fast_measurement.md R355). -/
abbrev COND_PkCFG (k : Nat) : Nat := 0xF1D000 + 16 * k
abbrev COND_PkCFG_EN : Fld := ⟨23, 23⟩
abbrev COND_PkCFG_PKT : Fld := ⟨22, 22⟩
abbrev COND_PkCFG_FREQ : Fld := ⟨21, 19⟩
abbrev COND_PkCFG_AMP : Fld := ⟨18, 17⟩
abbrev COND_PkCFG_RANGE : Fld := ⟨16, 15⟩
abbrev COND_PkCFG_NAVG : Fld := ⟨7, 0⟩
/-- Address of COND_PkGAIN (spec/10_fast_measurement.md R355). -/
abbrev COND_PkGAIN (k : Nat) : Nat := 0xF1D001 + 16 * k
abbrev COND_PkGAIN_GAIN : Fld := ⟨23, 0⟩
/-- Address of COND_PkHYG (spec/10_fast_measurement.md R355). -/
abbrev COND_PkHYG (k : Nat) : Nat := 0xF1D002 + 16 * k
abbrev COND_PkHYG_WEN : Fld := ⟨23, 23⟩
abbrev COND_PkHYG_WCNT : Fld := ⟨22, 16⟩
abbrev COND_PkHYG_TMO : Fld := ⟨15, 0⟩
/-- Address of COND_PkWLO (spec/10_fast_measurement.md R355). -/
abbrev COND_PkWLO (k : Nat) : Nat := 0xF1D003 + 16 * k
abbrev COND_PkWLO_WLO : Fld := ⟨23, 0⟩
/-- Address of COND_PkWHI (spec/10_fast_measurement.md R355). -/
abbrev COND_PkWHI (k : Nat) : Nat := 0xF1D004 + 16 * k
abbrev COND_PkWHI_WHI : Fld := ⟨23, 0⟩
/-- Address of COND_PkDATA (spec/10_fast_measurement.md R355). -/
abbrev COND_PkDATA (k : Nat) : Nat := 0xF1D005 + 16 * k
abbrev COND_PkDATA_Y : Fld := ⟨23, 0⟩
/-- Address of COND_PkQUAL (spec/10_fast_measurement.md R355). -/
abbrev COND_PkQUAL (k : Nat) : Nat := 0xF1D006 + 16 * k
abbrev COND_PkQUAL_QUAL : Fld := ⟨23, 0⟩
/-- Address of COND_PkTIME (spec/10_fast_measurement.md R355). -/
abbrev COND_PkTIME (k : Nat) : Nat := 0xF1D007 + 16 * k
abbrev COND_PkTIME_STAMP : Fld := ⟨23, 0⟩
/-- Address of COND_PkSTAT (spec/10_fast_measurement.md R355). -/
abbrev COND_PkSTAT (k : Nat) : Nat := 0xF1D008 + 16 * k
abbrev COND_PkSTAT_STALEF : Fld := ⟨23, 23⟩
abbrev COND_PkSTAT_RANGEF : Fld := ⟨22, 22⟩
abbrev COND_PkSTAT_FAULTF : Fld := ⟨21, 21⟩
abbrev COND_PkSTAT_OUT : Fld := ⟨20, 20⟩
abbrev COND_PkSTAT_SIDE : Fld := ⟨19, 19⟩
abbrev COND_PkSTAT_LIMNOW : Fld := ⟨18, 18⟩
abbrev COND_PkSTAT_STALECNT : Fld := ⟨7, 0⟩
/-- Address of BR_CTL (spec/11_actuation_clasp.md R399). -/
abbrev BR_CTL : Nat := 0xF20000
abbrev BR_CTL_VGDEN : Fld := ⟨23, 23⟩
abbrev BR_CTL_EN : Fld := ⟨3, 0⟩
/-- Address of BR_SYNC (spec/11_actuation_clasp.md R399). -/
abbrev BR_SYNC : Nat := 0xF20001
abbrev BR_SYNC_SYNC : Fld := ⟨3, 0⟩
/-- Address of BR_VGDSTAT (spec/11_actuation_clasp.md R399). -/
abbrev BR_VGDSTAT : Nat := 0xF20002
abbrev BR_VGDSTAT_UVF : Fld := ⟨23, 23⟩
abbrev BR_VGDSTAT_UVNOW : Fld := ⟨22, 22⟩
/-- Address of BR_bCFG (spec/11_actuation_clasp.md R399). -/
abbrev BR_bCFG (b : Nat) : Nat := 0xF20040 + 32 * b
abbrev BR_bCFG_ALIGN : Fld := ⟨23, 23⟩
abbrev BR_bCFG_TRIPMODE : Fld := ⟨22, 22⟩
abbrev BR_bCFG_SHGAIN : Fld := ⟨21, 20⟩
abbrev BR_bCFG_PEREV : Fld := ⟨19, 19⟩
abbrev BR_bCFG_PER : Fld := ⟨15, 0⟩
/-- Address of BR_bDT (spec/11_actuation_clasp.md R399). -/
abbrev BR_bDT (b : Nat) : Nat := 0xF20041 + 32 * b
abbrev BR_bDT_DT : Fld := ⟨10, 0⟩
/-- Address of BR_bTRGA (spec/11_actuation_clasp.md R399). -/
abbrev BR_bTRGA (b : Nat) : Nat := 0xF20042 + 32 * b
abbrev BR_bTRGA_CYC : Fld := ⟨15, 0⟩
/-- Address of BR_bTRGB (spec/11_actuation_clasp.md R399). -/
abbrev BR_bTRGB (b : Nat) : Nat := 0xF20043 + 32 * b
abbrev BR_bTRGB_CYC : Fld := ⟨15, 0⟩
/-- Address of BR_bOC (spec/11_actuation_clasp.md R399). -/
abbrev BR_bOC (b : Nat) : Nat := 0xF20044 + 32 * b
abbrev BR_bOC_BLANK : Fld := ⟨15, 8⟩
abbrev BR_bOC_OCTH : Fld := ⟨7, 0⟩
/-- Address of BR_bSTAT (spec/11_actuation_clasp.md R399). -/
abbrev BR_bSTAT (b : Nat) : Nat := 0xF20045 + 32 * b
abbrev BR_bSTAT_TRIPF : Fld := ⟨23, 23⟩
abbrev BR_bSTAT_TRIPNOW : Fld := ⟨22, 22⟩
abbrev BR_bSTAT_BSTUVF : Fld := ⟨21, 19⟩
abbrev BR_bSTAT_BSTUVNOW : Fld := ⟨18, 16⟩
abbrev BR_bSTAT_TRIPCNT : Fld := ⟨15, 8⟩
abbrev BR_bSTAT_OFF : Fld := ⟨2, 0⟩
/-- Address of BR_bONp (spec/11_actuation_clasp.md R399). -/
abbrev BR_bONp (b p : Nat) : Nat := 0xF20046 + 32 * b + p
abbrev BR_bONp_ON : Fld := ⟨15, 0⟩
/-- Address of SOL_CTL (spec/11_actuation_clasp.md R400). -/
abbrev SOL_CTL : Nat := 0xF24000
abbrev SOL_CTL_EN : Fld := ⟨15, 0⟩
/-- Address of SOL_SEQ (spec/11_actuation_clasp.md R400). -/
abbrev SOL_SEQ : Nat := 0xF24001
abbrev SOL_SEQ_PEAKN : Fld := ⟨23, 20⟩
abbrev SOL_SEQ_QLEN : Fld := ⟨19, 16⟩
abbrev SOL_SEQ_QMAX : Fld := ⟨15, 0⟩
/-- Address of SOL_DLYCNT (spec/11_actuation_clasp.md R400). -/
abbrev SOL_DLYCNT : Nat := 0xF24002
abbrev SOL_DLYCNT_COUNT : Fld := ⟨23, 0⟩
/-- Address of SOL_cCFG (spec/11_actuation_clasp.md R400). -/
abbrev SOL_cCFG (c : Nat) : Nat := 0xF24040 + 16 * c
abbrev SOL_cCFG_IHOLD : Fld := ⟨23, 20⟩
abbrev SOL_cCFG_IPK : Fld := ⟨14, 8⟩
/-- Address of SOL_cTPK (spec/11_actuation_clasp.md R400). -/
abbrev SOL_cTPK (c : Nat) : Nat := 0xF24041 + 16 * c
abbrev SOL_cTPK_TPK : Fld := ⟨13, 0⟩
/-- Address of SOL_cSTAT (spec/11_actuation_clasp.md R400). -/
abbrev SOL_cSTAT (c : Nat) : Nat := 0xF24042 + 16 * c
abbrev SOL_cSTAT_OPENF : Fld := ⟨23, 23⟩
abbrev SOL_cSTAT_SHORTF : Fld := ⟨22, 22⟩
abbrev SOL_cSTAT_STATE : Fld := ⟨21, 20⟩
abbrev SOL_cSTAT_PKREFF : Fld := ⟨19, 19⟩
abbrev SOL_cSTAT_IMON : Fld := ⟨10, 0⟩
/-- Address of SOL_cDLY (spec/11_actuation_clasp.md R400). -/
abbrev SOL_cDLY (c : Nat) : Nat := 0xF24043 + 16 * c
abbrev SOL_cDLY_WAIT : Fld := ⟨15, 0⟩
/-- Address of SSR_CTL (spec/11_actuation_clasp.md R401). -/
abbrev SSR_CTL : Nat := 0xF26000
abbrev SSR_CTL_EN : Fld := ⟨7, 0⟩
/-- Address of SSR_ZCkCFG (spec/11_actuation_clasp.md R401). -/
abbrev SSR_ZCkCFG (k : Nat) : Nat := 0xF26001 + k
abbrev SSR_ZCkCFG_EN : Fld := ⟨23, 23⟩
abbrev SSR_ZCkCFG_ZFLT : Fld := ⟨19, 12⟩
abbrev SSR_ZCkCFG_ZOFS : Fld := ⟨11, 0⟩
/-- Address of SSR_ZCkSTAT (spec/11_actuation_clasp.md R401). -/
abbrev SSR_ZCkSTAT (k : Nat) : Nat := 0xF26003 + k
abbrev SSR_ZCkSTAT_LOST : Fld := ⟨23, 23⟩
abbrev SSR_ZCkSTAT_LOSTF : Fld := ⟨22, 22⟩
abbrev SSR_ZCkSTAT_HALF : Fld := ⟨15, 0⟩
/-- Address of SSR_oCFG (spec/11_actuation_clasp.md R401). -/
abbrev SSR_oCFG (o : Nat) : Nat := 0xF26010 + 8 * o
abbrev SSR_oCFG_MODE : Fld := ⟨23, 22⟩
abbrev SSR_oCFG_ZSEL : Fld := ⟨21, 21⟩
abbrev SSR_oCFG_PW : Fld := ⟨6, 0⟩
/-- Address of SSR_oSTAT (spec/11_actuation_clasp.md R401). -/
abbrev SSR_oSTAT (o : Nat) : Nat := 0xF26011 + 8 * o
abbrev SSR_oSTAT_OCF : Fld := ⟨23, 23⟩
abbrev SSR_oSTAT_ON : Fld := ⟨22, 22⟩
abbrev SSR_oSTAT_ZCWAIT : Fld := ⟨21, 21⟩
abbrev SSR_oSTAT_HCNT : Fld := ⟨15, 0⟩
/-- Address of CL_BANK (spec/11_actuation_clasp.md R402). -/
abbrev CL_BANK : Nat := 0xF28000
abbrev CL_BANK_PEND : Fld := ⟨23, 23⟩
abbrev CL_BANK_ACT : Fld := ⟨22, 22⟩
abbrev CL_BANK_SWAP : Fld := ⟨0, 0⟩
/-- Address of CL_ARM0 (spec/11_actuation_clasp.md R402). -/
abbrev CL_ARM0 : Nat := 0xF28001
abbrev CL_ARM0_ARM : Fld := ⟨23, 0⟩
/-- Address of CL_ARM1 (spec/11_actuation_clasp.md R402). -/
abbrev CL_ARM1 : Nat := 0xF28002
abbrev CL_ARM1_ARM : Fld := ⟨11, 0⟩
/-- Address of CL_HOLD (spec/11_actuation_clasp.md R402). -/
abbrev CL_HOLD : Nat := 0xF28003
abbrev CL_HOLD_HTO : Fld := ⟨15, 8⟩
abbrev CL_HOLD_HOLD : Fld := ⟨7, 0⟩
/-- Address of CL_SHED (spec/11_actuation_clasp.md R402). -/
abbrev CL_SHED : Nat := 0xF28004
abbrev CL_SHED_STEPS : Fld := ⟨2, 0⟩
/-- Address of CL_RTRIP0 (spec/11_actuation_clasp.md R402). -/
abbrev CL_RTRIP0 : Nat := 0xF28005
abbrev CL_RTRIP0_TRIP : Fld := ⟨23, 0⟩
/-- Address of CL_RTRIP1 (spec/11_actuation_clasp.md R402). -/
abbrev CL_RTRIP1 : Nat := 0xF28006
abbrev CL_RTRIP1_TRIP : Fld := ⟨23, 0⟩
/-- Address of CL_RLAT0 (spec/11_actuation_clasp.md R402). -/
abbrev CL_RLAT0 : Nat := 0xF28007
abbrev CL_RLAT0_LAT : Fld := ⟨23, 0⟩
/-- Address of CL_RLAT1 (spec/11_actuation_clasp.md R402). -/
abbrev CL_RLAT1 : Nat := 0xF28008
abbrev CL_RLAT1_LAT : Fld := ⟨23, 0⟩
/-- Address of CL_GCNT (spec/11_actuation_clasp.md R402). -/
abbrev CL_GCNT : Nat := 0xF28009
abbrev CL_GCNT_COUNT : Fld := ⟨8, 0⟩
/-- Address of CL_KOUT (spec/11_actuation_clasp.md R402). -/
abbrev CL_KOUT : Nat := 0xF2800A
abbrev CL_KOUT_OUT : Fld := ⟨5, 0⟩
/-- Address of CL_KVAL (spec/11_actuation_clasp.md R402). -/
abbrev CL_KVAL : Nat := 0xF2800B
abbrev CL_KVAL_VAL : Fld := ⟨23, 0⟩
/-- Address of CL_REFCNT (spec/11_actuation_clasp.md R402). -/
abbrev CL_REFCNT : Nat := 0xF2800C
abbrev CL_REFCNT_COUNT : Fld := ⟨23, 0⟩
/-- Address of CL_LIMCNT (spec/11_actuation_clasp.md R402). -/
abbrev CL_LIMCNT : Nat := 0xF2800D
abbrev CL_LIMCNT_COUNT : Fld := ⟨23, 0⟩
/-- Address of CL_WREFCNT (spec/11_actuation_clasp.md R402). -/
abbrev CL_WREFCNT : Nat := 0xF2800E
abbrev CL_WREFCNT_COUNT : Fld := ⟨23, 0⟩
/-- Address of CL_LOGHEAD (spec/11_actuation_clasp.md R402). -/
abbrev CL_LOGHEAD : Nat := 0xF2800F
abbrev CL_LOGHEAD_HEAD : Fld := ⟨2, 0⟩
/-- Address of CL_HGRPj (spec/11_actuation_clasp.md R402). -/
abbrev CL_HGRPj (j : Nat) : Nat := 0xF28010 + j
abbrev CL_HGRPj_RELCMD : Fld := ⟨23, 23⟩
abbrev CL_HGRPj_HOLDT : Fld := ⟨15, 0⟩
/-- Address of CL_LOGAi (spec/11_actuation_clasp.md R402). -/
abbrev CL_LOGAi (i : Nat) : Nat := 0xF28020 + 2 * i
abbrev CL_LOGAi_V : Fld := ⟨23, 23⟩
abbrev CL_LOGAi_REASON : Fld := ⟨22, 20⟩
abbrev CL_LOGAi_CID : Fld := ⟨19, 10⟩
abbrev CL_LOGAi_OUT : Fld := ⟨5, 0⟩
/-- Address of CL_LOGBi (spec/11_actuation_clasp.md R402). -/
abbrev CL_LOGBi (i : Nat) : Nat := 0xF28021 + 2 * i
abbrev CL_LOGBi_DT : Fld := ⟨23, 0⟩
/-- Address of CL_INi (spec/11_actuation_clasp.md R402). -/
abbrev CL_INi (i : Nat) : Nat := 0xF28040 + i
abbrev CL_INi_EN : Fld := ⟨23, 23⟩
abbrev CL_INi_OUT : Fld := ⟨21, 16⟩
abbrev CL_INi_STRAND : Fld := ⟨8, 0⟩
/-- Address of CL_oVAL (spec/11_actuation_clasp.md R402). -/
abbrev CL_oVAL (o : Nat) : Nat := 0xF28100 + 4 * o
abbrev CL_oVAL_VAL : Fld := ⟨23, 0⟩
/-- Address of CL_oTGT (spec/11_actuation_clasp.md R402). -/
abbrev CL_oTGT (o : Nat) : Nat := 0xF28101 + 4 * o
abbrev CL_oTGT_TGT : Fld := ⟨23, 0⟩
/-- Address of CL_oSTAT (spec/11_actuation_clasp.md R402). -/
abbrev CL_oSTAT (o : Nat) : Nat := 0xF28102 + 4 * o
abbrev CL_oSTAT_ARMED : Fld := ⟨23, 23⟩
abbrev CL_oSTAT_HELD : Fld := ⟨22, 22⟩
abbrev CL_oSTAT_FORCED : Fld := ⟨21, 21⟩
abbrev CL_oSTAT_ELIMF : Fld := ⟨20, 20⟩
abbrev CL_oSTAT_WDOGF : Fld := ⟨19, 19⟩
abbrev CL_oSTAT_RAMP : Fld := ⟨18, 18⟩
abbrev CL_oSTAT_OWNER : Fld := ⟨9, 0⟩
/-- Address of CL_oEINT (spec/11_actuation_clasp.md R402). -/
abbrev CL_oEINT (o : Nat) : Nat := 0xF28103 + 4 * o
abbrev CL_oEINT_I : Fld := ⟨23, 0⟩
/-- Address of TIME_DTL (spec/12_time.md R426). -/
abbrev TIME_DTL : Nat := 0xF05000
abbrev TIME_DTL_DT : Fld := ⟨23, 0⟩
/-- Address of TIME_DTH (spec/12_time.md R426). -/
abbrev TIME_DTH : Nat := 0xF05001
abbrev TIME_DTH_DT : Fld := ⟨23, 0⟩
/-- Address of TIME_DTX (spec/12_time.md R426). -/
abbrev TIME_DTX : Nat := 0xF05002
abbrev TIME_DTX_WRAPS : Fld := ⟨23, 0⟩
/-- Address of TIME_STAT (spec/12_time.md R426). -/
abbrev TIME_STAT : Nat := 0xF05003
abbrev TIME_STAT_TQ : Fld := ⟨23, 22⟩
abbrev TIME_STAT_LOCK : Fld := ⟨21, 21⟩
abbrev TIME_STAT_SLEWING : Fld := ⟨20, 20⟩
abbrev TIME_STAT_FRZ : Fld := ⟨19, 19⟩
abbrev TIME_STAT_GPEND : Fld := ⟨18, 18⟩
abbrev TIME_STAT_RESTF : Fld := ⟨17, 17⟩
/-- Address of TIME_SLEW (spec/12_time.md R426). -/
abbrev TIME_SLEW : Nat := 0xF05004
abbrev TIME_SLEW_TICKS : Fld := ⟨23, 0⟩
/-- Address of TIME_SLEWREM (spec/12_time.md R426). -/
abbrev TIME_SLEWREM : Nat := 0xF05005
abbrev TIME_SLEWREM_REM : Fld := ⟨23, 0⟩
/-- Address of TIME_SLEWCFG (spec/12_time.md R426). -/
abbrev TIME_SLEWCFG : Nat := 0xF05006
abbrev TIME_SLEWCFG_SLEWI : Fld := ⟨9, 0⟩
/-- Address of TIME_GSTART (spec/12_time.md R426). -/
abbrev TIME_GSTART : Nat := 0xF05008
abbrev TIME_GSTART_AT : Fld := ⟨23, 23⟩
abbrev TIME_GSTART_GRP : Fld := ⟨7, 0⟩
/-- Address of TIME_GSATL (spec/12_time.md R426). -/
abbrev TIME_GSATL : Nat := 0xF0500A
abbrev TIME_GSATL_T : Fld := ⟨23, 0⟩
/-- Address of TIME_GSATH (spec/12_time.md R426). -/
abbrev TIME_GSATH : Nat := 0xF0500B
abbrev TIME_GSATH_T : Fld := ⟨23, 0⟩
/-- Address of TCn_CFG (spec/12_time.md R426). -/
abbrev TCn_CFG (n : Nat) : Nat := 0xF05100 + 8 * n
abbrev TCn_CFG_EN : Fld := ⟨23, 23⟩
abbrev TCn_CFG_STG : Fld := ⟨22, 22⟩
abbrev TCn_CFG_GRP : Fld := ⟨21, 19⟩
abbrev TCn_CFG_ONE : Fld := ⟨18, 18⟩
abbrev TCn_CFG_FRZ : Fld := ⟨17, 17⟩
abbrev TCn_CFG_CAPDT : Fld := ⟨16, 16⟩
abbrev TCn_CFG_CEDGE : Fld := ⟨15, 14⟩
abbrev TCn_CFG_CSEL : Fld := ⟨13, 9⟩
abbrev TCn_CFG_PRE : Fld := ⟨7, 0⟩
/-- Address of TCn_CNT (spec/12_time.md R426). -/
abbrev TCn_CNT (n : Nat) : Nat := 0xF05101 + 8 * n
abbrev TCn_CNT_CNT : Fld := ⟨23, 0⟩
/-- Address of TCn_CMP (spec/12_time.md R426). -/
abbrev TCn_CMP (n : Nat) : Nat := 0xF05102 + 8 * n
abbrev TCn_CMP_CMP : Fld := ⟨23, 0⟩
/-- Address of TCn_INT (spec/12_time.md R426). -/
abbrev TCn_INT (n : Nat) : Nat := 0xF05103 + 8 * n
abbrev TCn_INT_INT : Fld := ⟨23, 0⟩
/-- Address of TCn_CAP (spec/12_time.md R426). -/
abbrev TCn_CAP (n : Nat) : Nat := 0xF05104 + 8 * n
abbrev TCn_CAP_CAP : Fld := ⟨23, 0⟩
/-- Address of TCn_STAT (spec/12_time.md R426). -/
abbrev TCn_STAT (n : Nat) : Nat := 0xF05105 + 8 * n
abbrev TCn_STAT_CMPF : Fld := ⟨23, 23⟩
abbrev TCn_STAT_CAPV : Fld := ⟨22, 22⟩
abbrev TCn_STAT_CAPLOST : Fld := ⟨21, 21⟩
abbrev TCn_STAT_RUN : Fld := ⟨20, 20⟩
abbrev TCn_STAT_STGW : Fld := ⟨19, 19⟩
abbrev TCn_STAT_SWCAP : Fld := ⟨18, 18⟩
abbrev TCn_STAT_TQ : Fld := ⟨17, 16⟩
/-- Address of REF_TBCTL (spec/12_time.md R427). -/
abbrev REF_TBCTL : Nat := 0xF04000
abbrev REF_TBCTL_AUTOCOR : Fld := ⟨23, 23⟩
abbrev REF_TBCTL_AUTORET : Fld := ⟨22, 22⟩
abbrev REF_TBCTL_XEN : Fld := ⟨21, 21⟩
abbrev REF_TBCTL_EEN : Fld := ⟨20, 20⟩
abbrev REF_TBCTL_EXTF : Fld := ⟨19, 19⟩
abbrev REF_TBCTL_RANK2 : Fld := ⟨5, 4⟩
abbrev REF_TBCTL_RANK1 : Fld := ⟨3, 2⟩
abbrev REF_TBCTL_RANK0 : Fld := ⟨1, 0⟩
/-- Address of REF_TBSTAT (spec/12_time.md R427). -/
abbrev REF_TBSTAT : Nat := 0xF04001
abbrev REF_TBSTAT_HOLDOVER : Fld := ⟨23, 23⟩
abbrev REF_TBSTAT_NOREF : Fld := ⟨22, 22⟩
abbrev REF_TBSTAT_SEL : Fld := ⟨21, 20⟩
abbrev REF_TBSTAT_OC2 : Fld := ⟨13, 12⟩
abbrev REF_TBSTAT_OC1 : Fld := ⟨11, 10⟩
abbrev REF_TBSTAT_OC0 : Fld := ⟨9, 8⟩
abbrev REF_TBSTAT_ST2 : Fld := ⟨5, 4⟩
abbrev REF_TBSTAT_ST1 : Fld := ⟨3, 2⟩
abbrev REF_TBSTAT_ST0 : Fld := ⟨1, 0⟩
/-- Address of REF_OFSk (spec/12_time.md R427). -/
abbrev REF_OFSk (k : Nat) : Nat := 0xF04002 + k
abbrev REF_OFSk_OFS : Fld := ⟨23, 0⟩
/-- Address of REF_AWUCAL (spec/12_time.md R427). -/
abbrev REF_AWUCAL : Nat := 0xF04005
abbrev REF_AWUCAL_PER : Fld := ⟨23, 0⟩
/-- Address of REF_BGCTL (spec/12_time.md R427). -/
abbrev REF_BGCTL : Nat := 0xF04010
abbrev REF_BGCTL_RANK2 : Fld := ⟨5, 4⟩
abbrev REF_BGCTL_RANK1 : Fld := ⟨3, 2⟩
abbrev REF_BGCTL_RANK0 : Fld := ⟨1, 0⟩
/-- Address of REF_BGSTAT (spec/12_time.md R427). -/
abbrev REF_BGSTAT : Nat := 0xF04011
abbrev REF_BGSTAT_DIS : Fld := ⟨23, 23⟩
abbrev REF_BGSTAT_SEL : Fld := ⟨21, 20⟩
abbrev REF_BGSTAT_ST2 : Fld := ⟨5, 4⟩
abbrev REF_BGSTAT_ST1 : Fld := ⟨3, 2⟩
abbrev REF_BGSTAT_ST0 : Fld := ⟨1, 0⟩
/-- Address of REF_BGDk (spec/12_time.md R427). -/
abbrev REF_BGDk (k : Nat) : Nat := 0xF04012 + k
abbrev REF_BGDk_D : Fld := ⟨23, 0⟩
/-- Address of ETH_CTL (spec/13_communication.md R458). -/
abbrev ETH_CTL : Nat := 0xF30000
abbrev ETH_CTL_EN : Fld := ⟨23, 23⟩
abbrev ETH_CTL_TXEN : Fld := ⟨22, 22⟩
abbrev ETH_CTL_RXEN : Fld := ⟨21, 21⟩
abbrev ETH_CTL_REFOUT : Fld := ⟨20, 20⟩
abbrev ETH_CTL_SPD : Fld := ⟨19, 19⟩
abbrev ETH_CTL_FD : Fld := ⟨18, 18⟩
abbrev ETH_CTL_PROM : Fld := ⟨17, 17⟩
abbrev ETH_CTL_BCAST : Fld := ⟨16, 16⟩
abbrev ETH_CTL_LPOLL : Fld := ⟨15, 15⟩
abbrev ETH_CTL_LPHY : Fld := ⟨14, 10⟩
abbrev ETH_CTL_OWN : Fld := ⟨9, 0⟩
/-- Address of ETH_MACw (spec/13_communication.md R458). -/
abbrev ETH_MACw (w : Nat) : Nat := 0xF30001 + w
abbrev ETH_MACw_MAC : Fld := ⟨23, 0⟩
/-- Address of ETH_RBASEd (spec/13_communication.md R458). -/
abbrev ETH_RBASEd (d : Nat) : Nat := 0xF30004 + d
abbrev ETH_RBASEd_BASE : Fld := ⟨23, 7⟩
abbrev ETH_RBASEd_N : Fld := ⟨4, 0⟩
/-- Address of ETH_STAT (spec/13_communication.md R458). -/
abbrev ETH_STAT : Nat := 0xF30006
abbrev ETH_STAT_LINK : Fld := ⟨23, 23⟩
abbrev ETH_STAT_HOLD : Fld := ⟨22, 22⟩
abbrev ETH_STAT_TXACT : Fld := ⟨21, 21⟩
abbrev ETH_STAT_TXPOLL : Fld := ⟨20, 20⟩
abbrev ETH_STAT_TXIDX : Fld := ⟨14, 10⟩
abbrev ETH_STAT_RXIDX : Fld := ⟨9, 5⟩
/-- Address of ETH_MDC (spec/13_communication.md R458). -/
abbrev ETH_MDC : Nat := 0xF30007
abbrev ETH_MDC_GO : Fld := ⟨23, 23⟩
abbrev ETH_MDC_WR : Fld := ⟨22, 22⟩
abbrev ETH_MDC_PHY : Fld := ⟨21, 17⟩
abbrev ETH_MDC_REG : Fld := ⟨16, 12⟩
/-- Address of ETH_MDD (spec/13_communication.md R458). -/
abbrev ETH_MDD : Nat := 0xF30008
abbrev ETH_MDD_DATA : Fld := ⟨15, 0⟩
/-- Address of ETH_CNT (spec/13_communication.md R458). -/
abbrev ETH_CNT : Nat := 0xF30009
abbrev ETH_CNT_CRCERR : Fld := ⟨23, 12⟩
abbrev ETH_CNT_RXDROP : Fld := ⟨11, 0⟩
/-- Address of CANc_CTL (spec/13_communication.md R459). -/
abbrev CANc_CTL (c : Nat) : Nat := 0xF32000 + 4096 * c
abbrev CANc_CTL_EN : Fld := ⟨23, 23⟩
abbrev CANc_CTL_FDEN : Fld := ⟨22, 22⟩
abbrev CANc_CTL_LOM : Fld := ⟨21, 21⟩
abbrev CANc_CTL_ABOR : Fld := ⟨20, 20⟩
abbrev CANc_CTL_IOSCOK : Fld := ⟨19, 19⟩
abbrev CANc_CTL_TXTO : Fld := ⟨15, 0⟩
/-- Address of CANc_NBT (spec/13_communication.md R459). -/
abbrev CANc_NBT (c : Nat) : Nat := 0xF32001 + 4096 * c
abbrev CANc_NBT_BRP : Fld := ⟨23, 19⟩
abbrev CANc_NBT_TS1 : Fld := ⟨18, 11⟩
abbrev CANc_NBT_TS2 : Fld := ⟨10, 4⟩
/-- Address of CANc_DBT (spec/13_communication.md R459). -/
abbrev CANc_DBT (c : Nat) : Nat := 0xF32002 + 4096 * c
abbrev CANc_DBT_BRP : Fld := ⟨23, 20⟩
abbrev CANc_DBT_TS1 : Fld := ⟨19, 14⟩
abbrev CANc_DBT_TS2 : Fld := ⟨13, 10⟩
abbrev CANc_DBT_TDC : Fld := ⟨9, 9⟩
abbrev CANc_DBT_TDCO : Fld := ⟨8, 1⟩
/-- Address of CANc_FIFO (spec/13_communication.md R459). -/
abbrev CANc_FIFO (c : Nat) : Nat := 0xF32004 + 4096 * c
abbrev CANc_FIFO_WORD : Fld := ⟨23, 0⟩
/-- Address of CANc_STAT (spec/13_communication.md R459). -/
abbrev CANc_STAT (c : Nat) : Nat := 0xF32005 + 4096 * c
abbrev CANc_STAT_STATE : Fld := ⟨23, 22⟩
abbrev CANc_STAT_HOLD : Fld := ⟨21, 21⟩
abbrev CANc_STAT_RXOVF : Fld := ⟨20, 20⟩
abbrev CANc_STAT_TXTOF : Fld := ⟨19, 19⟩
abbrev CANc_STAT_BADF : Fld := ⟨18, 18⟩
abbrev CANc_STAT_ABORT : Fld := ⟨17, 17⟩
abbrev CANc_STAT_RECOVER : Fld := ⟨16, 16⟩
abbrev CANc_STAT_TEC : Fld := ⟨15, 8⟩
abbrev CANc_STAT_REC : Fld := ⟨7, 0⟩
/-- Address of CANc_CNT (spec/13_communication.md R459). -/
abbrev CANc_CNT (c : Nat) : Nat := 0xF32006 + 4096 * c
abbrev CANc_CNT_RXN : Fld := ⟨23, 18⟩
abbrev CANc_CNT_TXN : Fld := ⟨17, 14⟩
abbrev CANc_CNT_RXDROP : Fld := ⟨13, 7⟩
abbrev CANc_CNT_TXTOCNT : Fld := ⟨6, 0⟩
/-- Address of CANc_FkCTL (spec/13_communication.md R459). -/
abbrev CANc_FkCTL (c k : Nat) : Nat := 0xF32040 + 4096 * c + 4 * k
abbrev CANc_FkCTL_EN : Fld := ⟨23, 23⟩
abbrev CANc_FkCTL_IDE : Fld := ⟨22, 22⟩
abbrev CANc_FkCTL_MIDE : Fld := ⟨21, 21⟩
abbrev CANc_FkCTL_MSK : Fld := ⟨9, 5⟩
abbrev CANc_FkCTL_ID : Fld := ⟨4, 0⟩
/-- Address of CANc_FkIDw (spec/13_communication.md R459). -/
abbrev CANc_FkIDw (c k w : Nat) : Nat := 0xF32041 + 4096 * c + 4 * k + w
abbrev CANc_FkIDw_BITS : Fld := ⟨23, 0⟩
/-- Address of UARTu_CTL (spec/13_communication.md R460). -/
abbrev UARTu_CTL (u : Nat) : Nat := 0xF34000 + 2048 * u
abbrev UARTu_CTL_EN : Fld := ⟨23, 23⟩
abbrev UARTu_CTL_RS485 : Fld := ⟨22, 22⟩
abbrev UARTu_CTL_DEPOL : Fld := ⟨21, 21⟩
abbrev UARTu_CTL_PAR : Fld := ⟨20, 19⟩
abbrev UARTu_CTL_STOP2 : Fld := ⟨18, 18⟩
abbrev UARTu_CTL_D7 : Fld := ⟨17, 17⟩
abbrev UARTu_CTL_ECHO : Fld := ⟨16, 16⟩
abbrev UARTu_CTL_RXFLT : Fld := ⟨15, 8⟩
abbrev UARTu_CTL_RTO : Fld := ⟨7, 0⟩
/-- Address of UARTu_BAUD (spec/13_communication.md R460). -/
abbrev UARTu_BAUD (u : Nat) : Nat := 0xF34001 + 2048 * u
abbrev UARTu_BAUD_OVS : Fld := ⟨23, 19⟩
abbrev UARTu_BAUD_DIV : Fld := ⟨17, 0⟩
/-- Address of UARTu_DATA (spec/13_communication.md R460). -/
abbrev UARTu_DATA (u : Nat) : Nat := 0xF34002 + 2048 * u
abbrev UARTu_DATA_BRK : Fld := ⟨10, 10⟩
abbrev UARTu_DATA_FE : Fld := ⟨9, 9⟩
abbrev UARTu_DATA_PE : Fld := ⟨8, 8⟩
abbrev UARTu_DATA_BYTE : Fld := ⟨7, 0⟩
/-- Address of UARTu_STAT (spec/13_communication.md R460). -/
abbrev UARTu_STAT (u : Nat) : Nat := 0xF34003 + 2048 * u
abbrev UARTu_STAT_RXOVF : Fld := ⟨23, 23⟩
abbrev UARTu_STAT_RTOF : Fld := ⟨22, 22⟩
abbrev UARTu_STAT_TXOVF : Fld := ⟨21, 21⟩
abbrev UARTu_STAT_TXIDLE : Fld := ⟨20, 20⟩
abbrev UARTu_STAT_RXN : Fld := ⟨19, 14⟩
abbrev UARTu_STAT_TXN : Fld := ⟨13, 8⟩
abbrev UARTu_STAT_ERRCNT : Fld := ⟨7, 0⟩
/-- Address of UARTu_DE (spec/13_communication.md R460). -/
abbrev UARTu_DE (u : Nat) : Nat := 0xF34004 + 2048 * u
abbrev UARTu_DE_DELEAD : Fld := ⟨15, 8⟩
abbrev UARTu_DE_DEHOLD : Fld := ⟨7, 0⟩
/-- Address of SPIs_CTL (spec/13_communication.md R461). -/
abbrev SPIs_CTL (s : Nat) : Nat := 0xF36000 + 2048 * s
abbrev SPIs_CTL_EN : Fld := ⟨23, 23⟩
abbrev SPIs_CTL_CPOL : Fld := ⟨22, 22⟩
abbrev SPIs_CTL_CPHA : Fld := ⟨21, 21⟩
abbrev SPIs_CTL_LSBF : Fld := ⟨20, 20⟩
abbrev SPIs_CTL_CS : Fld := ⟨19, 18⟩
abbrev SPIs_CTL_CSHOLD : Fld := ⟨17, 17⟩
abbrev SPIs_CTL_BITS : Fld := ⟨16, 12⟩
abbrev SPIs_CTL_STALL : Fld := ⟨11, 8⟩
abbrev SPIs_CTL_DIV : Fld := ⟨7, 0⟩
/-- Address of SPIs_DATA (spec/13_communication.md R461). -/
abbrev SPIs_DATA (s : Nat) : Nat := 0xF36001 + 2048 * s
abbrev SPIs_DATA_WORD : Fld := ⟨23, 0⟩
/-- Address of SPIs_STAT (spec/13_communication.md R461). -/
abbrev SPIs_STAT (s : Nat) : Nat := 0xF36002 + 2048 * s
abbrev SPIs_STAT_BUSY : Fld := ⟨23, 23⟩
abbrev SPIs_STAT_STALLF : Fld := ⟨22, 22⟩
abbrev SPIs_STAT_RXOVF : Fld := ⟨21, 21⟩
abbrev SPIs_STAT_TXOVF : Fld := ⟨20, 20⟩
abbrev SPIs_STAT_END : Fld := ⟨19, 19⟩
abbrev SPIs_STAT_RXN : Fld := ⟨14, 10⟩
abbrev SPIs_STAT_TXN : Fld := ⟨4, 0⟩
/-- Address of I2Cc_CTL (spec/13_communication.md R462). -/
abbrev I2Cc_CTL (c : Nat) : Nat := 0xF37000 + 1024 * c
abbrev I2Cc_CTL_EN : Fld := ⟨23, 23⟩
abbrev I2Cc_CTL_SCLTO : Fld := ⟨22, 16⟩
abbrev I2Cc_CTL_TLOW : Fld := ⟨15, 8⟩
abbrev I2Cc_CTL_THIGH : Fld := ⟨7, 0⟩
/-- Address of I2Cc_PORT (spec/13_communication.md R462). -/
abbrev I2Cc_PORT (c : Nat) : Nat := 0xF37001 + 1024 * c
abbrev I2Cc_PORT_OP : Fld := ⟨10, 8⟩
abbrev I2Cc_PORT_BYTE : Fld := ⟨7, 0⟩
/-- Address of I2Cc_STAT (spec/13_communication.md R462). -/
abbrev I2Cc_STAT (c : Nat) : Nat := 0xF37002 + 1024 * c
abbrev I2Cc_STAT_BUSY : Fld := ⟨23, 23⟩
abbrev I2Cc_STAT_BUSBUSY : Fld := ⟨22, 22⟩
abbrev I2Cc_STAT_NACKF : Fld := ⟨21, 21⟩
abbrev I2Cc_STAT_ARBF : Fld := ⟨20, 20⟩
abbrev I2Cc_STAT_TOF : Fld := ⟨19, 19⟩
abbrev I2Cc_STAT_CMDOVF : Fld := ⟨18, 18⟩
abbrev I2Cc_STAT_CMDN : Fld := ⟨9, 5⟩
abbrev I2Cc_STAT_RXN : Fld := ⟨4, 0⟩
/-- Address of I2CT_CFG (spec/13_communication.md R462). -/
abbrev I2CT_CFG : Nat := 0xF37800
abbrev I2CT_CFG_EN : Fld := ⟨23, 23⟩
abbrev I2CT_CFG_WAKE : Fld := ⟨22, 22⟩
abbrev I2CT_CFG_ADDR : Fld := ⟨20, 14⟩
abbrev I2CT_CFG_STRMAX : Fld := ⟨7, 0⟩
/-- Address of I2CT_PORT (spec/13_communication.md R462). -/
abbrev I2CT_PORT : Nat := 0xF37801
abbrev I2CT_PORT_FIRST : Fld := ⟨8, 8⟩
abbrev I2CT_PORT_BYTE : Fld := ⟨7, 0⟩
/-- Address of I2CT_STAT (spec/13_communication.md R462). -/
abbrev I2CT_STAT : Nat := 0xF37802
abbrev I2CT_STAT_ACTIVE : Fld := ⟨23, 23⟩
abbrev I2CT_STAT_RD : Fld := ⟨22, 22⟩
abbrev I2CT_STAT_STRTOF : Fld := ⟨21, 21⟩
abbrev I2CT_STAT_STRETCH : Fld := ⟨20, 20⟩
abbrev I2CT_STAT_WAKEF : Fld := ⟨19, 19⟩
abbrev I2CT_STAT_TXOVF : Fld := ⟨18, 18⟩
abbrev I2CT_STAT_RXN : Fld := ⟨7, 4⟩
abbrev I2CT_STAT_TXN : Fld := ⟨3, 0⟩
/-- Address of USB_CTL (spec/13_communication.md R463). -/
abbrev USB_CTL : Nat := 0xF38000
abbrev USB_CTL_EN : Fld := ⟨23, 23⟩
abbrev USB_CTL_ATTACH : Fld := ⟨22, 22⟩
abbrev USB_CTL_ADDR : Fld := ⟨6, 0⟩
/-- Address of USB_STAT (spec/13_communication.md R463). -/
abbrev USB_STAT : Nat := 0xF38001
abbrev USB_STAT_VBUS : Fld := ⟨23, 23⟩
abbrev USB_STAT_ATT : Fld := ⟨22, 22⟩
abbrev USB_STAT_HELD : Fld := ⟨21, 21⟩
abbrev USB_STAT_SUSP : Fld := ⟨20, 20⟩
abbrev USB_STAT_RESETF : Fld := ⟨19, 19⟩
abbrev USB_STAT_RESUMEF : Fld := ⟨18, 18⟩
abbrev USB_STAT_FRAME : Fld := ⟨10, 0⟩
/-- Address of USB_EPeCFG (spec/13_communication.md R463). -/
abbrev USB_EPeCFG (e : Nat) : Nat := 0xF38010 + e
abbrev USB_EPeCFG_EN : Fld := ⟨23, 23⟩
abbrev USB_EPeCFG_STALL : Fld := ⟨22, 22⟩
abbrev USB_EPeCFG_TYPE : Fld := ⟨21, 20⟩
abbrev USB_EPeCFG_RDY : Fld := ⟨19, 19⟩
abbrev USB_EPeCFG_TGL : Fld := ⟨18, 18⟩
abbrev USB_EPeCFG_SETUP : Fld := ⟨17, 17⟩
abbrev USB_EPeCFG_CNT : Fld := ⟨6, 0⟩
/-- Address of USB_EPeBUFw (spec/13_communication.md R463). -/
abbrev USB_EPeBUFw (e w : Nat) : Nat := 0xF38100 + 32 * e + w
abbrev USB_EPeBUFw_BYTES : Fld := ⟨23, 0⟩
/-- Address of XSPI_CTL (spec/13_communication.md R464). -/
abbrev XSPI_CTL : Nat := 0xF39000
abbrev XSPI_CTL_EN : Fld := ⟨23, 23⟩
abbrev XSPI_CTL_OCT : Fld := ⟨22, 22⟩
abbrev XSPI_CTL_DUMMY : Fld := ⟨21, 16⟩
abbrev XSPI_CTL_RDOP : Fld := ⟨15, 8⟩
abbrev XSPI_CTL_AHI : Fld := ⟨7, 0⟩
/-- Address of XSPI_BASE (spec/13_communication.md R464). -/
abbrev XSPI_BASE : Nat := 0xF39001
abbrev XSPI_BASE_BASE : Fld := ⟨15, 0⟩
/-- Address of XSPI_CMD (spec/13_communication.md R464). -/
abbrev XSPI_CMD : Nat := 0xF39002
abbrev XSPI_CMD_GO : Fld := ⟨23, 23⟩
abbrev XSPI_CMD_WR : Fld := ⟨22, 22⟩
abbrev XSPI_CMD_ALEN : Fld := ⟨21, 20⟩
abbrev XSPI_CMD_POLL : Fld := ⟨19, 19⟩
abbrev XSPI_CMD_DUMMYEN : Fld := ⟨18, 18⟩
abbrev XSPI_CMD_NBYTE : Fld := ⟨15, 8⟩
abbrev XSPI_CMD_OP : Fld := ⟨7, 0⟩
/-- Address of XSPI_ADDR (spec/13_communication.md R464). -/
abbrev XSPI_ADDR : Nat := 0xF39003
abbrev XSPI_ADDR_ADDR : Fld := ⟨23, 0⟩
/-- Address of XSPI_POLL (spec/13_communication.md R464). -/
abbrev XSPI_POLL : Nat := 0xF39004
abbrev XSPI_POLL_POLLOP : Fld := ⟨23, 16⟩
abbrev XSPI_POLL_BIT : Fld := ⟨15, 13⟩
abbrev XSPI_POLL_TMO : Fld := ⟨11, 0⟩
/-- Address of XSPI_STAT (spec/13_communication.md R464). -/
abbrev XSPI_STAT : Nat := 0xF39005
abbrev XSPI_STAT_BUSY : Fld := ⟨23, 23⟩
abbrev XSPI_STAT_TOF : Fld := ⟨22, 22⟩
abbrev XSPI_STAT_WBUSYF : Fld := ⟨21, 21⟩
abbrev XSPI_STAT_WBUSYCNT : Fld := ⟨11, 0⟩
/-- Address of XSPI_BUFw (spec/13_communication.md R464). -/
abbrev XSPI_BUFw (w : Nat) : Nat := 0xF39040 + w
abbrev XSPI_BUFw_BYTES : Fld := ⟨23, 0⟩
/-- Address of CRYPT_OP (spec/13_communication.md R465). -/
abbrev CRYPT_OP : Nat := 0xF3A000
abbrev CRYPT_OP_RNGEN : Fld := ⟨23, 23⟩
abbrev CRYPT_OP_OP : Fld := ⟨20, 18⟩
abbrev CRYPT_OP_KSZ : Fld := ⟨17, 17⟩
abbrev CRYPT_OP_OWN : Fld := ⟨9, 0⟩
/-- Address of CRYPT_STAT (spec/13_communication.md R465). -/
abbrev CRYPT_STAT : Nat := 0xF3A001
abbrev CRYPT_STAT_BUSY : Fld := ⟨23, 23⟩
abbrev CRYPT_STAT_PASS : Fld := ⟨22, 22⟩
abbrev CRYPT_STAT_AUTHF : Fld := ⟨21, 21⟩
abbrev CRYPT_STAT_MEMF : Fld := ⟨20, 20⟩
abbrev CRYPT_STAT_PRECNT : Fld := ⟨7, 0⟩
/-- Address of CRYPT_ARGw (spec/13_communication.md R465). -/
abbrev CRYPT_ARGw (w : Nat) : Nat := 0xF3A004 + w
abbrev CRYPT_ARGw_ARG : Fld := ⟨23, 0⟩
/-- Address of CRYPT_KEYw (spec/13_communication.md R465). -/
abbrev CRYPT_KEYw (w : Nat) : Nat := 0xF3A010 + w
abbrev CRYPT_KEYw_KEY : Fld := ⟨23, 0⟩
/-- Address of CRYPT_PARw (spec/13_communication.md R465). -/
abbrev CRYPT_PARw (w : Nat) : Nat := 0xF3A020 + w
abbrev CRYPT_PARw_PAR : Fld := ⟨23, 0⟩
/-- Address of CRYPT_RNG (spec/13_communication.md R465). -/
abbrev CRYPT_RNG : Nat := 0xF3B000
abbrev CRYPT_RNG_WORD : Fld := ⟨23, 0⟩
/-- Address of CRYPT_RNGSTAT (spec/13_communication.md R465). -/
abbrev CRYPT_RNGSTAT : Nat := 0xF3B001
abbrev CRYPT_RNGSTAT_LASTV : Fld := ⟨23, 23⟩
abbrev CRYPT_RNGSTAT_FAILF : Fld := ⟨22, 22⟩
abbrev CRYPT_RNGSTAT_START : Fld := ⟨21, 21⟩
abbrev CRYPT_RNGSTAT_AVAIL : Fld := ⟨13, 8⟩
abbrev CRYPT_RNGSTAT_UNDER : Fld := ⟨7, 0⟩
/-- Address of CHN_CTL (spec/14_chaden_link.md R501). -/
abbrev CHN_CTL : Nat := 0xF3C000
abbrev CHN_CTL_EN : Fld := ⟨23, 23⟩
abbrev CHN_CTL_BEN : Fld := ⟨22, 22⟩
abbrev CHN_CTL_ENUM : Fld := ⟨21, 21⟩
abbrev CHN_CTL_RTO : Fld := ⟨15, 8⟩
abbrev CHN_CTL_WTO : Fld := ⟨7, 0⟩
/-- Address of CHN_STAT (spec/14_chaden_link.md R501). -/
abbrev CHN_STAT : Nat := 0xF3C001
abbrev CHN_STAT_ROLE : Fld := ⟨23, 23⟩
abbrev CHN_STAT_ENUMD : Fld := ⟨22, 22⟩
abbrev CHN_STAT_ENUMING : Fld := ⟨21, 21⟩
abbrev CHN_STAT_RING : Fld := ⟨20, 20⟩
abbrev CHN_STAT_REV : Fld := ⟨19, 19⟩
abbrev CHN_STAT_FULL : Fld := ⟨18, 18⟩
abbrev CHN_STAT_UP : Fld := ⟨17, 17⟩
abbrev CHN_STAT_UPLOST : Fld := ⟨16, 16⟩
abbrev CHN_STAT_NUM : Fld := ⟨9, 5⟩
abbrev CHN_STAT_NW : Fld := ⟨4, 0⟩
/-- Address of CHN_SEQ (spec/14_chaden_link.md R501). -/
abbrev CHN_SEQ : Nat := 0xF3C002
abbrev CHN_SEQ_SEQ : Fld := ⟨23, 0⟩
/-- Address of CHN_DRAIN (spec/14_chaden_link.md R501). -/
abbrev CHN_DRAIN : Nat := 0xF3C003
abbrev CHN_DRAIN_NFAIL : Fld := ⟨7, 0⟩
/-- Address of CHN_PpSTAT (spec/14_chaden_link.md R501). -/
abbrev CHN_PpSTAT (p : Nat) : Nat := 0xF3C004 + p
abbrev CHN_PpSTAT_LINK : Fld := ⟨23, 23⟩
abbrev CHN_PpSTAT_LINKF : Fld := ⟨22, 22⟩
abbrev CHN_PpSTAT_DEAD : Fld := ⟨21, 21⟩
abbrev CHN_PpSTAT_RETRY : Fld := ⟨15, 8⟩
abbrev CHN_PpSTAT_CRCERR : Fld := ⟨7, 0⟩
/-- Address of CHN_TCTL (spec/14_chaden_link.md R501). -/
abbrev CHN_TCTL : Nat := 0xF3C006
abbrev CHN_TCTL_FOLLOW : Fld := ⟨23, 23⟩
/-- Address of CHN_TSTAT (spec/14_chaden_link.md R501). -/
abbrev CHN_TSTAT : Nat := 0xF3C007
abbrev CHN_TSTAT_LOCK : Fld := ⟨23, 23⟩
abbrev CHN_TSTAT_LOCKF : Fld := ⟨22, 22⟩
abbrev CHN_TSTAT_AHEAD : Fld := ⟨21, 21⟩
abbrev CHN_TSTAT_JUMPF : Fld := ⟨20, 20⟩
abbrev CHN_TSTAT_BLOST : Fld := ⟨19, 19⟩
abbrev CHN_TSTAT_BTQ : Fld := ⟨18, 17⟩
abbrev CHN_TSTAT_OFS : Fld := ⟨15, 0⟩
/-- Address of CHN_TDLY (spec/14_chaden_link.md R501). -/
abbrev CHN_TDLY : Nat := 0xF3C008
abbrev CHN_TDLY_DLY : Fld := ⟨15, 0⟩
/-- Address of CHN_FCTL (spec/14_chaden_link.md R501). -/
abbrev CHN_FCTL : Nat := 0xF3C009
abbrev CHN_FCTL_EN : Fld := ⟨23, 23⟩
abbrev CHN_FCTL_KREG : Fld := ⟨22, 22⟩
abbrev CHN_FCTL_FREFCNT : Fld := ⟨21, 14⟩
abbrev CHN_FCTL_OWN : Fld := ⟨9, 0⟩
/-- Address of CHN_FLHEAD (spec/14_chaden_link.md R501). -/
abbrev CHN_FLHEAD : Nat := 0xF3C00A
abbrev CHN_FLHEAD_HEAD : Fld := ⟨4, 0⟩
/-- Address of CHN_FLCNT (spec/14_chaden_link.md R501). -/
abbrev CHN_FLCNT : Nat := 0xF3C00B
abbrev CHN_FLCNT_COUNT : Fld := ⟨23, 0⟩
/-- Address of CHN_EMRG (spec/14_chaden_link.md R501). -/
abbrev CHN_EMRG : Nat := 0xF3C00C
abbrev CHN_EMRG_MRG : Fld := ⟨23, 12⟩
abbrev CHN_EMRG_EDROP : Fld := ⟨11, 0⟩
/-- Address of CHN_OUTST (spec/14_chaden_link.md R501). -/
abbrev CHN_OUTST : Nat := 0xF3C00D
abbrev CHN_OUTST_N : Fld := ⟨8, 0⟩
/-- Address of CHN_PWFk (spec/14_chaden_link.md R501). -/
abbrev CHN_PWFk (k : Nat) : Nat := 0xF3C010 + k
abbrev CHN_PWFk_V : Fld := ⟨23, 23⟩
abbrev CHN_PWFk_CID : Fld := ⟨9, 0⟩
/-- Address of CHN_EOUTk (spec/14_chaden_link.md R501). -/
abbrev CHN_EOUTk (k : Nat) : Nat := 0xF3C020 + k
abbrev CHN_EOUTk_V : Fld := ⟨23, 23⟩
abbrev CHN_EOUTk_DST : Fld := ⟨14, 10⟩
abbrev CHN_EOUTk_EVENT : Fld := ⟨9, 0⟩
/-- Address of CHN_EINk (spec/14_chaden_link.md R501). -/
abbrev CHN_EINk (k : Nat) : Nat := 0xF3C030 + k
abbrev CHN_EINk_V : Fld := ⟨23, 23⟩
abbrev CHN_EINk_SRC : Fld := ⟨8, 4⟩
abbrev CHN_EINk_SLOT : Fld := ⟨3, 0⟩
/-- Address of CHN_WnSTAT (spec/14_chaden_link.md R501). -/
abbrev CHN_WnSTAT (n : Nat) : Nat := 0xF3C100 + 8 * n
abbrev CHN_WnSTAT_HELD : Fld := ⟨23, 23⟩
abbrev CHN_WnSTAT_LOST : Fld := ⟨22, 22⟩
abbrev CHN_WnSTAT_PORT : Fld := ⟨21, 21⟩
abbrev CHN_WnSTAT_HOPS : Fld := ⟨12, 8⟩
abbrev CHN_WnSTAT_NOUT : Fld := ⟨7, 0⟩
/-- Address of CHN_WnID (spec/14_chaden_link.md R501). -/
abbrev CHN_WnID (n : Nat) : Nat := 0xF3C101 + 8 * n
abbrev CHN_WnID_SYSID : Fld := ⟨23, 0⟩
/-- Address of CHN_WnMAPq (spec/14_chaden_link.md R501). -/
abbrev CHN_WnMAPq (n q : Nat) : Nat := 0xF3C104 + 8 * n + q
abbrev CHN_WnMAPq_MAP : Fld := ⟨9, 0⟩
/-- Address of CHN_FLAi (spec/14_chaden_link.md R501). -/
abbrev CHN_FLAi (i : Nat) : Nat := 0xF3C200 + 4 * i
abbrev CHN_FLAi_SEQ : Fld := ⟨23, 0⟩
/-- Address of CHN_FLBi (spec/14_chaden_link.md R501). -/
abbrev CHN_FLBi (i : Nat) : Nat := 0xF3C201 + 4 * i
abbrev CHN_FLBi_ADDR : Fld := ⟨23, 0⟩
/-- Address of CHN_FLCi (spec/14_chaden_link.md R501). -/
abbrev CHN_FLCi (i : Nat) : Nat := 0xF3C202 + 4 * i
abbrev CHN_FLCi_V : Fld := ⟨23, 23⟩
abbrev CHN_FLCi_CAUSE : Fld := ⟨22, 20⟩
abbrev CHN_FLCi_WORKER : Fld := ⟨19, 15⟩
abbrev CHN_FLCi_CID : Fld := ⟨9, 0⟩
/-- Address of CHN_FRkBASE (spec/14_chaden_link.md R501). -/
abbrev CHN_FRkBASE (k : Nat) : Nat := 0xF3C300 + 4 * k
abbrev CHN_FRkBASE_BASE : Fld := ⟨23, 10⟩
/-- Address of CHN_FRkLIM (spec/14_chaden_link.md R501). -/
abbrev CHN_FRkLIM (k : Nat) : Nat := 0xF3C301 + 4 * k
abbrev CHN_FRkLIM_LIM : Fld := ⟨23, 10⟩
/-- Address of CHN_FRkCTL (spec/14_chaden_link.md R501). -/
abbrev CHN_FRkCTL (k : Nat) : Nat := 0xF3C302 + 4 * k
abbrev CHN_FRkCTL_V : Fld := ⟨23, 23⟩
abbrev CHN_FRkCTL_R : Fld := ⟨22, 22⟩
abbrev CHN_FRkCTL_W : Fld := ⟨21, 21⟩
abbrev CHN_FRkCTL_CID : Fld := ⟨9, 0⟩
/-- Address of PWR_VIN (spec/15_supply_holdup.md R521). -/
abbrev PWR_VIN : Nat := 0xF01000
abbrev PWR_VIN_VIN : Fld := ⟨12, 0⟩
/-- Address of PWR_VSYS (spec/15_supply_holdup.md R521). -/
abbrev PWR_VSYS : Nat := 0xF01001
abbrev PWR_VSYS_VSYS : Fld := ⟨12, 0⟩
/-- Address of PWR_SHSTAT (spec/15_supply_holdup.md R521). -/
abbrev PWR_SHSTAT : Nat := 0xF01002
abbrev PWR_SHSTAT_VINHI : Fld := ⟨23, 23⟩
abbrev PWR_SHSTAT_VINHIF : Fld := ⟨22, 22⟩
abbrev PWR_SHSTAT_SHF : Fld := ⟨21, 18⟩
abbrev PWR_SHSTAT_STEP : Fld := ⟨2, 0⟩
/-- Address of PWR_SHCFG (spec/15_supply_holdup.md R521). -/
abbrev PWR_SHCFG : Nat := 0xF01003
abbrev PWR_SHCFG_FORCE : Fld := ⟨5, 4⟩
abbrev PWR_SHCFG_ECOPL : Fld := ⟨2, 0⟩
/-- Address of PWR_SHCNTk (spec/15_supply_holdup.md R521). -/
abbrev PWR_SHCNTk (k : Nat) : Nat := 0xF01003 + k
abbrev PWR_SHCNTk_COUNT : Fld := ⟨23, 0⟩
/-- Address of PWR_VINMIN (spec/15_supply_holdup.md R521). -/
abbrev PWR_VINMIN : Nat := 0xF01008
abbrev PWR_VINMIN_VIN : Fld := ⟨12, 0⟩
/-- Address of PWR_VCORE (spec/15_supply_holdup.md R521). -/
abbrev PWR_VCORE : Nat := 0xF01009
abbrev PWR_VCORE_BUSY : Fld := ⟨23, 23⟩
abbrev PWR_VCORE_MV : Fld := ⟨9, 0⟩
/-- Address of PWR_REGSTAT (spec/15_supply_holdup.md R521). -/
abbrev PWR_REGSTAT : Nat := 0xF0100A
abbrev PWR_REGSTAT_VAUXLIM : Fld := ⟨23, 23⟩
abbrev PWR_REGSTAT_VCORELIM : Fld := ⟨22, 22⟩
abbrev PWR_REGSTAT_AVDDLIM : Fld := ⟨21, 21⟩
abbrev PWR_REGSTAT_VAONLIM : Fld := ⟨20, 20⟩
/-- Address of PWR_PLn (spec/15_supply_holdup.md R521). -/
abbrev PWR_PLn (n : Nat) : Nat := 0xF01010 + n
abbrev PWR_PLn_EFF : Fld := ⟨23, 21⟩
abbrev PWR_PLn_CAP : Fld := ⟨20, 18⟩
abbrev PWR_PLn_BUSY : Fld := ⟨17, 17⟩
abbrev PWR_PLn_REQ : Fld := ⟨2, 0⟩
/-- Address of HOLD_CTL (spec/15_supply_holdup.md R522). -/
abbrev HOLD_CTL : Nat := 0xF02000
abbrev HOLD_CTL_EN : Fld := ⟨23, 23⟩
abbrev HOLD_CTL_RTEN : Fld := ⟨22, 22⟩
abbrev HOLD_CTL_ICHG : Fld := ⟨11, 8⟩
abbrev HOLD_CTL_VTGT : Fld := ⟨6, 0⟩
/-- Address of HOLD_STAT (spec/15_supply_holdup.md R522). -/
abbrev HOLD_STAT : Nat := 0xF02001
abbrev HOLD_STAT_STATE : Fld := ⟨23, 21⟩
abbrev HOLD_STAT_REST : Fld := ⟨20, 20⟩
abbrev HOLD_STAT_CMV : Fld := ⟨19, 19⟩
abbrev HOLD_STAT_LIMP : Fld := ⟨18, 18⟩
abbrev HOLD_STAT_FAULTF : Fld := ⟨17, 17⟩
abbrev HOLD_STAT_EXH : Fld := ⟨16, 16⟩
abbrev HOLD_STAT_RTMS : Fld := ⟨15, 0⟩
/-- Address of HOLD_VH (spec/15_supply_holdup.md R522). -/
abbrev HOLD_VH : Nat := 0xF02002
abbrev HOLD_VH_VH : Fld := ⟨12, 0⟩
/-- Address of HOLD_I (spec/15_supply_holdup.md R522). -/
abbrev HOLD_I : Nat := 0xF02003
abbrev HOLD_I_I : Fld := ⟨23, 0⟩
/-- Address of HOLD_Q (spec/15_supply_holdup.md R522). -/
abbrev HOLD_Q : Nat := 0xF02004
abbrev HOLD_Q_Q : Fld := ⟨23, 0⟩
/-- Address of HOLD_CAP (spec/15_supply_holdup.md R522). -/
abbrev HOLD_CAP : Nat := 0xF02005
abbrev HOLD_CAP_CAP : Fld := ⟨23, 0⟩
/-- Address of HOLD_CMEAS (spec/15_supply_holdup.md R522). -/
abbrev HOLD_CMEAS : Nat := 0xF02006
abbrev HOLD_CMEAS_CAP : Fld := ⟨23, 0⟩
/-- Address of HOLD_RES (spec/15_supply_holdup.md R522). -/
abbrev HOLD_RES : Nat := 0xF02007
abbrev HOLD_RES_MJ : Fld := ⟨23, 0⟩
/-- Address of HOLD_LOWE (spec/15_supply_holdup.md R522). -/
abbrev HOLD_LOWE : Nat := 0xF02008
abbrev HOLD_LOWE_MJ : Fld := ⟨23, 0⟩
/-- Address of HOLD_EQ (spec/15_supply_holdup.md R522). -/
abbrev HOLD_EQ : Nat := 0xF02009
abbrev HOLD_EQ_MJ : Fld := ⟨23, 0⟩
/-- Address of HOLD_EV (spec/15_supply_holdup.md R522). -/
abbrev HOLD_EV : Nat := 0xF0200A
abbrev HOLD_EV_MJ : Fld := ⟨23, 0⟩
/-- Address of HOLD_E (spec/15_supply_holdup.md R522). -/
abbrev HOLD_E : Nat := 0xF0200B
abbrev HOLD_E_MJ : Fld := ⟨23, 0⟩
/-- Address of HOLD_CNT (spec/15_supply_holdup.md R522). -/
abbrev HOLD_CNT : Nat := 0xF0200C
abbrev HOLD_CNT_RT : Fld := ⟨23, 12⟩
abbrev HOLD_CNT_RB : Fld := ⟨11, 0⟩
/-- Address of HOLD_RBOLD (spec/15_supply_holdup.md R522). -/
abbrev HOLD_RBOLD : Nat := 0xF0200D
abbrev HOLD_RBOLD_Q : Fld := ⟨23, 0⟩
/-- Address of HOLD_RBNEW (spec/15_supply_holdup.md R522). -/
abbrev HOLD_RBNEW : Nat := 0xF0200E
abbrev HOLD_RBNEW_Q : Fld := ⟨23, 0⟩
/-- Address of PWR_PSREQ (spec/16_power_states.md R551). -/
abbrev PWR_PSREQ : Nat := 0xF01100
abbrev PWR_PSREQ_TGT : Fld := ⟨23, 22⟩
/-- Address of PWR_PSSTAT (spec/16_power_states.md R551). -/
abbrev PWR_PSSTAT : Nat := 0xF01101
abbrev PWR_PSSTAT_BUSY : Fld := ⟨23, 23⟩
abbrev PWR_PSSTAT_PHASE : Fld := ⟨22, 21⟩
abbrev PWR_PSSTAT_RESULT : Fld := ⟨20, 18⟩
abbrev PWR_PSSTAT_ID : Fld := ⟨17, 14⟩
abbrev PWR_PSSTAT_REASON : Fld := ⟨13, 11⟩
abbrev PWR_PSSTAT_SAVERR : Fld := ⟨10, 10⟩
abbrev PWR_PSSTAT_RSTERR : Fld := ⟨9, 9⟩
/-- Address of PWR_PSVOTE (spec/16_power_states.md R551). -/
abbrev PWR_PSVOTE : Nat := 0xF01102
abbrev PWR_PSVOTE_OK : Fld := ⟨15, 0⟩
/-- Address of PWR_PSDLY (spec/16_power_states.md R551). -/
abbrev PWR_PSDLY : Nat := 0xF01103
abbrev PWR_PSDLY_DLY : Fld := ⟨15, 0⟩
/-- Address of PWR_PSENTs (spec/16_power_states.md R551). -/
abbrev PWR_PSENTs (s : Nat) : Nat := 0xF01104 + s
abbrev PWR_PSENTs_COUNT : Fld := ⟨23, 0⟩
/-- Address of PWR_PSRAs (spec/16_power_states.md R551). -/
abbrev PWR_PSRAs (s : Nat) : Nat := 0xF01108 + s
abbrev PWR_PSRAs_REF : Fld := ⟨23, 12⟩
abbrev PWR_PSRAs_ABT : Fld := ⟨11, 0⟩
/-- Address of PWR_PSLASTs (spec/16_power_states.md R551). -/
abbrev PWR_PSLASTs (s : Nat) : Nat := 0xF0110C + s
abbrev PWR_PSLASTs_V : Fld := ⟨23, 23⟩
abbrev PWR_PSLASTs_ID : Fld := ⟨22, 19⟩
abbrev PWR_PSLASTs_REASON : Fld := ⟨18, 16⟩
/-- Address of PWR_DOZECFG (spec/16_power_states.md R551). -/
abbrev PWR_DOZECFG : Nat := 0xF01110
abbrev PWR_DOZECFG_KEEP : Fld := ⟨7, 0⟩
/-- Address of PWR_LWAKE (spec/16_power_states.md R551). -/
abbrev PWR_LWAKE : Nat := 0xF01111
abbrev PWR_LWAKE_PORT : Fld := ⟨1, 0⟩
/-- Address of PWR_FORCECNT (spec/16_power_states.md R551). -/
abbrev PWR_FORCECNT : Nat := 0xF01112
abbrev PWR_FORCECNT_COUNT : Fld := ⟨23, 0⟩
/-- Address of PWR_KSAVEi (spec/16_power_states.md R551). -/
abbrev PWR_KSAVEi (i : Nat) : Nat := 0xF01120 + 2 * i
abbrev PWR_KSAVEi_ADDR : Fld := ⟨23, 0⟩
/-- Address of PWR_KLENi (spec/16_power_states.md R551). -/
abbrev PWR_KLENi (i : Nat) : Nat := 0xF01121 + 2 * i
abbrev PWR_KLENi_LEN : Fld := ⟨8, 0⟩
/-- Address of AWU_WEN (spec/16_power_states.md R552). -/
abbrev AWU_WEN : Nat := 0xF07000
abbrev AWU_WEN_EN : Fld := ⟨8, 3⟩
abbrev AWU_WEN_EN1 : Fld := ⟨1, 0⟩
abbrev AWU_WEN_I2CT : Fld := ⟨2, 2⟩
/-- Address of AWU_WPIN (spec/16_power_states.md R552). -/
abbrev AWU_WPIN : Nat := 0xF07001
abbrev AWU_WPIN_PU : Fld := ⟨17, 16⟩
abbrev AWU_WPIN_FLT : Fld := ⟨15, 8⟩
abbrev AWU_WPIN_EDGE1 : Fld := ⟨3, 2⟩
abbrev AWU_WPIN_EDGE0 : Fld := ⟨1, 0⟩
/-- Address of AWU_WCAUSE (spec/16_power_states.md R552). -/
abbrev AWU_WCAUSE : Nat := 0xF07002
abbrev AWU_WCAUSE_V : Fld := ⟨23, 23⟩
abbrev AWU_WCAUSE_FIRST : Fld := ⟨20, 16⟩
abbrev AWU_WCAUSE_PENT : Fld := ⟨14, 12⟩
abbrev AWU_WCAUSE_SEEN : Fld := ⟨9, 0⟩
/-- Address of AWU_CFG (spec/16_power_states.md R552). -/
abbrev AWU_CFG : Nat := 0xF07003
abbrev AWU_CFG_RELAY : Fld := ⟨0, 0⟩
/-- Address of AWU_ALML (spec/16_power_states.md R552). -/
abbrev AWU_ALML : Nat := 0xF07004
abbrev AWU_ALML_ALM : Fld := ⟨23, 0⟩
/-- Address of AWU_ALMH (spec/16_power_states.md R552). -/
abbrev AWU_ALMH : Nat := 0xF07005
abbrev AWU_ALMH_ALM : Fld := ⟨23, 0⟩
/-- Address of AWU_NL (spec/16_power_states.md R552). -/
abbrev AWU_NL : Nat := 0xF07006
abbrev AWU_NL_N : Fld := ⟨23, 0⟩
/-- Address of AWU_NH (spec/16_power_states.md R552). -/
abbrev AWU_NH : Nat := 0xF07007
abbrev AWU_NH_N : Fld := ⟨23, 0⟩
/-- Address of AWU_PER (spec/16_power_states.md R552). -/
abbrev AWU_PER : Nat := 0xF07008
abbrev AWU_PER_PERIOD : Fld := ⟨23, 0⟩
/-- Address of AWU_PVIS (spec/16_power_states.md R552). -/
abbrev AWU_PVIS : Nat := 0xF07009
abbrev AWU_PVIS_COUNT : Fld := ⟨23, 0⟩
/-- Address of AWU_PSKIP (spec/16_power_states.md R552). -/
abbrev AWU_PSKIP : Nat := 0xF0700A
abbrev AWU_PSKIP_COUNT : Fld := ⟨23, 0⟩
/-- Address of ASY_CTL (spec/17_resilience.md R581). -/
abbrev ASY_CTL : Nat := 0xF03000
abbrev ASY_CTL_HOURLY : Fld := ⟨23, 23⟩
abbrev ASY_CTL_RUN : Fld := ⟨22, 22⟩
/-- Address of ASY_STAT (spec/17_resilience.md R581). -/
abbrev ASY_STAT : Nat := 0xF03001
abbrev ASY_STAT_BUSY : Fld := ⟨23, 23⟩
abbrev ASY_STAT_RECERR : Fld := ⟨22, 22⟩
abbrev ASY_STAT_SHORT : Fld := ⟨8, 0⟩
/-- Address of ASY_HOURS (spec/17_resilience.md R581). -/
abbrev ASY_HOURS : Nat := 0xF03002
abbrev ASY_HOURS_HOURS : Fld := ⟨23, 0⟩
/-- Address of ASY_GUARD (spec/17_resilience.md R581). -/
abbrev ASY_GUARD : Nat := 0xF03003
abbrev ASY_GUARD_GUARD : Fld := ⟨15, 0⟩
/-- Address of ASY_RUNS (spec/17_resilience.md R581). -/
abbrev ASY_RUNS : Nat := 0xF03004
abbrev ASY_RUNS_COUNT : Fld := ⟨23, 0⟩
/-- Address of ASY_THCFG (spec/17_resilience.md R581). -/
abbrev ASY_THCFG : Nat := 0xF03008
abbrev ASY_THCFG_THI : Fld := ⟨23, 16⟩
abbrev ASY_THCFG_TLO : Fld := ⟨15, 8⟩
abbrev ASY_THCFG_FLOOR : Fld := ⟨2, 0⟩
/-- Address of ASY_THSTAT (spec/17_resilience.md R581). -/
abbrev ASY_THSTAT : Nat := 0xF03009
abbrev ASY_THSTAT_CAP : Fld := ⟨23, 21⟩
abbrev ASY_THSTAT_CRIT : Fld := ⟨20, 20⟩
abbrev ASY_THSTAT_TMAX : Fld := ⟨11, 0⟩
/-- Address of ASY_TJd (spec/17_resilience.md R581). -/
abbrev ASY_TJd (d : Nat) : Nat := 0xF03010 + d
abbrev ASY_TJd_TJ : Fld := ⟨11, 0⟩
/-- Address of ASY_RCdq (spec/17_resilience.md R581). -/
abbrev ASY_RCdq (d q : Nat) : Nat := 0xF03020 + 4 * d + q
abbrev ASY_RCdq_N : Fld := ⟨23, 0⟩
/-- Address of ASY_MPdp (spec/17_resilience.md R581). -/
abbrev ASY_MPdp (d p : Nat) : Nat := 0xF03100 + 8 * d + p
abbrev ASY_MPdp_RET : Fld := ⟨23, 23⟩
abbrev ASY_MPdp_SKIP : Fld := ⟨22, 22⟩
abbrev ASY_MPdp_ADD : Fld := ⟨19, 16⟩
abbrev ASY_MPdp_MARG : Fld := ⟨15, 0⟩
/-- Address of ASY_PRJd (spec/17_resilience.md R581). -/
abbrev ASY_PRJd (d : Nat) : Nat := 0xF03180 + 2 * d
abbrev ASY_PRJd_HOURS : Fld := ⟨23, 0⟩
/-- Address of ASY_PRLd (spec/17_resilience.md R581). -/
abbrev ASY_PRLd (d : Nat) : Nat := 0xF03181 + 2 * d
abbrev ASY_PRLd_V : Fld := ⟨23, 23⟩
abbrev ASY_PRLd_LEVEL : Fld := ⟨2, 0⟩
/-- Address of ASY_BGMAXk (spec/17_resilience.md R581). -/
abbrev ASY_BGMAXk (k : Nat) : Nat := 0xF03200 + k
abbrev ASY_BGMAXk_D : Fld := ⟨15, 0⟩
/-- Address of ASY_MRM (spec/17_resilience.md R581). -/
abbrev ASY_MRM : Nat := 0xF03203
abbrev ASY_MRM_BANK : Fld := ⟨10, 8⟩
abbrev ASY_MRM_MARGIN : Fld := ⟨7, 0⟩
/-- Address of ASY_SOLRc (spec/17_resilience.md R581). -/
abbrev ASY_SOLRc (c : Nat) : Nat := 0xF03210 + c
abbrev ASY_SOLRc_RON : Fld := ⟨15, 0⟩
/-- Address of ASY_BSTn (spec/17_resilience.md R581). -/
abbrev ASY_BSTn (n : Nat) : Nat := 0xF03220 + n
abbrev ASY_BSTn_VMIN : Fld := ⟨12, 0⟩
/-- Address of ASY_TRF (spec/17_resilience.md R581). -/
abbrev ASY_TRF : Nat := 0xF03230
abbrev ASY_TRF_BGF : Fld := ⟨23, 23⟩
abbrev ASY_TRF_MRMF : Fld := ⟨22, 22⟩
abbrev ASY_TRF_SOLRF : Fld := ⟨21, 21⟩
abbrev ASY_TRF_BSTF : Fld := ⟨20, 20⟩
/-- Address of FLT_CTL (spec/17_resilience.md R581). -/
abbrev FLT_CTL : Nat := 0xF03400
abbrev FLT_CTL_KTF : Fld := ⟨23, 23⟩
abbrev FLT_CTL_DLE : Fld := ⟨22, 22⟩
abbrev FLT_CTL_CL2 : Fld := ⟨21, 21⟩
abbrev FLT_CTL_TKF : Fld := ⟨20, 20⟩
abbrev FLT_CTL_ESCDLY : Fld := ⟨9, 0⟩
/-- Address of FLT_STAT (spec/17_resilience.md R581). -/
abbrev FLT_STAT : Nat := 0xF03401
abbrev FLT_STAT_ESC : Fld := ⟨23, 23⟩
abbrev FLT_STAT_ESCR : Fld := ⟨22, 20⟩
abbrev FLT_STAT_CLQ : Fld := ⟨7, 0⟩
/-- Address of FLT_READMIT (spec/17_resilience.md R581). -/
abbrev FLT_READMIT : Nat := 0xF03402
abbrev FLT_READMIT_CLUSTER : Fld := ⟨2, 0⟩
/-- Address of FLT_TAKE (spec/17_resilience.md R581). -/
abbrev FLT_TAKE : Nat := 0xF03403
abbrev FLT_TAKE_PAIR : Fld := ⟨4, 0⟩
/-- Address of FLT_HEAD (spec/17_resilience.md R581). -/
abbrev FLT_HEAD : Nat := 0xF03404
abbrev FLT_HEAD_HEAD : Fld := ⟨4, 0⟩
/-- Address of FLT_CNT0 (spec/17_resilience.md R581). -/
abbrev FLT_CNT0 : Nat := 0xF03405
abbrev FLT_CNT0_DL : Fld := ⟨23, 12⟩
abbrev FLT_CNT0_HB : Fld := ⟨11, 0⟩
/-- Address of FLT_CNT1 (spec/17_resilience.md R581). -/
abbrev FLT_CNT1 : Nat := 0xF03406
abbrev FLT_CNT1_CL : Fld := ⟨23, 16⟩
abbrev FLT_CNT1_TK : Fld := ⟨15, 8⟩
abbrev FLT_CNT1_TKF : Fld := ⟨7, 0⟩
/-- Address of FLT_CNT2 (spec/17_resilience.md R581). -/
abbrev FLT_CNT2 : Nat := 0xF03407
abbrev FLT_CNT2_STALL : Fld := ⟨23, 0⟩
/-- Address of FLT_LAi (spec/17_resilience.md R581). -/
abbrev FLT_LAi (i : Nat) : Nat := 0xF03440 + 4 * i
abbrev FLT_LAi_V : Fld := ⟨23, 23⟩
abbrev FLT_LAi_KIND : Fld := ⟨22, 18⟩
abbrev FLT_LAi_THREAD : Fld := ⟨17, 9⟩
abbrev FLT_LAi_DETAIL : Fld := ⟨8, 0⟩
/-- Address of FLT_LBi (spec/17_resilience.md R581). -/
abbrev FLT_LBi (i : Nat) : Nat := 0xF03441 + 4 * i
abbrev FLT_LBi_INFO : Fld := ⟨23, 0⟩
/-- Address of FLT_LCi (spec/17_resilience.md R581). -/
abbrev FLT_LCi (i : Nat) : Nat := 0xF03442 + 4 * i
abbrev FLT_LCi_DT : Fld := ⟨23, 0⟩
/-- Address of SP_nCTL (spec/17_resilience.md R581). -/
abbrev SP_nCTL (n : Nat) : Nat := 0xF03500 + 8 * n
abbrev SP_nCTL_EN : Fld := ⟨23, 23⟩
abbrev SP_nCTL_ARMED : Fld := ⟨22, 22⟩
abbrev SP_nCTL_HGRP : Fld := ⟨21, 19⟩
abbrev SP_nCTL_PRI : Fld := ⟨17, 9⟩
abbrev SP_nCTL_SHD : Fld := ⟨8, 0⟩
/-- Address of SP_nCAP (spec/17_resilience.md R581). -/
abbrev SP_nCAP (n : Nat) : Nat := 0xF03501 + 8 * n
abbrev SP_nCAP_UNIT : Fld := ⟨23, 18⟩
abbrev SP_nCAP_TRIG : Fld := ⟨17, 10⟩
abbrev SP_nCAP_CID : Fld := ⟨9, 0⟩
/-- Address of SP_nVA0 (spec/17_resilience.md R581). -/
abbrev SP_nVA0 (n : Nat) : Nat := 0xF03502 + 8 * n
abbrev SP_nVA0_VA : Fld := ⟨23, 0⟩
/-- Address of SP_nVA1 (spec/17_resilience.md R581). -/
abbrev SP_nVA1 (n : Nat) : Nat := 0xF03503 + 8 * n
abbrev SP_nVA1_VA : Fld := ⟨23, 0⟩
/-- Address of SP_nDL (spec/17_resilience.md R581). -/
abbrev SP_nDL (n : Nat) : Nat := 0xF03504 + 8 * n
abbrev SP_nDL_CKDL : Fld := ⟨19, 0⟩
/-- Address of SP_nSTAT (spec/17_resilience.md R581). -/
abbrev SP_nSTAT (n : Nat) : Nat := 0xF03505 + 8 * n
abbrev SP_nSTAT_TOOK : Fld := ⟨23, 23⟩
abbrev SP_nSTAT_FAILF : Fld := ⟨22, 22⟩
abbrev SP_nSTAT_REASON : Fld := ⟨21, 19⟩
abbrev SP_nSTAT_TRIG : Fld := ⟨18, 16⟩
abbrev SP_nSTAT_SEQ : Fld := ⟨12, 0⟩
/-- Address of SYS_RCAUSE (spec/18_startup_debug.md R605). -/
abbrev SYS_RCAUSE : Nat := 0xF00001
abbrev SYS_RCAUSE_POR : Fld := ⟨23, 23⟩
abbrev SYS_RCAUSE_PIN : Fld := ⟨22, 22⟩
abbrev SYS_RCAUSE_WDOG : Fld := ⟨21, 21⟩
abbrev SYS_RCAUSE_KCMD : Fld := ⟨20, 20⟩
abbrev SYS_RCAUSE_ESCAL : Fld := ⟨19, 19⟩
abbrev SYS_RCAUSE_RESUME : Fld := ⟨18, 18⟩
abbrev SYS_RCAUSE_WDBAD : Fld := ⟨17, 17⟩
abbrev SYS_RCAUSE_PORSRC : Fld := ⟨16, 14⟩
abbrev SYS_RCAUSE_ESCR : Fld := ⟨13, 11⟩
abbrev SYS_RCAUSE_RCNT : Fld := ⟨7, 0⟩
/-- Address of SYS_STRAP (spec/18_startup_debug.md R605). -/
abbrev SYS_STRAP : Nat := 0xF00002
abbrev SYS_STRAP_ROLE : Fld := ⟨23, 23⟩
abbrev SYS_STRAP_SVC : Fld := ⟨22, 22⟩
abbrev SYS_STRAP_BOOTSEL : Fld := ⟨21, 20⟩
/-- Address of SYS_BOOTSTAT (spec/18_startup_debug.md R605). -/
abbrev SYS_BOOTSTAT : Nat := 0xF00003
abbrev SYS_BOOTSTAT_SLOT : Fld := ⟨23, 22⟩
abbrev SYS_BOOTSTAT_FB : Fld := ⟨21, 21⟩
abbrev SYS_BOOTSTAT_RES : Fld := ⟨20, 20⟩
abbrev SYS_BOOTSTAT_SVCB : Fld := ⟨19, 19⟩
abbrev SYS_BOOTSTAT_LKCLR : Fld := ⟨18, 18⟩
abbrev SYS_BOOTSTAT_FAILA : Fld := ⟨15, 12⟩
abbrev SYS_BOOTSTAT_FAILB : Fld := ⟨11, 8⟩
abbrev SYS_BOOTSTAT_FAILS : Fld := ⟨7, 4⟩
/-- Address of SYS_RESET (spec/18_startup_debug.md R605). -/
abbrev SYS_RESET : Nat := 0xF00004
abbrev SYS_RESET_KEY : Fld := ⟨23, 0⟩
/-- Address of SYS_SVC (spec/18_startup_debug.md R605). -/
abbrev SYS_SVC : Nat := 0xF00005
abbrev SYS_SVC_STRAP : Fld := ⟨1, 1⟩
abbrev SYS_SVC_EN : Fld := ⟨0, 0⟩
/-- Address of SYS_WDCTL (spec/18_startup_debug.md R605). -/
abbrev SYS_WDCTL : Nat := 0xF00006
abbrev SYS_WDCTL_EN : Fld := ⟨23, 23⟩
abbrev SYS_WDCTL_LOCK : Fld := ⟨22, 22⟩
abbrev SYS_WDCTL_DBGFRZ : Fld := ⟨21, 21⟩
abbrev SYS_WDCTL_MIN : Fld := ⟨15, 8⟩
abbrev SYS_WDCTL_TO : Fld := ⟨7, 0⟩
/-- Address of SYS_WDKICK (spec/18_startup_debug.md R605). -/
abbrev SYS_WDKICK : Nat := 0xF00007
abbrev SYS_WDKICK_KICK : Fld := ⟨23, 0⟩
/-- Address of SYS_KRESUME (spec/18_startup_debug.md R605). -/
abbrev SYS_KRESUME : Nat := 0xF00008
abbrev SYS_KRESUME_ADDR : Fld := ⟨23, 0⟩
/-- Address of SYS_DBG (spec/18_startup_debug.md R605). -/
abbrev SYS_DBG : Nat := 0xF00009
abbrev SYS_DBG_DENY : Fld := ⟨23, 23⟩
abbrev SYS_DBG_AUTOFRZ : Fld := ⟨22, 22⟩
abbrev SYS_DBG_KLOCK : Fld := ⟨21, 21⟩
abbrev SYS_DBG_LSTATE : Fld := ⟨20, 19⟩
abbrev SYS_DBG_LCID : Fld := ⟨9, 0⟩
/-- Address of SYS_FUSECMD (spec/18_startup_debug.md R605). -/
abbrev SYS_FUSECMD : Nat := 0xF00010
abbrev SYS_FUSECMD_KEY : Fld := ⟨23, 16⟩
abbrev SYS_FUSECMD_SEP : Fld := ⟨15, 15⟩
abbrev SYS_FUSECMD_W : Fld := ⟨5, 0⟩
/-- Address of SYS_FUSEDAT (spec/18_startup_debug.md R605). -/
abbrev SYS_FUSEDAT : Nat := 0xF00011
abbrev SYS_FUSEDAT_DATA : Fld := ⟨23, 0⟩
/-- Address of SYS_FUSESTAT (spec/18_startup_debug.md R605). -/
abbrev SYS_FUSESTAT : Nat := 0xF00012
abbrev SYS_FUSESTAT_BUSY : Fld := ⟨23, 23⟩
abbrev SYS_FUSESTAT_ERR : Fld := ⟨22, 22⟩
/-- Address of SYS_FUSEw (spec/18_startup_debug.md R605). -/
abbrev SYS_FUSEw (w : Nat) : Nat := 0xF00020 + w
abbrev SYS_FUSEw_FUSE : Fld := ⟨23, 0⟩
/-- Address of LP_MAILIN (spec/18_startup_debug.md R606). -/
abbrev LP_MAILIN : Nat := 0xF4F001
abbrev LP_MAILIN_WORD : Fld := ⟨23, 0⟩
/-- Address of LP_MAILOUT (spec/18_startup_debug.md R606). -/
abbrev LP_MAILOUT : Nat := 0xF4F002
abbrev LP_MAILOUT_WORD : Fld := ⟨23, 0⟩
/-- Address of LP_FAILCNT (spec/18_startup_debug.md R606). -/
abbrev LP_FAILCNT : Nat := 0xF4F003
abbrev LP_FAILCNT_COUNT : Fld := ⟨23, 0⟩
/-- Address of AWU_PeCFG (spec/16_power_states.md R545). -/
abbrev AWU_PeCFG (e : Nat) : Nat := 0xF07100 + 16 * e
abbrev AWU_PeCFG_V : Fld := ⟨23, 23⟩
abbrev AWU_PeCFG_TYPE : Fld := ⟨22, 22⟩
abbrev AWU_PeCFG_CH : Fld := ⟨21, 17⟩
abbrev AWU_PeCFG_FAULT : Fld := ⟨16, 16⟩
abbrev AWU_PeCFG_EVERY : Fld := ⟨15, 12⟩
abbrev AWU_PeCFG_WCNT : Fld := ⟨11, 8⟩
/-- Address of AWU_PeANA (spec/16_power_states.md R545). -/
abbrev AWU_PeANA (e : Nat) : Nat := 0xF07101 + 16 * e
abbrev AWU_PeANA_MODE : Fld := ⟨22, 21⟩
abbrev AWU_PeANA_MUX : Fld := ⟨20, 19⟩
abbrev AWU_PeANA_GAIN : Fld := ⟨18, 16⟩
abbrev AWU_PeANA_REFSEL : Fld := ⟨10, 9⟩
abbrev AWU_PeANA_REFIDX : Fld := ⟨8, 7⟩
abbrev AWU_PeANA_BURN : Fld := ⟨5, 4⟩
abbrev AWU_PeANA_IEXC : Fld := ⟨3, 0⟩
abbrev AWU_PeANA_FREQ : Fld := ⟨21, 19⟩
abbrev AWU_PeANA_AMP : Fld := ⟨18, 17⟩
abbrev AWU_PeANA_RANGE : Fld := ⟨16, 15⟩
abbrev AWU_PeANA_NAVG : Fld := ⟨7, 0⟩
/-- Address of AWU_PeTIM (spec/16_power_states.md R545). -/
abbrev AWU_PeTIM (e : Nat) : Nat := 0xF07102 + 16 * e
abbrev AWU_PeTIM_SETTLE : Fld := ⟨15, 8⟩
abbrev AWU_PeTIM_INT : Fld := ⟨7, 0⟩
/-- Address of AWU_PeOFS (spec/16_power_states.md R545). -/
abbrev AWU_PeOFS (e : Nat) : Nat := 0xF07103 + 16 * e
/-- Address of AWU_PeGAIN (spec/16_power_states.md R545). -/
abbrev AWU_PeGAIN (e : Nat) : Nat := 0xF07104 + 16 * e
/-- Address of AWU_PeWLO (spec/16_power_states.md R545). -/
abbrev AWU_PeWLO (e : Nat) : Nat := 0xF07105 + 16 * e
/-- Address of AWU_PeWHI (spec/16_power_states.md R545). -/
abbrev AWU_PeWHI (e : Nat) : Nat := 0xF07106 + 16 * e
/-- Address of AWU_PeMIN (spec/16_power_states.md R545). -/
abbrev AWU_PeMIN (e : Nat) : Nat := 0xF07107 + 16 * e
/-- Address of AWU_PeMAX (spec/16_power_states.md R545). -/
abbrev AWU_PeMAX (e : Nat) : Nat := 0xF07108 + 16 * e
/-- Address of AWU_PeLAST (spec/16_power_states.md R545). -/
abbrev AWU_PeLAST (e : Nat) : Nat := 0xF07109 + 16 * e
/-- Address of AWU_PeSTAT (spec/16_power_states.md R545). -/
abbrev AWU_PeSTAT (e : Nat) : Nat := 0xF0710A + 16 * e
abbrev AWU_PeSTAT_BRF : Fld := ⟨23, 23⟩
abbrev AWU_PeSTAT_OVR : Fld := ⟨22, 22⟩
abbrev AWU_PeSTAT_OPEN : Fld := ⟨21, 21⟩
abbrev AWU_PeSTAT_RUN : Fld := ⟨20, 16⟩
abbrev AWU_PeSTAT_NRES : Fld := ⟨15, 0⟩
/-- Address of CL_TABw (spec/11_actuation_clasp.md R356). -/
abbrev CL_TABw (w : Nat) : Nat := 0xF2C000 + w

end Sys2Proof.Machine.Reg
end

