-- ==== Sys2Proof/Machine/Blocks.lean ====
section
/-!
DEFINITION. The state of the blocks outside the engines that is no device register: time base, measurement, actuation,
communication, Chaden Link, supply and power states, fault unit and assay, reset and Loupe.
-/

namespace Sys2Proof.Machine

/-- A timer channel (R415–R418): whether its counter runs, the prescaler phase, whether its counter has become CMP in this tick and the match
is still due (R421), the device time of a capture made with CAPDT 1. -/
structure TcSt where
  run   : Bool
  phase : Nat
  due   : Bool
  cap?  : Option Nat
  deriving DecidableEq, Repr

/-- Device time (R403), TPLL's first lock (R28), the timer channels, the groups of a pending timed start (R419), the REF_TBCTL in force
(R411), by source the windows it has been OK (R410) and the offsets summed since it last entered WATCH (R413), whether the time base is
validated (R414). `slewAt` counts the ticks since the last slew adjustment while SLEWREM is not 0 (R412); `winDue` says that a window has
ended whose evaluation is due (R408); `late` holds the sources that a keeper has returned since the last window end (R411); `part` says that
the window under way was cut short by a restoration of DT (R414); `hist` lists the changes of TQ of the last 4,096 ticks, newest first, as
(the tick of the change, the code until then), so that a stamp takes the TQ in force at its own tick (R414); `ticks` counts the TB ticks
since power-on, slewed or not. -/
structure TimeSt where
  dt     : Pair
  dtx    : Word
  locked : Bool
  tc     : SMap TcSt
  gpend  : Option Nat
  tbctl  : Word
  okWin  : SMap Nat
  sum    : SMap Int
  valid  : Bool
  slewAt : Nat
  winDue : Bool
  late   : List Nat
  part   : Bool
  hist   : List (Nat × Nat)
  ticks  : Nat
  deriving DecidableEq, Repr

/-- A timer channel that does not run. -/
def TcSt.init : TcSt := { run := false, phase := 0, due := false, cap? := none }

/-- The time base after power-on reset. -/
def TimeSt.init : TimeSt :=
  { dt := 0, dtx := 0, locked := false, tc := [], gpend := none, tbctl := 0xF00024, okWin := [], sum := [], valid := false,
    slewAt := 0, winDue := false, late := [], part := false, hist := [], ticks := 0 }

/-- Reset and assay state that is no register: the always-on bit LKV (R587); by level index 8 × d + p the hours of its last two adder
increments, the earlier at twice the index (R575, R576; 0xFFFFFF none); the consecutive evaluations at or below TLO (R577); SEQ and copy
of the assay record written last (R575); a first run that awaits TPLL's lock; the fuse word being programmed with the value meant for
it (R592); the ticks of device time of the hour that has begun (R572); whether the watchdog has warned since its count began (R586). -/
structure SysSt where
  lkv   : Bool
  hist  : SMap Nat
  thRun : Nat
  recSeq : Word
  recB  : Bool
  runDue : Bool
  fuse  : Option (Nat × Word)
  hour  : Nat
  warned : Bool
  deriving DecidableEq, Repr

/-- Reset and assay after power-on reset, before the boot ROM has cleared the locket and set LKV (R587). -/
def SysSt.init : SysSt := { lkv := false, hist := [], thRun := 0, recSeq := 0, recB := true, runDue := false, fuse := none, hour := 0, warned := false }

/-- The runs of consecutive samples outside and inside a window (R309, R337). -/
structure WinSt where
  outs : Nat
  ins  : Nat
  deriving DecidableEq, Repr

/-- A precision channel (R300–R311, R319): the settings in force, whether changed ones wait for the boundary, the samples that still carry
SETL, the output periods in the filter's window, newest first, as (converted under a doubtful bandgap, bandgap), the same of the period
under way, the window runs, the sample count, whether the last sample carried OVR or OPEN, whether the stale timer has stopped. -/
structure PrecSt where
  cfg  : Word
  exc  : Word
  pend : Bool
  setl : Nat
  win  : List (Bool × Nat)
  sus  : Bool
  bg   : Nat
  wrun : WinSt
  seq  : Nat
  frun : Bool
  off  : Bool
  deriving DecidableEq, Repr

/-- The cold-junction sensor (R297, R298): the latest valid reading since CJEN was set with its device time and its SREF, whether the latest
reading was invalid, whether a doubtful bandgap was selected since the last reading. -/
structure CjSt where
  good : Option (Word × Nat × Bool)
  bad  : Bool
  sus  : Bool
  deriving DecidableEq, Repr

/-- A crossing converter (R328–R333): the level last reported, the device time of the last report pushed, whether crossings are held, the TQ of the
last crossing, the report count, whether a report was discarded since the last one pushed, whether a failed test awaits its
acquisition, whether the quiet timer is stopped until the next report (R333). -/
structure XingSt where
  rep  : Nat
  at?  : Option Nat
  held : Bool
  tq   : Nat
  cnt  : Nat
  lost : Bool
  bad  : Bool
  off  : Bool
  deriving DecidableEq, Repr

/-- An input of SAR, PULSE or COND (R335–R338): its sample count, whether X stands for its next sample, its window runs, whether its stale
timer has stopped, whether a doubtful bandgap was selected since its last sample, whether its last result was current-limited. -/
structure InSt where
  seq  : Nat
  x    : Bool
  wrun : WinSt
  off  : Bool
  sus  : Bool
  lim  : Bool
  deriving DecidableEq, Repr

/-- A sampler core (R341–R344): the step under way, whether its stale timer has stopped, whether a doubtful bandgap was selected since the step
began (R336). -/
structure SarSt where
  step : Nat
  off  : Bool
  sus  : Bool
  deriving DecidableEq, Repr

/-- A pulse input's edges (R346): edges since the last report of MODE 1, the device time of the last report's edge, edges in the interval, the stamp of
the interval's last edge. -/
structure PulseSt where
  edges : Nat
  ref?  : Option Nat
  cnt   : Nat
  last? : Option Nat
  deriving DecidableEq, Repr

/-- Measurement state that is no register: precision channels, the cold junction, the runs of bandgap comparisons above 1.5 mV and 12 mV
(R317), crossing converters, sampler cores, and the inputs of SAR, PULSE and COND. -/
structure MeasSt where
  prec  : SMap PrecSt
  cj    : CjSt
  bg15  : SMap Nat
  bg12  : SMap Nat
  xing  : SMap XingSt
  core  : SMap SarSt
  sar   : SMap InSt
  pulse : SMap InSt
  edge  : SMap PulseSt
  cond  : SMap InSt
  deriving DecidableEq, Repr

/-- No samples in either run. -/
def WinSt.init : WinSt := { outs := 0, ins := 0 }

/-- A precision channel after power-on reset. -/
def PrecSt.init : PrecSt :=
  { cfg := 0, exc := 0, pend := false, setl := 0, win := [], sus := false, bg := 0, wrun := WinSt.init, seq := 0, frun := false,
    off := false }

/-- The cold-junction sensor with no reading. -/
def CjSt.init : CjSt := { good := none, bad := false, sus := false }

/-- A crossing converter after power-on reset. -/
def XingSt.init : XingSt := { rep := 0, at? := none, held := false, tq := 3, cnt := 0, lost := false, bad := false, off := true }

/-- An input after power-on reset. -/
def InSt.init : InSt := { seq := 0, x := false, wrun := WinSt.init, off := false, sus := false, lim := false }

/-- An idle sampler core. -/
def SarSt.init : SarSt := { step := 0, off := false, sus := false }

/-- A pulse input that has seen no edge. -/
def PulseSt.init : PulseSt := { edges := 0, ref? := none, cnt := 0, last? := none }

/-- Measurement after power-on reset. -/
def MeasSt.init : MeasSt :=
  { prec := [], cj := CjSt.init, bg15 := [], bg12 := [], xing := [], core := [], sar := [], pulse := [], edge := [], cond := [] }

/-- A gate-driver bridge (R384–R390): whether its counter runs; the PER, ALIGN and DT in force; the value in force of each phase (none:
de-energised); a latched trip of the whole bridge; the phases a trip holds off until the next boundary; the hold of all gates after a
VGD undervoltage or while the PWM island is gated (R610) and of high sides after a bootstrap undervoltage, each ended at a boundary. -/
structure BrSt where
  count  : Bool
  per    : Nat
  align  : Bool
  dt     : Nat
  vals   : SMap (Option Word)
  tripAll : Bool
  tripPh : BitVec 3
  vgHold : Bool
  bsHold : BitVec 3
  deriving DecidableEq, Repr

/-- A valve driver channel (R391–R393): whether the value taken is on, the device time of a queued request, whether the switch-on has
had its open-coil check. -/
structure SolSt where
  want    : Bool
  since   : Nat
  checked : Bool
  deriving DecidableEq, Repr

/-- An SSR output (R395, R396): the value in force, the burst accumulator now and as this half-cycle began, the delay and width in µs of the
phase-mode pulse of this half-cycle, whether this half-cycle has been counted as fired, and the off time after an overcurrent. -/
structure SsrSt where
  v    : Word
  acc  : Nat
  acc0 : Nat
  fire : Option (Nat × Nat)
  hit  : Bool
  oc   : Bool
  deriving DecidableEq, Repr

/-- A zero-cross input (R394): the last half-periods in µs, newest first, the run of half-periods within range, the ticks since the last
half-cycle start, the ticks to a half-cycle start that ZOFS shifts. -/
structure ZcSt where
  halves : List Nat
  good   : Nat
  age    : Option Nat
  wait   : Option Nat
  deriving DecidableEq, Repr

/-- A command packet being taken at an inlet (R360): first output, payload items announced and taken, whether it is refused whole, and the
values released to bridge phases that wait for the packet's end. -/
structure ClPacket where
  first : Nat
  len   : Nat
  got   : Nat
  bad   : Bool
  group : List (Nat × Word)
  deriving DecidableEq, Repr

/-- An interlock rule (R374): the runs of updates that meet its trip and its release condition, and a trip that is due. -/
structure RuleSt where
  trun : Nat
  rrun : Nat
  due  : Bool
  deriving DecidableEq, Repr

/-- Energy accounting of an output (R367): its 16 bins, the current one first, and the remainder carried. -/
structure Energy where
  bins : List Nat
  rem  : Nat
  deriving DecidableEq, Repr

/-- Actuation state that is no register. By output: the value the driver's island has taken (none: de-energised), the hold of the
mixed-signal die after a heartbeat loss (R20), the sub-envelope of the command that moves it (R366), the expiry of its watchdog since
the last restart (R368), its energy. By queue: items in a from-fabric queue whose island stands still (R288). Values the clasp holds at a
full queue, urgent ones first (R380), as (output, value, urgent). The inlet served last (R359). The grant table (R370) as (capsule, output, sub-envelope). -/
structure ActSt where
  sh     : SMap (Option Word)
  hbOff  : SMap Bool
  rsub   : SMap (Option Nat)
  wdx    : SMap Bool
  energy : SMap Energy
  eDt    : Nat
  fq     : SMap (List (Nat × Word × Bool))
  held   : List (Nat × Word × Bool)
  pk     : SMap (Option ClPacket)
  rules  : SMap RuleSt
  inlet  : Nat
  grants : List (Nat × Nat × Nat)
  br     : SMap BrSt
  sol    : SMap SolSt
  solq   : List Nat
  ssr    : SMap SsrSt
  zc     : SMap ZcSt
  deriving DecidableEq, Repr

/-- A bridge after power-on reset. -/
def BrSt.init : BrSt :=
  { count := false, per := 8000, align := false, dt := 80, vals := [], tripAll := false, tripPh := 0, vgHold := false, bsHold := 0 }

/-- A valve driver after power-on reset. -/
def SolSt.init : SolSt := { want := false, since := 0, checked := false }

/-- An SSR output after power-on reset. -/
def SsrSt.init : SsrSt := { v := 0, acc := 0, acc0 := 0, fire := none, hit := false, oc := false }

/-- A zero-cross input after power-on reset. -/
def ZcSt.init : ZcSt := { halves := [], good := 0, age := none, wait := none }

/-- A rule with no updates yet. -/
def RuleSt.init : RuleSt := { trun := 0, rrun := 0, due := false }

/-- No energy accounted. -/
def Energy.init : Energy := { bins := [], rem := 0 }

/-- Actuation after power-on reset (R358). -/
def ActSt.init : ActSt :=
  { sh := [], hbOff := [], rsub := [], wdx := [], energy := [], eDt := 0, fq := [], held := [], pk := [], rules := [], inlet := 63, grants := [],
    br := [], sol := [], solq := [], ssr := [], zc := [] }

/-- A CAN controller (R437–R439): received frames and frames to send as word lists, oldest first; the words of the frame being written;
an ABORT that waits for the frame on the bus; a bus-off recovery asked for. -/
structure CanSt where
  rx    : List (List Word)
  tx    : List (List Word)
  part  : List Word
  abort : Bool
  recov : Bool
  deriving DecidableEq, Repr

/-- A UART (R441): its FIFOs, the item being sent at the head of `tx`; whether its direction pin is driven (R611). -/
structure UartSt where
  rx : List Word
  tx : List Word
  de : Bool
  deriving DecidableEq, Repr

/-- An SPI controller (R443): its FIFOs, the word being sent at the head of `tx`; chip select asserted between words; END asked for. -/
structure SpiSt where
  rx     : List Word
  tx     : List Word
  cs     : Bool
  ending : Bool
  deriving DecidableEq, Repr

/-- An I²C controller (R444): its FIFOs, the command under way at the head of `cmd`; whether it holds the bus. -/
structure I2cSt where
  cmd : List Word
  rx  : List Word
  own : Bool
  deriving DecidableEq, Repr

/-- The I²C target (R446, R447): its FIFOs, whether the next byte written is the first, a byte that waits for room, whether the rest of the
transfer is not served since a stretch limit. -/
structure I2ctSt where
  rx    : List Word
  tx    : List Word
  first : Bool
  held  : Option Word
  dead  : Bool
  deriving DecidableEq, Repr

/-- A frame being sent (R431): word 0 of its descriptor, its words, whether a buffer access failed. -/
structure EthTx where
  w0    : Word
  words : List Word
  bad   : Bool
  deriving DecidableEq, Repr

/-- A transaction on the xSPI pins (R450, R452): its opcode, its 32-bit byte address, the bytes it moves. -/
structure FlashTx where
  op   : Nat
  addr : Nat
  n    : Nat
  deriving DecidableEq, Repr

/-- Communication state that is no register: the frame being sent, whether the transmit engine has to read its next descriptor once a hold
ends (R428); the MDIO access under way, as the ticks it still lasts and what the PHY answers (R433); the device time at which step 3 of the
shedding ladder came into force (R428); the flash transaction sent last; of the crypto engine the job under way (0 none), of the entropy
source its FIFO and the blocks of its start-up test still to come. -/
structure CommSt where
  ethTx : Option EthTx
  ethDue : Bool
  mdio  : Option (Nat × Word)
  shedAt : Option Nat
  flash : Option FlashTx
  can   : SMap CanSt
  uart  : SMap UartSt
  spi   : SMap SpiSt
  i2c   : SMap I2cSt
  i2ct  : I2ctSt
  job   : Nat
  rng   : List Word
  rngN  : Nat
  deriving DecidableEq, Repr

/-- A CAN controller with empty FIFOs. -/
def CanSt.init : CanSt := { rx := [], tx := [], part := [], abort := false, recov := false }

/-- A UART with empty FIFOs. -/
def UartSt.init : UartSt := { rx := [], tx := [], de := false }

/-- An SPI controller with empty FIFOs. -/
def SpiSt.init : SpiSt := { rx := [], tx := [], cs := false, ending := false }

/-- An I²C controller with empty FIFOs. -/
def I2cSt.init : I2cSt := { cmd := [], rx := [], own := false }

/-- The I²C target with empty FIFOs. -/
def I2ctSt.init : I2ctSt := { rx := [], tx := [], first := false, held := none, dead := false }

/-- Communication after power-on reset. -/
def CommSt.init : CommSt :=
  { ethTx := none, ethDue := false, mdio := none, shedAt := none, flash := none, can := [], uart := [], spi := [], i2c := [], i2ct := I2ctSt.init, job := 0, rng := [], rngN := 0 }

/-- A Chaden port (R472, R473): the LSEQ of the next frame sent and of the next expected, whether a NAK has been sent since the last
accepted frame, frames sent and unacknowledged as (LSEQ, words, sendings), relayed frames and frames of its own that wait, the characters of
the ordered set, the beacon or the new frame sent last, the wake bursts sent (R542), and whether it is DEAD and its link has not been lost
since (R473). -/
structure PortSt where
  txSeq : Nat
  rxSeq : Nat
  nakked : Bool
  unack : List (Nat × List Word × Nat)
  relay : List (List Word)
  queue : List (List Word)
  last  : List Nat
  bursts : Nat
  stuck : Bool
  deriving DecidableEq, Repr

/-- An outstanding posted write (R484): its place in the order of all posted writes, worker, worker address, capsule, thread, data, the
number of its access, the tick of its acceptance. -/
structure PostedWr where
  ord    : Nat
  worker : Nat
  waddr  : Word
  cid    : Nat
  thread : Nat
  data   : List Word
  acc    : Nat
  since  : Nat
  deriving DecidableEq, Repr

/-- An outstanding window read (R483, R497): its TAG, worker, worker address, capsule, the access that waits, the
posted writes accepted before it, and the tick of its acceptance. -/
structure WindowRd where
  tag    : Nat
  worker : Nat
  waddr  : Word
  cid    : Nat
  eng    : Nat
  ac     : Access
  after  : Nat
  since  : Nat
  deriving DecidableEq, Repr

/-- A CHN_DRAIN wait (R488): its thread, the nesting depth at which it was begun, the number of its store's access, which every posted write
it waits for precedes. -/
structure DrainSt where
  thread : Nat
  depth  : Nat
  acc    : Nat
  deriving DecidableEq, Repr

/-- Chaden Link state that is no register. On a manager: outstanding writes (oldest first) and reads, the posted writes so far and the next
TAG; by thread the sequence of its last write, its failures since its last drain ended and that drain's value; the drains; the
enumeration's phase (0 none, 1 waiting, 2 first side, 3 second side), its first port, the workers found, whether MORE was reported; the ring breaks known. On a worker: far-side last sequence performed, responses held by TAG, writes
performed since the last WACK, whether the link delay has been measured since the upstream port last changed, whether LOCK has been set
since the events of R494, the runs of beacons within 30 ns and above 40 ns. `beacon` says that a tick has come whose beacon is still to be
sent (R490). -/
structure ChnSt where
  port   : SMap PortSt
  wr     : List PostedWr
  rd     : List WindowRd
  count  : Nat
  tag    : Nat
  last   : SMap Word
  fails  : SMap Nat
  dval   : SMap Nat
  drains : List DrainSt
  phase  : Nat
  first  : Nat
  found  : Nat
  more   : Bool
  breaks : List Nat
  farSeq : Option Word
  farRsp : List (Nat × List Word)
  farN   : Nat
  dlyOk  : Bool
  echo   : Bool
  locked : Bool
  good   : Nat
  poor   : Nat
  beacon : Bool
  deriving DecidableEq, Repr

/-- A port that has sent and received nothing. -/
def PortSt.init : PortSt := { txSeq := 0, rxSeq := 0, nakked := false, unack := [], relay := [], queue := [], last := [], bursts := 0, stuck := false }

/-- Chaden Link after power-on reset. -/
def ChnSt.init : ChnSt :=
  { port := [], wr := [], rd := [], count := 0, tag := 0, last := [], fails := [], dval := [], drains := [], phase := 0, first := 0,
    found := 0, more := false, breaks := [], farSeq := none, farRsp := [], farN := 0, dlyOk := false, echo := false,
    locked := false, good := 0, poor := 0, beacon := false }

/-- Supply and power-state state that is no register: the power state (0 RUN, 1 DOZE, 2 PATROL, 3 DORMANT); the steps the filtered VIN
holds, and whether it is below 6.0 V; the hold-up switch; the milliseconds of the ride and of rest; of the charge under way the
milliseconds and the voltage since its latest second began, charge and voltage at its start, and of one that has ended and awaits its
measurement their rise; the state being entered, whether by a forced entry, and the participants
whose refusal or delay a forced entry passes over; a wake latched since the point of no return; the patrol visits since it and the AWU count of the last one; whether the charger has stopped on
a fault (R513); by core domain the level that a change in progress leads to (R506). -/
structure PwrSt where
  state   : Nat
  vinStep : Nat
  vinLow  : Bool
  ride    : Bool
  rideMs  : Nat
  chgMs   : Nat
  chgQ    : Nat
  chgV    : Nat
  chgV1   : Nat
  chgDone : Bool
  restMs  : Nat
  tgt     : Nat
  forced  : Bool
  past    : BitVec 16
  wake    : Bool
  visits  : Nat
  visitN  : Nat
  chgStop : Bool
  goal    : SMap (Option Nat)
  deriving DecidableEq, Repr

/-- Supply and power states after power-on reset: RUN, no step in force. -/
def PwrSt.init : PwrSt :=
  { state := 0, vinStep := 0, vinLow := false, ride := false, rideMs := 0, chgMs := 0, chgQ := 0, chgV := 0, chgV1 := 0, chgDone := false, restMs := 0,
    tgt := 0, forced := false, past := 0, wake := false, visits := 0, visitN := 0, chgStop := false, goal := [] }

/-- Fault-unit state that is no register: by pair, the code of a trigger whose takeover has not started (R562); the device times of the
die-link faults of the last millisecond (R568); the heartbeat lost and when (R20, R560); the clusters being readmitted (R559); by pair, trigger code, SEQ and LEN of a takeover whose shadow has been
enabled and has not issued (R565); by pair the tick at which its deadline watch was loaded, and the pairs whose deadline has expired and is
still to be reported (R563); the tick of the escalation under way (R568). -/
structure FltSt where
  trig  : SMap (Option Nat)
  dl    : List Nat
  hb    : Option Nat
  readm : List Nat
  took  : SMap (Option (Nat × Nat × Nat))
  ckAt  : SMap (Option Nat)
  ckDue : List Nat
  escAt : Nat
  deriving DecidableEq, Repr

/-- The fault unit after power-on reset. -/
def FltSt.init : FltSt := { trig := [], dl := [], hb := none, readm := [], took := [], ckAt := [], ckDue := [], escAt := 0 }

/-- The Loupe port (R595–R602): the TAP's instruction register and boundary cells; CODE, ADDR and DATA of the last command completed; the
capsule selected; nonce, key and response words; the lockout after a failed unlock; the FREEZE bit. -/
structure LoupeSt where
  ir     : Nat
  bsr    : BitVec 402
  code   : Nat
  addr   : Word
  data   : Word
  cid    : Nat
  nonce  : List Word
  key    : SMap Word
  resp   : SMap Word
  lockout : Bool
  freeze : Bool
  deriving DecidableEq, Repr

/-- The Loupe port after power-on reset: the TAP holds IDCODE. -/
def LoupeSt.init : LoupeSt :=
  { ir := 2, bsr := 0, code := 0, addr := 0, data := 0, cid := 0, nonce := [], key := [], resp := [], lockout := false, freeze := false }

/-- The die link (R634): the registers whose changed analog settings have still to be sent to the mixed-signal die, in order, and by register
what the mixed-signal die holds of it, kept from the first change to a register on (`State.an`). -/
structure DieLink where
  xfer : List Nat
  held : SMap Word
  deriving DecidableEq, Repr

/-- The die link after power-on reset. -/
def DieLink.init : DieLink := { xfer := [], held := [] }

end Sys2Proof.Machine
end

