-- ==== Sys2Proof/Machine/State.lean ====
section
/-!
DEFINITION. The state of the device as plain data, its fault and refusal types, and the state after reset.
-/

namespace Sys2Proof.Machine

/-- Device events on their way: crossings of the islands' handshakes in progress (R34) and events that have entered the router (R32). -/
structure EvQ where
  crossing : List Nat
  router   : List Nat
  deriving DecidableEq, Repr

/-- The state of the block. `pending` is the queue of commands that wait; `fresh` numbers the free values drawn; `rdata` is the
word the last register-load command returned (the model's own fields). `regs` holds every device register whose value differs from
its reset value; `mem` every memory word that differs from what an unlisted one reads as. -/
structure State where
  pending : List Instr
  fresh   : Nat
  rdata   : Word
  regs    : SMap Word
  mem     : SMap MCell
  thr     : SMap Thread
  eng     : SMap Engine
  ev      : EvQ
  memc    : Memc
  bz      : Bezel
  str     : SMap Strand
  land    : SMap (Option Landing)
  bq      : SMap (List BqItem)
  time    : TimeSt
  sys     : SysSt
  meas    : MeasSt
  act     : ActSt
  comm    : CommSt
  chn     : ChnSt
  pwr     : PwrSt
  flt     : FltSt
  lp      : LoupeSt
  dl      : DieLink
  deriving DecidableEq, Repr

/-- Why the machine stops with a fault. No meaning of this model raises one: every exception of the device is taken by a thread
(R166) and every device fault is logged (R570), so the type has the one reason that a reader may name; safe. -/
inductive Fault where
  /-- Raised by nothing: kept so that the type is closed and has a name to report; safe. -/
  | deviceStopped
  deriving DecidableEq, Repr

/-- Why the machine refuses a command. -/
inductive Refusal where
  /-- The dispatch raises it for a command that has no meaning yet, by mnemonic; safe. -/
  | notModelled (mnemonic : String)
  deriving DecidableEq, Repr

/-- The machine right after power-on reset, with the straps read as 0 (R583, R585): every register at its reset value, no memory
word listed, T0 of engine 0 enabled in the boot ROM (R81), every other thread OFF, every queue empty. -/
def State.reset : State :=
  { pending := [], fresh := 0, rdata := 0, regs := [], mem := [], thr := [(0, Thread.boot)], eng := [],
    ev := { crossing := [], router := [] },
    memc := { wbuf := [], resv := [], scrub := 0, rr := [], due := false },
    bz := { caps := [], check := none },
    str := [], land := [], bq := [],
    time := TimeSt.init, sys := SysSt.init, meas := MeasSt.init, act := ActSt.init, comm := CommSt.init, chn := ChnSt.init,
    pwr := PwrSt.init, flt := FltSt.init, lp := LoupeSt.init, dl := DieLink.init }

end Sys2Proof.Machine
end

