-- ==== Sys2Proof/Machine/Ops.lean ====
section
/-!
DEFINITION. The named operations over registers, memory, events and threads that every meaning uses: reading and writing a
device register, raising a device event, the logs, the memories with their check bits, translation, and TAKING AN EXCEPTION OR
INTERRUPT and returning from one.
-/

namespace Sys2Proof.Machine

open Sys2Proof

/-- What a meaning answers. -/
abbrev Out := Host.Outcome State Fault Refusal

/-! ### Device registers -/

/-- The reset value of the register at address `a` (R11): the map's, but for the registers whose reset value depends on their index:
ENG_TCTL of engine 0 (R81), EVI_MASK2, STR_BQqSTAT of the from-fabric queues, and the identity lines of R312. -/
def regReset (a : Nat) : Word :=
  match regGroup a with
  | none => 0
  | some g =>
    if a = 0xF80001 then 1
    else if 0xF80000 ≤ a ∧ a ≤ 0xFBFFFF ∧ a % 0x800 = 0x40E then 0x00FFFF
    else if g.base = 0xF43401 ∧ 64 ≤ g.index a 0 then 0x800000
    else if g.base = 0xF10800 then
      (let i := g.index a 2
       if i = 0 then 0x800001 else if i = 256 then 0x7FFFFF else i24 ((i : Int) * 0x10000 - 0x800000))
    else w24 g.reset

/-- The word the register at address `a` holds. -/
def State.rd (s : State) (a : Nat) : Word := SMap.get (regReset a) s.regs a

/-- The state with the register at address `a` holding `v`: the device's own update, not a software write. -/
def State.wr (s : State) (a : Nat) (v : Word) : State := { s with regs := SMap.set (regReset a) s.regs a v }

/-- A field of a register, as a number. -/
def State.fl (s : State) (a : Nat) (f : Fld) : Nat := getF (s.rd a) f

/-- A field of a register is not 0. -/
def State.fb (s : State) (a : Nat) (f : Fld) : Bool := decide (s.fl a f ≠ 0)

/-- The state with one field of a register set. -/
def State.sf (s : State) (a : Nat) (f : Fld) (n : Nat) : State := s.wr a (setF (s.rd a) f n)

/-- The registers of a block split between the dies, and the I²C target's configuration (R634). -/
def splitBlock (a : Nat) : Bool :=
  decide (0xF04000 ≤ a ∧ a ≤ 0xF04FFF) || decide (0xF10000 ≤ a ∧ a ≤ 0xF27FFF) || decide (a = Reg.I2CT_CFG)

/-- The register at `a` holds a setting: a field that software writes and keeps. -/
def isSetting (a : Nat) : Bool := match regGroup a with | some g => decide (g.k ||| g.rw ≠ 0) | none => false

/-- `t` is the state after a write to the register at `a`: a changed setting of a split block waits for its transfer to the mixed-signal die,
which goes on holding what it held (R634). -/
def State.sends (s : State) (a : Nat) (t : State) : State :=
  if splitBlock a && isSetting a && decide (t.rd a ≠ s.rd a) && !t.dl.xfer.contains a then
    { t with dl := { xfer := t.dl.xfer ++ [a], held := SMap.set (regReset a) t.dl.held a (s.rd a) } }
  else t

/-- A setting as the mixed-signal die has it, of which `v` is in force on the fabric die: a transfer that has not arrived leaves the old one
(R634). -/
def State.arrived (s : State) (a : Nat) (v : Word) : Word := if s.dl.xfer.contains a then SMap.get (regReset a) s.dl.held a else v

/-- The register at `a` as the mixed-signal die has it (R634). -/
def State.an (s : State) (a : Nat) : Word := s.arrived a (s.rd a)

/-- A counting field raised by one; it saturates at its maximum. -/
def State.inc (s : State) (a : Nat) (f : Fld) : State := s.sf a f (satInc (s.fl a f) f.max)

/-- The whole word as a field. -/
abbrev fullF : Fld := ⟨23, 0⟩

/-- Bit `n` of a word, as a field. -/
abbrev bitF (n : Nat) : Fld := ⟨n, n⟩

/-- A whole-word counter raised by one; it saturates at 0xFFFFFF. -/
def State.incW (s : State) (a : Nat) : State := s.inc a fullF

/-! ### Work while an entry to a power state is in progress -/

/-- An entry is in progress and before its point of no return (R527). -/
def State.entering (s : State) : Bool := s.fb Reg.PWR_PSSTAT Reg.PWR_PSSTAT_BUSY

/-- Participant `p` (R528) has answered OK in the entry in progress: it takes no new frame, job, command or access (R529). -/
def State.resting (s : State) (p : Nat) : Bool := s.entering && s.fb Reg.PWR_PSVOTE (bitF p)

/-- New work `t` of participant `p`, which it takes unless it rests (R529). -/
def State.taking (s : State) (p : Nat) (t : State) : State := if s.resting p then s else t

/-- The participant whose block holds the device register at `a` and which may rest. PWR and AWU take accesses all through an entry (R527,
R549), and so do the engines' registers. -/
def partOf (a : Nat) : Option Nat :=
  if 0xF28000 ≤ a ∧ a < 0xF30000 then some 2
  else if 0xF30000 ≤ a ∧ a < 0xF32000 then some 6
  else if 0xF32000 ≤ a ∧ a < 0xF34000 then some (if a < 0xF33000 then 7 else 8)
  else if 0xF34000 ≤ a ∧ a < 0xF36000 then some 9
  else if 0xF36000 ≤ a ∧ a < 0xF37800 then some 10
  else if 0xF38000 ≤ a ∧ a < 0xF39000 then some 11
  else if 0xF39000 ≤ a ∧ a < 0xF3A000 then some 12
  else if 0xF3A000 ≤ a ∧ a < 0xF3C000 then some 5
  else if 0xF3C000 ≤ a ∧ a < 0xF40000 then some 13
  else if 0xF40000 ≤ a ∧ a < 0xF41000 then some 1
  else if 0xF41000 ≤ a ∧ a < 0xF42000 then some 3
  else if 0xF42000 ≤ a ∧ a < 0xF44000 then some 4
  else none

/-- The block of the device register at `a` rests and takes no access (R529). -/
def State.restAt (s : State) (a : Nat) : Bool := match partOf a with | some p => s.resting p | none => false

/-! ### Free values -/

/-- The next free word (log entry 6), and the state that has drawn it. -/
def State.draw (s : State) : State × Word := ({ s with fresh := s.fresh + 1 }, Config.freeWord s.fresh)

/-! ### Device time -/

/-- Bits [hi:lo] of device time, as a number. -/
def State.dtBits (s : State) (hi lo : Nat) : Nat := (s.time.dt.toNat >>> lo) % 2 ^ (hi + 1 - lo)

/-! ### Events -/

/-- The clocked island in which the block that raises device event `ev` lies, by R25 and R30: 0 TB, 1 ETH, 2 CAN, 3 USB, 4 XSPI,
5 PWM, 6 SARC, 7 DSM, 8 CHN, 9 TCK; none for a block of the spine or of the always-on domain. -/
def eventIsland (ev : Nat) : Option Nat :=
  if 0x080 ≤ ev ∧ ev ≤ 0x08F then some 0
  else if 0x0A0 ≤ ev ∧ ev ≤ 0x11F then some 0
  else if 0x150 ≤ ev ∧ ev ≤ 0x167 then some 0
  else if 0x120 ≤ ev ∧ ev ≤ 0x19F then some 7
  else if 0x1A0 ≤ ev ∧ ev ≤ 0x1FF then some 0
  else if 0x21C ≤ ev ∧ ev ≤ 0x21F then some 0
  else if 0x200 ≤ ev ∧ ev ≤ 0x23F then some 6
  else if 0x240 ≤ ev ∧ ev ≤ 0x257 then some 0
  else if 0x260 ≤ ev ∧ ev ≤ 0x263 then some 0
  else if 0x258 ≤ ev ∧ ev ≤ 0x27F then some 7
  else if 0x280 ≤ ev ∧ ev ≤ 0x2BF then some 5
  else if 0x2C0 ≤ ev ∧ ev ≤ 0x2EF then some 0
  else if 0x370 ≤ ev ∧ ev ≤ 0x377 then some 1
  else if 0x378 ≤ ev ∧ ev ≤ 0x38F then some 2
  else if 0x390 ≤ ev ∧ ev ≤ 0x393 then some 4
  else if 0x394 ≤ ev ∧ ev ≤ 0x397 then some 2
  else if 0x39C ≤ ev ∧ ev ≤ 0x39F then some 3
  else if 0x3A0 ≤ ev ∧ ev ≤ 0x3A3 then some 4
  else if 0x3B0 ≤ ev ∧ ev ≤ 0x3CF then some 8
  else if 0x3F0 ≤ ev ∧ ev ≤ 0x3FF then some 9
  else none

/-- A device event is raised. From a clocked island it starts its handshake crossing, or merges with a crossing of the same event
still in progress (R34); from any other block it enters the router. In PATROL and DORMANT the router has no supply, and the event is
lost (R526, log entry 32). -/
def State.raise (s : State) (ev : Nat) : State :=
  if 2 ≤ s.pwr.state then s
  else match eventIsland ev with
  | none => { s with ev := { s.ev with router := s.ev.router ++ [ev] } }
  | some _ =>
    if ev ∈ s.ev.crossing then (s.incW Reg.EVR_MERGE).sf Reg.EVR_MLAST Reg.EVR_MLAST_EVENT ev
    else { s with ev := { s.ev with crossing := s.ev.crossing ++ [ev] } }

/-- Raise an event where a condition holds. -/
def State.raiseIf (s : State) (c : Bool) (ev : Nat) : State := if c then s.raise ev else s

/-! ### Threads and engines -/

/-- Thread `k` (R233: k = engine × 4 + thread). -/
def State.th (s : State) (k : Nat) : Thread := SMap.get Thread.off s.thr k

/-- The Loupe freeze signal is asserted (R602): by FREEZE, or under SYS_DBG.AUTOFRZ while some thread is halted. -/
def State.frozen (s : State) : Bool :=
  s.lp.freeze || (s.fb Reg.SYS_DBG Reg.SYS_DBG_AUTOFRZ && s.thr.any (fun p => decide (p.2.halt ≠ 0)))

/-- The state with thread `k` set. -/
def State.setTh (s : State) (k : Nat) (t : Thread) : State := { s with thr := SMap.set Thread.off s.thr k t }

/-- Engine `e`. -/
def State.en (s : State) (e : Nat) : Engine := SMap.get Engine.init s.eng e

/-- The state with engine `e` set. -/
def State.setEn (s : State) (e : Nat) (x : Engine) : State := { s with eng := SMap.set Engine.init s.eng e x }

/-- The state with thread `k` changed by `f`. -/
def State.mapTh (s : State) (k : Nat) (f : Thread → Thread) : State := s.setTh k (f (s.th k))

/-- The state with engine `e` changed by `f`. -/
def State.mapEn (s : State) (e : Nat) (f : Engine → Engine) : State := s.setEn e (f (s.en e))

/-- A general register as the thread's next instruction reads it: g0 reads 0 (R89), a destination in the load shadow reads the value
before the load (R64). -/
def Ctx.rdG (c : Ctx) (r : Nat) : Word :=
  if r = 0 then 0
  else match c.shadow.find? (fun p => p.1 == r) with
    | some p => p.2
    | none => SMap.get 0 c.g r

/-- The value of a general register without the load shadow. -/
def Ctx.peekG (c : Ctx) (r : Nat) : Word := if r = 0 then 0 else SMap.get 0 c.g r

/-- A write of a general register: g0 discards it (R89), and a younger write ends the register's wait for an older load (R66). -/
def Ctx.wrG (c : Ctx) (r : Nat) (v : Word) : Ctx :=
  if r = 0 then c else { c with g := SMap.set 0 c.g r v, pend := c.pend.filter (fun p => p.1 != r) }

/-- Accumulator 0 or 1. -/
def Ctx.rdA (c : Ctx) (ac : Nat) : Acc := if ac = 0 then c.a0 else c.a1

/-- A write of an accumulator. -/
def Ctx.wrA (c : Ctx) (ac : Nat) (v : Acc) : Ctx := if ac = 0 then { c with a0 := v } else { c with a1 := v }

/-- Data of access `id` reaches every register that still waits for it, and every value of the load shadow that does. -/
def Ctx.deliver (c : Ctx) (id : Nat) (rd : Nat) (d0 d1 : Word) : Ctx :=
  let put := fun (g : SMap Word) (p : Nat × Nat) =>
    if p.2 = id ∧ p.1 ≠ 0 then SMap.set 0 g p.1 (if p.1 = rd then d0 else d1) else g
  let old := fun (q : Nat × Word) => if c.shPend.contains (q.1, id) then (q.1, if q.1 = rd then d0 else d1) else q
  { c with g := c.pend.foldl put c.g, pend := c.pend.filter (fun p => p.2 != id),
           shadow := c.shadow.map old, shPend := c.shPend.filter (fun p => p.2 != id) }

/-- The nesting depth of a thread, R166. -/
def Thread.depth (t : Thread) : Nat := t.levels.length

/-! ### Capsules -/

/-- The bezel's bookkeeping of capsule `c`. -/
def State.cap (s : State) (c : Nat) : Capsule := SMap.get Capsule.empty s.bz.caps c

/-- The state with capsule `c`'s bookkeeping set. -/
def State.setCap (s : State) (c : Nat) (x : Capsule) : State :=
  { s with bz := { s.bz with caps := SMap.set Capsule.empty s.bz.caps c x } }

/-- The state with capsule `c`'s bookkeeping changed by `f`. -/
def State.mapCap (s : State) (c : Nat) (f : Capsule → Capsule) : State := s.setCap c (f (s.cap c))

/-- Word `w` of the live descriptor of capsule `c` (R237). -/
def State.desc (s : State) (c w : Nat) : Word := SMap.get 0 (s.cap c).live w

/-- Lifecycle state of capsule `c`, coded as R246; descriptor 0 is LOADED (R238). -/
def State.capState (s : State) (c : Nat) : Nat := if c = 0 then 3 else getBits (s.desc c 0) 23 21

/-- The current placement epoch of capsule `c`. -/
def State.epoch (s : State) (c : Nat) : Nat := getBits (s.desc c 0) 19 16

/-- The capsule whose descriptor serves thread `k`: descriptor 0 at keeper privilege (R231). -/
def State.ownCid (s : State) (k : Nat) : Nat := let b := (s.th k).bind; if b.prv then 0 else b.cid

/-- The epoch a thread's items carry (R234). -/
def State.itemEpoch (s : State) (k : Nat) : Nat := let b := (s.th k).bind; if b.prv then s.epoch 0 else b.tep

/-- The effective shed floor, R257. -/
def State.shedFloor (s : State) : Nat :=
  let v := s.rd Reg.BZ_SHED
  let kf := getF v Reg.BZ_SHED_KFLOOR
  if getF v Reg.BZ_SHED_ACT = 1 then max kf (getF v Reg.BZ_SHED_STEP1) else kf

/-- Why thread `k` is held by the bezel: 0 not held, else the lowest-numbered reason of R235. -/
def State.holdOf (s : State) (k : Nat) : Nat :=
  let t := s.th k
  if t.bind.prv then 0
  else
    let c := t.bind.cid
    if s.capState c ≠ 3 then 1
    else if getBits (s.desc c 0) 10 8 < s.shedFloor then 2
    else if getBits (s.desc c 2) 19 0 ≠ 0 ∧ getBits (s.desc c 0) 11 11 = 1 ∧ t.al = 0 ∧ (s.cap c).rem = 0 then 3
    else 0

/-- Some thread of capsule `c` is held because its budget is exhausted (R256). -/
def State.heldOut (s : State) (c : Nat) : Bool :=
  s.thr.any (fun p => !p.2.bind.prv && decide (p.2.bind.cid = c) && decide (p.2.mode ≠ .off ∧ p.2.mode ≠ .stopping) && decide (s.holdOf p.1 = 3))

/-- The waiting counter of capsule `c` returns to 0 where none of its threads is held any more (R256). -/
def State.waitSettle (s : State) (c : Nat) : State :=
  if (s.cap c).waitc = 0 ∨ s.heldOut c then s else s.mapCap c (fun x => { x with waitc := 0 })

/-- As `waitSettle`, for every capsule. -/
def State.waitSettleAll (s : State) : State := (s.bz.caps.map (fun p => p.1)).foldl (fun s c => s.waitSettle c) s

/-- The granularity of time for capsule `c`, in ticks (R138, TGRAN of R237). -/
def State.tgran (s : State) (c : Nat) : Nat :=
  match getBits (s.desc c 0) 7 6 with
  | 0 => 100
  | 1 => 10
  | 2 => 1
  | _ => 1000

/-- Device time as thread `k` sees it (R137, R138, R262). The mirror equals DT in this model. -/
def State.seenTime (s : State) (k : Nat) : Pair :=
  let b := (s.th k).bind
  if b.prv then s.time.dt
  else BitVec.ofNat 48 (s.time.dt.toNat - s.time.dt.toNat % s.tgran b.cid)

/-- Service mode is in force (R593). -/
def State.service (s : State) : Bool := s.fb Reg.SYS_SVC Reg.SYS_SVC_STRAP || s.fb Reg.SYS_SVC Reg.SYS_SVC_EN

/-! ### Logs -/

/-- A fault-log entry (R570): written at FLT_HEAD, which advances; FLT_ENTRY is raised. `thread` is 0x1FF when none applies. -/
def State.faultLog (s : State) (kind thread detail : Nat) (info : Word) : State :=
  let i := s.fl Reg.FLT_HEAD Reg.FLT_HEAD_HEAD
  let s := s.wr (Reg.FLT_LAi i) (w24 (2 ^ 23 + kind * 2 ^ 18 + (thread % 512) * 2 ^ 9 + detail % 512))
  let s := s.wr (Reg.FLT_LBi i) info
  let s := s.wr (Reg.FLT_LCi i) (w24 (s.dtBits 33 10))
  let s := s.sf Reg.FLT_HEAD Reg.FLT_HEAD_HEAD ((i + 1) % 32)
  s.raise 0x000

/-- A refusal-log entry of the bezel (R265): written at BZ_DLHEAD, counted, DENY raised. -/
def State.denyLog (s : State) (kind cid detail thread : Nat) : State :=
  let i := s.fl Reg.BZ_DLHEAD Reg.BZ_DLHEAD_HEAD
  let s := s.wr (Reg.BZ_DLAi i) (w24 (2 ^ 23 + kind * 2 ^ 20 + (cid % 1024) * 2 ^ 10 + detail % 1024))
  let s := s.wr (Reg.BZ_DLBi i) (w24 (s.dtBits 33 19 * 2 ^ 9 + thread % 512))
  let s := s.sf Reg.BZ_DLHEAD Reg.BZ_DLHEAD_HEAD ((i + 1) % 8)
  (s.incW Reg.BZ_DENYCNT).raise 0x01D

/-- An escalation condition occurs (R568): where FLT_CTL enables it, ESCAL is logged, ESC and ESCR are set and FLT_ESCAL is raised;
while an escalation is under way it is only logged. -/
def State.escalate (s : State) (code : Nat) (en : Fld) : State :=
  if s.fb Reg.FLT_CTL en then
    let was := s.fb Reg.FLT_STAT Reg.FLT_STAT_ESC
    let s := s.faultLog 11 0x1FF code 0
    if was then s else (({ s with flt := { s.flt with escAt := s.time.ticks } }.sf Reg.FLT_STAT Reg.FLT_STAT_ESC 1).sf Reg.FLT_STAT Reg.FLT_STAT_ESCR code).raise 0x006
  else s

/-- A die-link fault (R560): logged with the accessor and the register address, counted, FLT_DIELINK raised; the eighth within 1 ms
escalates (R568). -/
def State.dieLinkFault (s : State) (accessor : Nat) (a : Word) : State :=
  let s := (((s.faultLog 5 accessor 0 a).inc Reg.FLT_CNT0 Reg.FLT_CNT0_DL)).raise 0x005
  let now := s.time.dt.toNat
  let l := (now :: s.flt.dl.filter (fun t => decide ((now - t) ≤ 100000))).take 8
  let s := { s with flt := { s.flt with dl := l } }
  if 8 ≤ l.length then s.escalate 2 Reg.FLT_CTL_DLE else s

/-- The pairs that are armed (R561). -/
def State.armedPairs (s : State) : List Nat :=
  s.regs.filterMap (fun p =>
    if 0xF03500 ≤ p.1 ∧ p.1 < 0xF03600 ∧ p.1 % 8 = 0 ∧ getF p.2 Reg.SP_nCTL_ARMED = 1 then some ((p.1 - 0xF03500) / 8) else none)

/-- A trigger of pair `n` waits for its takeover (R562, R564); the first one stands. -/
def State.trigger (s : State) (n code : Nat) : State :=
  match SMap.get none s.flt.trig n with
  | none => { s with flt := { s.flt with trig := SMap.set none s.flt.trig n (some code) } }
  | some _ => s

/-- The armed pairs whose primary is thread `k` are triggered with `code` (R562): the bit stands in TRIG, and the primary's base binding
is the pair's capsule. -/
def State.pairTrigger (s : State) (k code : Nat) : State :=
  let b := (SMap.get Thread.off s.thr k).baseBind
  (s.armedPairs.filter (fun n =>
    decide (s.fl (Reg.SP_nCTL n) Reg.SP_nCTL_PRI = k) && (s.fl (Reg.SP_nCAP n) Reg.SP_nCAP_TRIG).testBit code &&
    !b.1 && decide (b.2 = s.fl (Reg.SP_nCAP n) Reg.SP_nCAP_CID))).foldl (fun s n => s.trigger n code) s

/-! ### The word address map -/

/-- The region of an address, R38. -/
def region (a : Nat) : Region :=
  if a < 0x400000 then .glob
  else if a < 0x800000 then .mram
  else if a < 0x810000 then .never
  else if a < 0x814000 then .locket
  else if a < 0x900000 then .unmapped
  else if a < 0xA00000 then .localMem
  else if a < 0xC00000 then .cluster
  else if a < 0xE00000 then .chaden
  else if a < 0xF00000 then .xspi
  else .dev

/-- The engine whose local memory holds address `a`. -/
def localEngine (a : Nat) : Nat := (a - 0x900000) / 0x2000

/-- First address of engine `e`'s local memory. -/
def localBase (e : Nat) : Nat := 0x900000 + e * 0x2000

/-- Address `a` lies in engine `e`'s own local memory. -/
def ownLocal (e a : Nat) : Bool := decide (localBase e ≤ a ∧ a < localBase e + 0x2000)

/-- The cluster in whose domain an address of engine local memory, cluster SRAM or an engine block lies. -/
def clusterOf (a : Nat) : Option Nat :=
  if 0x900000 ≤ a ∧ a < 0xA00000 then some (localEngine a / 16)
  else if 0xA00000 ≤ a ∧ a < 0xC00000 then some ((a - 0xA00000) / 0x40000)
  else if 0xF80000 ≤ a ∧ a < 0xFC0000 then some ((a - 0xF80000) / 0x800 / 16)
  else none

/-- Cluster `c` is quarantined (R558). -/
def State.quarantined (s : State) (c : Nat) : Bool := (s.rd Reg.FLT_STAT).getLsbD c

/-- The regions that hold translation tables, R214. -/
def tableRegion (a : Nat) : Bool :=
  match region a with
  | .localMem | .cluster | .glob | .mram | .locket => true
  | _ => false

/-- The regions a save area, a landing bank or a keeper word may lie in: local memory, cluster SRAM, global SRAM. -/
def sramRegion (a : Nat) : Bool :=
  match region a with
  | .localMem | .cluster | .glob => true
  | _ => false

/-- The target of an access lies in a cluster closed by quarantine (R558). -/
def State.closed (s : State) (a : Nat) : Bool := match clusterOf a with | some c => s.quarantined c | none => false

/-- An address in the device region that a block answers (R40, R41), the own-engine view of the accessing engine included. -/
def devExists (a : Nat) : Bool := inBlock a || decide (0xFFF000 ≤ a ∧ a ≤ 0xFFF7FF)

/-- The register an accessor reaches at address `a`: the own-engine view of R43 is the keeper view of the accessing engine. -/
def ownView (who : Who) (a : Nat) : Nat :=
  if 0xFFF000 ≤ a ∧ a ≤ 0xFFF7FF then
    match who with
    | .thread k => 0xF80000 + (k / 4) * 0x800 + (a - 0xFFF000)
    | _ => a
  else a

/-! ### Memory -/

/-- What a memory word that nothing has written reads as: uncorrectable in the SRAMs (R193), 0 in MRAM and locket (log entries 8
and 9: DESIGN CHOICE for SRAM and MRAM; the locket's 0 is R587). -/
def memDflt (a : Nat) : MCell :=
  match region a with
  | .glob | .localMem | .cluster => .bad
  | _ => .good 0

/-- The cell of a memory word. -/
def State.cell (s : State) (a : Nat) : MCell := SMap.get (memDflt a) s.mem a

/-- The state with a memory cell set. -/
def State.setCell (s : State) (a : Nat) (c : MCell) : State := { s with mem := SMap.set (memDflt a) s.mem a c }

/-- The canonical form of the memory list (R38, R191): addresses strictly rising, no entry equal to what an unlisted address reads
as. -/
def memWf (m : SMap MCell) : Bool := SMap.wf memDflt m

/-- The region number of MEMC_ECNTr and of the error log. -/
def regionNo (a : Nat) : Nat :=
  match region a with
  | .localMem => 0
  | .cluster => 1
  | .glob => 2
  | .mram => 3
  | _ => 4

/-- Some valid correctable entry of the error ring names address `a` (REPEAT, R199). -/
def State.errRepeat (s : State) (a : Nat) : Bool :=
  (List.range 8).any (fun i => decide (s.fl (Reg.MEMC_ELINFOi i) Reg.MEMC_ELINFOi_V = 1 ∧
    s.fl (Reg.MEMC_ELINFOi i) Reg.MEMC_ELINFOi_UE = 0 ∧ s.rd (Reg.MEMC_ELADDRi i) = w24 a))

/-- A memory error is logged (R199) and counted (R195, R196), and MEM_CE or MEM_UE raised (R229). -/
def State.errLog (s : State) (a : Nat) (ue : Bool) (src engine synd : Nat) : State :=
  let i := s.fl Reg.MEMC_ELHEAD Reg.MEMC_ELHEAD_HEAD
  let r := b2n (s.errRepeat a)
  let s := s.wr (Reg.MEMC_ELADDRi i) (w24 a)
  let s := s.wr (Reg.MEMC_ELINFOi i)
    (w24 (2 ^ 23 + b2n ue * 2 ^ 22 + r * 2 ^ 21 + regionNo a * 2 ^ 18 + src * 2 ^ 15 + (engine % 128) * 2 ^ 8 + synd))
  let s := s.wr (Reg.MEMC_ELTIMEi i) (w24 (s.dtBits 33 10))
  let s := s.sf Reg.MEMC_ELHEAD Reg.MEMC_ELHEAD_HEAD ((i + 1) % 8)
  let c := Reg.MEMC_ECNTr (regionNo a)
  if ue then (s.inc c Reg.MEMC_ECNTr_UE).raise 0x011 else (s.inc c Reg.MEMC_ECNTr_CE).raise 0x010

/-- The value the MRAM write buffer holds for a word, the youngest first (R201). -/
def State.buffered (s : State) (a : Nat) : Option Word :=
  if region a = .mram then (s.memc.wbuf.reverse.find? (fun e => e.addr == a)).map (fun e => e.val) else none

/-- A read of a memory word by reader `src` (the SRC code of the error log) of engine `engine`: a buffered MRAM word (R201), a good
word, a corrected word written back and logged (R195), or none for an uncorrectable one, which is logged (R196). -/
def State.memRead (s : State) (a src engine : Nat) : State × Option Word :=
  match s.buffered a with
  | some w => (s, some w)
  | none =>
    match s.cell a with
    | .good w => (s, some w)
    | .corr w y => ((s.setCell a (.good w)).errLog a false src engine y.toNat, some w)
    | .bad => (s.errLog a true src engine 0, none)

/-- Loop entries that no longer own the loop buffer. -/
def Ctx.disown (c : Ctx) : Ctx := { c with loops := c.loops.map (fun (l : LoopEnt) => { l with owns := false }) }

/-- The thread's loop entries, in its context and in those its uncommitted instructions would give back, no longer own the loop buffer. -/
def Thread.disown (t : Thread) : Thread :=
  { t with ctx := t.ctx.disown, infl := t.infl.map (fun (i : Infl) => { i with snap := i.snap.disown }) }

/-- The loop buffer of engine `e` is released (R62): every entry invalid, no owner; DIS stays. -/
def State.lbRelease (s : State) (e : Nat) : State :=
  match (s.en e).lb.owner with
  | none => s
  | some k => (s.mapTh k Thread.disown).mapEn e (fun x => { x with lb := { LoopBuf.free with dis := x.lb.dis } })

/-- The commit of an instruction of thread `k` acts on the loop buffer (R59, R62.1). A buffer taken meanwhile by another loop stays. -/
def State.lbDo (s : State) (k : Nat) : LbAct → State
  | .none => s
  | .release => if (s.en (k / 4)).lb.owner = some k then s.lbRelease (k / 4) else s
  | .take bs be pb =>
    let b := (s.en (k / 4)).lb
    if b.owner = none ∧ b.dis = false then
      (s.mapEn (k / 4) (fun x => { x with lb := { owner := some k, bs := bs, be := be, pb := pb, ents := [], fails := [], dis := false } })).incW
        (Reg.ENG_LBFILL (k / 4))
    else s.mapTh k Thread.disown

/-- A loop buffer whose body holds physical address `a` is released (R62.3). -/
def State.lbSnoop (s : State) (a : Nat) : State :=
  if region a = .localMem then
    let e := localEngine a
    let b := (s.en e).lb
    if b.owner.isSome ∧ b.pb ≤ a ∧ a ≤ b.pb + (b.be - b.bs).toNat then s.lbRelease e else s
  else s

/-- The MRAM bank of a word (R191). -/
def mrBank (a : Nat) : Nat := a / 2 % 8

/-- The MRAM write buffer takes a word (R200). The oldest entry of each bank is the write in progress there; a buffered write of the same
word that has not started is replaced, else a new entry is the youngest. `busy` lists the banks of older entries. -/
def mrPut (a : Nat) (w : Word) : List Nat → List MrEnt → List MrEnt
  | _, [] => [{ addr := a, val := w, marked := false }]
  | busy, e :: r =>
    if e.addr = a ∧ mrBank e.addr ∈ busy then { e with val := w } :: r else e :: mrPut a w (mrBank e.addr :: busy) r

/-- The MRAM write buffer takes no write of word `a`: it has no room (R200), or MEMC rests (R529). -/
def State.mrFull (s : State) (a : Nat) : Bool :=
  decide (16 < (mrPut a 0 [] s.memc.wbuf).length) || s.resting 1

/-- A store of a whole word with fresh check bits (R197). MRAM words enter the write buffer (R200). -/
def State.memWrite (s : State) (a : Nat) (w : Word) : State :=
  if region a = .mram then
    let b := mrPut a w [] s.memc.wbuf
    ({ s with memc := { s.memc with wbuf := b } }).sf Reg.MEMC_MRSTAT Reg.MEMC_MRSTAT_PEND b.length
  else (s.setCell a (.good w)).lbSnoop a

/-- The BUS or PERM a data access to physical address `a` meets before it is sent: an unmapped or never-valid address (R38, R635), a
device address outside every block (R41), a store into the xSPI window (R451), the MRAM restrictions of R206, an xchg outside
the memories of R105, a fetch outside the regions of R57. None: the access may be sent. -/
def State.addrFault (s : State) (kind : AccKind) (a : Nat) : Option Cause :=
  match region a with
  | .never | .unmapped => some .bus
  | .dev =>
    (match kind with
     | .fetch | .xchg => some .bus
     | _ => if devExists a then none else some .bus)
  | .mram =>
    (match kind with
     | .xchg => some .bus
     | .store =>
       if 0x7F0000 ≤ a then some .bus
       else if a < 0x500000 ∧ s.fb Reg.MEMC_MRPROT Reg.MEMC_MRPROT_PROTA then some .perm
       else if 0x500000 ≤ a ∧ a < 0x600000 ∧ s.fb Reg.MEMC_MRPROT Reg.MEMC_MRPROT_PROTB then some .perm
       else none
     | _ => none)
  | .xspi => (match kind with | .load => none | _ => some .bus)
  | .chaden =>
    (match kind with
     | .fetch | .xchg => some .bus
     | _ =>
       let n := (a - 0xC00000) / 0x10000
       if s.fb Reg.SYS_STRAP Reg.SYS_STRAP_ROLE ∧ n ≠ 0 ∧ s.fb (Reg.CHN_WnSTAT n) Reg.CHN_WnSTAT_HELD ∧
           s.fb Reg.CHN_STAT Reg.CHN_STAT_ENUMING = false then none else some .bus)
  | .locket => (match kind with | .fetch => some .bus | _ => none)
  | _ => none

/-- A global SRAM request of capsule `cid` takes a token of its reservation and is reserved, as the flag says (R222); a holder without a
token is served best-effort and counted. Before TPLL locks every request is best-effort. -/
def State.charge (s : State) (cid : Nat) : State × Bool :=
  let r := SMap.get Resv.none s.memc.resv cid
  if s.time.locked && r.adm && !r.dem then
    if r.tokens = 0 then (s.incW Reg.MEMC_OVF, false)
    else ({ s with memc := { s.memc with resv := SMap.set Resv.none s.memc.resv cid { r with tokens := r.tokens - 1 } } }, true)
  else (s, false)

/-- As `charge`, for a request that is served in the command that makes it. -/
def State.useToken (s : State) (cid : Nat) : State := (s.charge cid).1

/-- The request of owner `cid` for physical address `a` takes a token where it lies in global SRAM (R222). -/
def State.ownerCharge (s : State) (cid a : Nat) : State := if region a = .glob then s.useToken cid else s

/-! ### Translation -/

/-- XCAUSE.CODE of a cause, R182. -/
def Cause.code : Cause → Nat
  | .int => 0x00
  | .gate => 0x01
  | .align => 0x02
  | .illegal => 0x03
  | .priv => 0x04
  | .xlate => 0x05
  | .perm => 0x06
  | .walkDev => 0x07
  | .walkEcc => 0x08
  | .bus => 0x09
  | .ecc => 0x0A
  | .parity => 0x0B
  | .stack => 0x0C
  | .budget => 0x0D
  | .stall => 0x0E

/-- XCAUSE.ACC of an access kind, R182. -/
def AccKind.code : AccKind → Nat
  | .fetch => 0
  | .load => 1
  | .store => 2
  | .xchg => 3

/-- What a walk of a capsule's tables gives: an entry, or the cause, the walk level and the address XADDR receives. -/
inductive WalkRes where
  | entry (e : TcEnt)
  | fault (c : Cause) (lvl : Nat) (addr : Nat)
  deriving DecidableEq, Repr

/-- The last check of the walk: a base in the never-valid range gives XLATE (R215). -/
def walkEnd (va : Nat) (e : TcEnt) : WalkRes :=
  if 0x800000 ≤ e.base ∧ e.base ≤ 0x80FFFF then .fault .xlate 0 va else .entry e

/-- The table walk of R215 for capsule `cid` and virtual address `va`, read by engine `eng`. -/
def State.walk (s : State) (cid va eng : Nat) : State × WalkRes :=
  if va / 0x10000 = 0x80 then (s, .fault .xlate 0 va)
  else
    let t1 := (s.desc cid 1).toNat + va / 0x20000
    if tableRegion t1 = false then (s, .fault .walkDev 1 t1)
    else
      let (s, r1) := s.memRead t1 2 eng
      match r1 with
      | none => (s, .fault .walkEcc 1 t1)
      | some w =>
        if getBits w 1 0 = 1 ∧ getBits w 6 2 = 0 then
          let t2 := getBits w 23 7 * 128 + (va / 0x400) % 128
          if tableRegion t2 = false then (s, .fault .walkDev 2 t2)
          else
            let (s, r2) := s.memRead t2 2 eng
            match r2 with
            | none => (s, .fault .walkEcc 2 t2)
            | some w =>
              if getBits w 1 0 ≠ 2 ∨ getBits w 9 6 ≠ 0 then (s, .fault .xlate 0 va)
              else (s, walkEnd va { cid := cid, block := false, vpn := va / 0x400, base := getBits w 23 10 * 0x400, perms := getBits w 5 2 })
        else if getBits w 1 0 = 2 ∧ getBits w 16 6 = 0 then
          (s, walkEnd va { cid := cid, block := true, vpn := va / 0x20000, base := getBits w 23 17 * 0x20000, perms := getBits w 5 2 })
        else (s, .fault .xlate 0 va)

/-- A translation-cache entry covers virtual address `va` of capsule `cid`. -/
def TcEnt.hit (e : TcEnt) (cid va : Nat) : Bool :=
  decide (e.cid = cid ∧ e.vpn = if e.block then va / 0x20000 else va / 0x400)

/-- The slots of a translation cache that hold a valid entry, in slot order. -/
def Engine.tcLookup (x : Engine) (cid va : Nat) : Option TcEnt :=
  (x.tc.filterMap (fun p => p.2)).find? (fun e => e.hit cid va)

/-- The first invalid slot of a translation cache. -/
def Engine.tcFree (x : Engine) : Option Nat := (List.range 32).find? (fun i => (SMap.get none x.tc i).isNone)

/-- A fill (R218): an invalid slot if there is one, else the slot at the round-robin pointer, which then advances. -/
def Engine.tcFill (x : Engine) (e : TcEnt) : Engine :=
  match x.tcFree with
  | some i => { x with tc := SMap.set none x.tc i (some e) }
  | none => { x with tc := SMap.set none x.tc x.tcPtr (some e), tcPtr := (x.tcPtr + 1) % 32 }

/-- The permission bits of R213 that an access needs, as a mask of DEV, X, W, R. -/
def AccKind.need : AccKind → Nat
  | .fetch => 4
  | .load => 1
  | .store => 2
  | .xchg => 3

/-- The physical address and the permission check at the end of R215. -/
def tcAddr (e : TcEnt) (kind : AccKind) (va : Nat) : Except Cause Nat :=
  let pa := e.base + (if e.block then va % 0x20000 else va % 0x400)
  if e.perms &&& kind.need ≠ kind.need then .error .perm
  else if 0xC00000 ≤ pa ∧ e.perms &&& 8 = 0 then .error .perm
  else .ok pa

/-- Translation of virtual address `va` for thread `k` (R212, R215): at keeper privilege the address is physical; at capsule
privilege the cache is looked up, a miss walks the tables and fills it. -/
def State.translate (s : State) (k : Nat) (kind : AccKind) (va : Nat) : State × Except FaultInfo Nat :=
  let b := (s.th k).bind
  if b.prv then (s, .ok va)
  else if va / 0x10000 = 0x80 then (s, .error ⟨.xlate, kind, 0, w24 va⟩)
  else
    let fin := fun (e : TcEnt) => match tcAddr e kind va with
      | .ok pa => Except.ok pa
      | .error c => Except.error (FaultInfo.mk c kind 0 (w24 va))
    match (s.en (k / 4)).tcLookup b.cid va with
    | some e => (s, fin e)
    | none =>
      let (s, r) := s.walk b.cid va (k / 4)
      match r with
      | .fault c lvl a => (s, .error ⟨c, kind, lvl, w24 a⟩)
      | .entry e => (s.mapEn (k / 4) (fun x => x.tcFill e), fin e)

/-- Translation and every check made before an access is sent: R215, the bezel's own registers (R232), the address (R38, R206,
R635). -/
def State.checkAddr (s : State) (k : Nat) (kind : AccKind) (va : Nat) : State × Except FaultInfo Nat :=
  let (s, r) := s.translate k kind va
  match r with
  | .error f => (s, .error f)
  | .ok pa =>
    if (s.th k).bind.prv = false ∧ 0xF41000 ≤ pa ∧ pa ≤ 0xF417FF then (s, .error ⟨.perm, kind, 0, w24 va⟩)
    else match s.addrFault kind pa with
      | some c => (s, .error ⟨c, kind, 0, w24 va⟩)
      | none => (s, .ok pa)

/-! ### The event interface -/

/-- The EVI register of an engine, by its address on engine `e`: word `n / 24` of a mask, pending or active set. -/
def srcBit (n : Nat) : Fld := bitF (n % 24)

/-- Source `n` of engine `e` is pending. -/
def State.pendB (s : State) (e n : Nat) : Bool := s.fb (Reg.EVI_PENDk e (n / 24)) (srcBit n)

/-- The coalescer state of source `n` of engine `e`. -/
def State.src (s : State) (e n : Nat) : Src := SMap.get Src.idle (s.en e).srcs n

/-- The state with source `n` of engine `e` set. -/
def State.setSrc (s : State) (e n : Nat) (x : Src) : State := s.mapEn e (fun g => { g with srcs := SMap.set Src.idle g.srcs n x })

/-- A pending bit is set. -/
def State.setPend (s : State) (e n : Nat) : State := s.sf (Reg.EVI_PENDk e (n / 24)) (srcBit n) 1

/-- A pending bit goes from 1 to 0: BATCH takes the arrivals it folded (R159). -/
def State.clearPend (s : State) (e n : Nat) : State :=
  if s.pendB e n then
    let x := s.src e n
    let s := s.sf (Reg.EVI_PENDk e (n / 24)) (srcBit n) 0
    let s := s.sf (Reg.EVI_SsCOAL e n) Reg.EVI_SsCOAL_BATCH x.run
    s.setSrc e n { x with run := 0, denied := false }
  else s

/-- emit(n) of R159: the batch closes; the pending bit is set, or the hold latch under EVI_HOLD. -/
def State.emit (s : State) (e n : Nat) : State :=
  let x := s.src e n
  let x := { x with isOpen := false, run := min (x.run + x.k) 255 }
  if s.fb (Reg.EVI_HOLD e) Reg.EVI_HOLD_HOLD then
    let s := if x.latch then s.inc (Reg.EVI_CNT1 e) Reg.EVI_CNT1_HOLDMRG else s
    s.setSrc e n { x with latch := true }
  else (s.setSrc e n x).setPend e n

/-- on arrival(n) of R159, at source `n` of engine `e`. -/
def State.arrive (s : State) (e n : Nat) : State :=
  let x := s.src e n
  let x := if x.isOpen then x else { x with isOpen := true, t0 := s.time.dt, k := 0 }
  let x := { x with k := x.k + 1 }
  let s := s.setSrc e n x
  let ccnt := s.fl (Reg.EVI_SsCOAL e n) Reg.EVI_SsCOAL_CCNT
  if ccnt ≤ 1 ∨ ccnt ≤ x.k then s.emit e n else s

/-! ### Abandoning, entering, returning -/

/-- The size in words of the instruction at physical address `a`, by its major opcode (R84); 1 where the word cannot be read. -/
def State.sizeAt (s : State) (a : Nat) : Nat :=
  match s.cell a with
  | .good w | .corr w _ => if 0x3C ≤ getBits w 23 18 then 2 else 1
  | .bad => 1

/-- Register and status values an entry saves for context `c` of an instruction `len` words long (R184, R186): XPC, XST but for its
PRIO and SY, XTGT. -/
def saveOf (b : Bind) (c : Ctx) (len depth : Nat) (abandoned : Bool) : Word × Word × Word :=
  let lp := match c.loops with
    | l :: _ => abandoned && decide (l.tag = depth ∧ l.stop = c.pc + w24 (len - 1)) && c.slot.isNone
    | [] => false
  let base := b2n b.prv * 2 ^ 23 + (b.cid % 1024) * 2 ^ 13 + b2n lp * 2 ^ 3
  match c.slot with
  | none => (c.pc, w24 base, 0)
  | some sl =>
    let cl := match sl.link with | some r => r * 2 ^ 9 + 2 ^ 8 | none => 0
    let tgt := match sl.target with | some t => t | none => c.pc + w24 len
    (sl.xferAt, w24 (base + cl + b2n sl.long * 2 ^ 2 + 1), tgt)

/-- Pending RWS writes of a thread take effect (R141, R180). Two registers hold RWS fields: EVI_CTL and EVI_TtBASE. -/
def State.rwsApply (s : State) : List (Nat × Word) → State
  | [] => s
  | (a, v) :: r =>
    let e := (a - 0xF80000) / 0x800
    let o := a % 0x800
    let s :=
      if o = 0x400 then s.mapEn e (fun x => { x with modeEff := v.getLsbD 0 })
      else s.mapEn e (fun x => { x with baseEff := SMap.set 0 x.baseEff ((o - 0x422) / 0x10) (min (getBits v 4 0) 16) })
    State.rwsApply s r

/-- The access is a device-region load (a Chaden window's included, R478), an xchg of R188 or a store to the device register region:
the accesses of R74 and R75, performed once. -/
def Access.once (a : Access) : Bool :=
  decide (region a.pa = .dev) || decide (a.kind = .xchg) || (decide (region a.pa = .chaden) && decide (a.kind = .load))

/-- The thread's uncommitted instructions are abandoned (R72, R73, R75): the oldest one's context comes back, accesses not yet
committed leave the spine interface, but for a device-region access that has been sent, which gets a replay entry. -/
def State.abandon (s : State) (k : Nat) : State :=
  let t := s.th k
  match t.infl with
  | [] => s
  | h :: _ =>
    let ids := t.infl.map (fun i => i.id)
    let sp := (s.en (k / 4)).spine
    let sent := sp.find? (fun a => a.id == h.id && a.k == k && a.once && decide (h.st = .waiting))
    let rpl := match sent with
      | some a => { ac := a, depth := t.depth, out := RplOut.wait } :: t.replay
      | none => t.replay
    let s := s.mapEn (k / 4) (fun x => { x with spine := sp.filter (fun a => !(a.k == k && ids.contains a.id) || sent.any (fun b => b.id == a.id)) })
    s.setTh k { t with ctx := h.snap, infl := [], replay := rpl }

/-- The registers ENG_TnRPL are computed from the thread (R82). -/
def Thread.rplReg (t : Thread) : Word :=
  w24 (b2n (t.replay.any (fun r => decide (r.out = .wait))) * 32 + t.replay.length)

/-- Loop entries of a deeper level than `d` are discarded; the loop buffer goes with the entry that took it (R117, R62.1). -/
def State.loopCut (s : State) (k d : Nat) : State :=
  let t := s.th k
  let gone := t.ctx.loops.filter (fun l => decide (d < l.tag))
  let s := if gone.any (fun l => l.owns) then s.lbDo k .release else s
  s.mapTh k (fun t => { t with ctx := { t.ctx with loops := t.ctx.loops.filter (fun l => decide (l.tag ≤ d)) } })

/-- The number of a thread within its engine, and the registers of its vectors. -/
def ivec (s : State) (k : Nat) : Word := s.rd (Reg.EVI_TtIVEC (k / 4) (k % 4))

/-- The exception vector of thread `k`. -/
def xvec (s : State) (k : Nat) : Word := s.rd (Reg.EVI_TtXVEC (k / 4) (k % 4))

/-- TAKING AN ENTRY (R166, R170, R179, R180): the level `l` is pushed, the pending RWS writes take effect, the binding becomes keeper
privilege with capsule 0, the fetch buffer is emptied and the thread runs from `vec`. -/
def State.enterAt (s : State) (k : Nat) (l : Level) (vec : Word) : State :=
  let t := s.th k
  let s := s.rwsApply t.rws
  let s := s.setTh k { t with
    levels := l :: t.levels
    ctx := { t.ctx with pc := vec, slot := none, pend := [], shadow := [], shPend := [] }
    el := t.el || l.intr
    mode := if t.mode = .stopping then .stopping else .run
    bind := { t.bind with prv := true, cid := 0 }
    fbuf := []
    infl := []
    rws := []
    settle := false }
  if t.bind.prv then s else s.waitSettle t.bind.cid

/-- The allotment of thread `k` goes back to the capsule it was drawn from (R253), which ends its holds (R256). -/
def State.alReturn (s : State) (k : Nat) : State :=
  let t := s.th k
  if t.al = 0 then s
  else (s.mapCap t.alCid (fun c => { c with rem := c.rem + t.al, waitc := 0 })).setTh k { t with al := 0 }

/-- A delay slot that will not be executed is left behind: the call's link is still written (R80). `len` is the slot's size. -/
def Ctx.dropSlot (c : Ctx) (len : Nat) : Ctx :=
  match c.slot with
  | none => c
  | some sl =>
    let c := match sl.link with | some r => c.wrG r (c.pc + w24 len) | none => c
    { c with slot := none }

/-- The thread waits by design (R47). -/
def Mode.waits : Mode → Bool
  | .event | .time _ | .fence | .sync | .drain => true
  | _ => false

/-- Clearing a thread's EN (R80): issue stops, a wait by design is abandoned (and a delay slot of that kind with it), the replay
entries are discarded and counted, the loop buffer it owns is released (R62.2), its allotment returns, and it goes to STOPPING. A delay
slot not yet issued is left for it. -/
def State.disable (s : State) (k : Nat) : State :=
  let e := k / 4
  let t := s.th k
  let s := s.sf (Reg.ENG_TCTL e) (bitF (k % 4)) 0
  let n := t.replay.length
  let s := s.sf (Reg.ENG_RPLDROP e) fullF (min (s.fl (Reg.ENG_RPLDROP e) fullF + n) 0xFFFFFF)
  let s := s.lbDo k .release
  let s := s.alReturn k
  let s := { s with chn := { s.chn with drains := s.chn.drains.filter (fun x => decide (x.thread ≠ k)) } }
  if t.mode = .off then s
  else
    let s := s.mapTh k (fun t =>
      let t := if t.mode.waits ∧ t.mode ≠ .drain then { t with ctx := t.ctx.dropSlot 1 } else t
      { t with mode := .stopping, replay := [], restart := false })
    if t.bind.prv then s else s.waitSettle t.bind.cid

/-- A thread fault (R183): uncommitted work abandoned, the level stack emptied, EN cleared, the record written, source 0 set; the
fault is logged (R570), triggers the thread's pair (R562), and escalates where the thread is the keeper's own (R568). -/
def State.threadFault (s : State) (k : Nat) (c : Cause) : State :=
  let e := k / 4
  let s := s.pairTrigger k 4
  let kt := (s.th k).startPrv && decide (b2n (s.th k).startKg = s.fl Reg.BZ_KGEN Reg.BZ_KGEN_CUR)
  let s := s.abandon k
  let pc := match (s.th k).ctx.slot with | some sl => sl.xferAt | none => (s.th k).ctx.pc
  let s := (s.mapTh k (fun t => { t with levels := [], ctx := { t.ctx with slot := none } })).loopCut k 0
  let s := s.disable k
  let a := Reg.EVI_TFSTAT e
  let s := ((s.sf a Reg.EVI_TFSTAT_TF 1).sf a Reg.EVI_TFSTAT_THR (k % 4)).sf a Reg.EVI_TFSTAT_CODE c.code
  let s := s.inc a Reg.EVI_TFSTAT_CNT
  let s := s.wr (Reg.EVI_TFADDR e) pc
  let s := (s.arrive e 0).faultLog 1 k c.code pc
  if kt then s.escalate 1 Reg.FLT_CTL_KTF else s

/-- What a parity fault records (R70): ENG_PARSTAT, the count, source 5 and the fault log. -/
def State.parityRecord (s : State) (k : Nat) (reg : Word) (pc : Word) : State :=
  let e := k / 4
  let a := Reg.ENG_PARSTAT e
  let s := ((s.sf a Reg.ENG_PARSTAT_RF 1).sf a Reg.ENG_PARSTAT_RFTHR (k % 4)).sf a Reg.ENG_PARSTAT_RFREG reg.toNat
  let s := s.inc (Reg.ENG_PARCNT e) Reg.ENG_PARCNT_RF
  (s.arrive e 5).faultLog 3 k (reg.toNat % 512) pc

/-- TAKING AN EXCEPTION (R73, R179, R182, R183), for a thread whose context is already that of the faulting instruction, `len` words
long. `xpc` overrides the saved address (callk saves A + 1); `ab` says that an instruction is abandoned (R186). At nesting depth 16 it is a
thread fault. -/
def State.except (s : State) (k : Nat) (f : FaultInfo) (len : Nat) (xpc : Option Word) (ab : Bool) : State :=
  let t := s.th k
  let s := if f.cause = .parity then s.parityRecord k f.addr t.ctx.pc else s
  let s := match f.cause with
    | .parity => s.pairTrigger k 0
    | .ecc => s.pairTrigger k 1
    | .bus => s.pairTrigger k 2
    | .stall => s.pairTrigger k 3
    | _ => s
  if 16 ≤ t.depth then s.threadFault k f.cause
  else
    let sv := saveOf t.bind t.ctx len t.depth ab
    let sy := decide (t.rws ≠ [])
    let acc := match f.cause with
      | .xlate | .perm | .walkDev | .walkEcc | .bus | .ecc | .align => f.acc.code
      | _ => 0
    let l : Level :=
      { xpc := match xpc with | some a => a | none => sv.1
        xst := setF sv.2.1 (bitF 1) (b2n sy)
        xtgt := sv.2.2
        xcause := w24 (acc * 2 ^ 8 + f.lvl * 2 ^ 6 + f.cause.code)
        xaddr := f.addr, intr := false, src := 0, prio := 0, scan := false, claimed := false, live := false }
    let s := if t.stepping then (s.mapTh k (fun t => { t with halt := 5, stepping := false })).raise 0x3F0 else s
    s.enterAt k l (xvec s k)

/-- TAKING AN INTERRUPT (R72, R170): source `n` of priority `p` for a thread whose uncommitted work has been abandoned. -/
def State.interrupt (s : State) (k n p : Nat) (sv : Word × Word × Word) : State :=
  let t := s.th k
  let l : Level :=
    { xpc := sv.1, xst := setF (setF sv.2.1 ⟨7, 4⟩ p) (bitF 1) (b2n (decide (t.rws ≠ []))), xtgt := sv.2.2
      xcause := w24 (n * 2 ^ 10), xaddr := 0, intr := true, src := n, prio := p
      scan := (s.en (k / 4)).modeEff, claimed := false, live := true }
  s.enterAt k l (ivec s k)

/-- Instructions of thread `k` at the front that have produced their results commit, a store into local memory writing its words (R49), a
loop set-up or end acting on the loop buffer (R59, R62.1); the rest is left. -/
def State.commitFront (s : State) (k : Nat) : List Infl → State × List Infl
  | [] => (s, [])
  | i :: r =>
    match i.st with
    | .done => (s.lbDo k i.lb).commitFront k r
    | .held ws => ((ws.foldl (fun s q => s.memWrite q.1 q.2) s).lbDo k i.lb).commitFront k r
    | _ => (s, i :: r)

/-- Commit in program order (R49): the finished instructions at the front leave; if the oldest left has met a fault, every younger one
is abandoned and the exception is taken (R73). -/
def State.commit (s : State) (k : Nat) : State :=
  let x := s.commitFront k (s.th k).infl
  let s := x.1.mapTh k (fun t =>
    let n := t.infl.length - x.2.length
    let t := if n = 0 then t else { t with watch := s.time.ticks, stall := false, stalled := false }
    { t with infl := t.infl.drop n })
  match (s.th k).infl with
  | h :: _ =>
    (match h.st with
     | .faulted f => (s.abandon k).except k f h.len none true
     | _ => s)
  | [] => s

/-- A thread begins to be held because its capsule is not LOADED (R235): the refusal log records it (R265 KIND 4). -/
def State.holdLog (s : State) (k : Nat) : State :=
  if (s.th k).mode ≠ .off ∧ s.holdOf k = 1 then s.denyLog 4 (s.th k).bind.cid (s.capState (s.th k).bind.cid) k else s

/-- RETURNING FROM A LEVEL (R144, R176, R185): the top level is removed and its saved state restored: the binding of XST.PPRV and
XST.PCID, the address, the delay slot and its link; loop entries of the depth being left go (R117), and the newest replay entry of
the depth returned to waits for the next instruction (R76). -/
def State.restore (s : State) (k : Nat) (l : Level) (rest : List Level) : State :=
  let prv := l.xst.getLsbD 23
  let cid := getBits l.xst 22 13
  let t := s.th k
  let s := if t.al ≠ 0 ∧ prv = false ∧ cid ≠ t.alCid then s.alReturn k else s
  let t := s.th k
  let ds := l.xst.getLsbD 0
  let dl := l.xst.getLsbD 2
  let link := if l.xst.getLsbD 8 then some (getBits l.xst 12 9) else none
  let c := t.ctx
  let c := if ds then
      { c with pc := l.xpc + (if dl then 2 else 1), slot := some { xferAt := l.xpc, long := dl, target := some l.xtgt, link := link } }
    else { c with pc := l.xpc, slot := none }
  let d := rest.length
  let s := s.setTh k { t with
    levels := rest
    ctx := { c with pend := [], shadow := [], shPend := [] }
    mode := if t.mode = .run ∧ s.chn.drains.any (fun x => decide (x.thread = k ∧ x.depth = d)) then .drain else t.mode
    bind := { t.bind with prv := prv, cid := cid }
    fbuf := []
    settle := match t.replay with | r :: _ => decide (r.depth = d) | [] => false }
  (s.loopCut k d).holdLog k

/-- EL of a thread is set (R133, R134): a wfe that waits completes and clears it; the wait of the ROM's service mode goes on (R638).
`complete` is how the waiting instruction completes. -/
def State.setEl (s : State) (k : Nat) (complete : State → State) : State :=
  if (s.th k).mode = .event ∧ (s.th k).rom = false then complete (s.mapTh k (fun t => { t with mode := .run, el := false }))
  else s.mapTh k (fun t => { t with el := true })

end Sys2Proof.Machine
end

