-- ==== Sys2Proof/Machine/Flags.lean ====
section
/-!
DEFINITION. The accumulator status ASTAT (R123) and the saturations that set it: sat23 (R121) and sat56 (R122). Bastal-24 has no
other flags (R93, R107).
-/

namespace Sys2Proof.Machine

/-- sat23 of an exact result (R121): the Q23 word, and whether the result was changed. -/
def sat23 (x : Int) : Word × Bool := (i24 (satQ x), decide (satQ x ≠ x))

/-- The upper limit of sat56, 2^55 − 1. -/
def lim56 : Int := 2 ^ 55 - 1

/-- sat56 of an exact result (R122): the accumulator value, and whether the result was changed. -/
def sat56 (x : Int) : Acc × Bool :=
  let y := max (-lim56) (min lim56 x)
  (BitVec.ofInt 56 y, decide (y ≠ x))

/-- A saturating result into a register: the word is written, and SAT is set when sat23 changed it (R121). -/
def Ctx.wrSat (c : Ctx) (rd : Nat) (x : Int) : Ctx :=
  let r := sat23 x
  { c.wrG rd r.1 with sat := c.sat || r.2 }

/-- A saturating result into an accumulator: AOV is set when sat56 changed it (R122). -/
def Ctx.wrSatA (c : Ctx) (ac : Nat) (x : Int) : Ctx :=
  let r := sat56 x
  { c.wrA ac r.1 with aov := c.aov || r.2 }

/-- ASTAT as a word (R123). -/
def Ctx.astat (c : Ctx) : Word := w24 (b2n c.sat + 2 * b2n c.aov)

end Sys2Proof.Machine
end

