-- ==== Sys2Proof/Machine/Operands.lean ====
section
/-!
DEFINITION. Operand forms of the Bastal-24 instructions: the words of the formats of R87 (an ILLEGAL or PRIV exception records the
instruction's first word, R182), immediates (R96), effective addresses (R99), branch targets (R108) and branch conditions (R107).
-/

namespace Sys2Proof.Machine

/-- Format R (R87). -/
def encR (op rd ra rb fn : Nat) : Word := w24 (op * 2 ^ 18 + rd * 2 ^ 14 + ra * 2 ^ 10 + rb * 2 ^ 6 + fn)

/-- Format I (R87). -/
def encI (op rd ra imm : Nat) : Word := w24 (op * 2 ^ 18 + rd * 2 ^ 14 + ra * 2 ^ 10 + imm)

/-- Format U (R87). -/
def encU (op rd imm : Nat) : Word := w24 (op * 2 ^ 18 + rd * 2 ^ 14 + imm)

/-- Format X (R87). -/
def encX (op rd ra fn6 : Nat) : Word := w24 (op * 2 ^ 18 + rd * 2 ^ 14 + ra * 2 ^ 10 + fn6 * 2 ^ 4)

/-- Formats B and BI (R87). -/
def encB (op ra rb disp : Nat) : Word := w24 (op * 2 ^ 18 + ra * 2 ^ 14 + rb * 2 ^ 10 + disp)

/-- Format J (R87). -/
def encJ (op disp : Nat) : Word := w24 (op * 2 ^ 18 + disp)

/-- Format LPR (R87). -/
def encLPR (op ra off : Nat) : Word := w24 (op * 2 ^ 18 + ra * 2 ^ 14 + off)

/-- Format LPI (R87). -/
def encLPI (op cnt off : Nat) : Word := w24 (op * 2 ^ 18 + cnt * 2 ^ 10 + off)

/-- First word of format L (R87). -/
def encL (op rd ra lop : Nat) : Word := w24 (op * 2 ^ 18 + rd * 2 ^ 14 + ra * 2 ^ 10 + lop * 2 ^ 4)

/-- First word of format LB (R87). -/
def encLB (op ra rb cond : Nat) : Word := w24 (op * 2 ^ 18 + ra * 2 ^ 14 + rb * 2 ^ 10 + cond * 2 ^ 7)

/-- sext of a 10-bit immediate (R96). -/
def sext10 (i : BitVec 10) : Word := i.signExtend 24

/-- zext of a 10-bit immediate (R96). -/
def zext10 (i : BitVec 10) : Word := i.zeroExtend 24

/-- sext of an 18-bit displacement (R108). -/
def sext18 (i : BitVec 18) : Word := i.signExtend 24

/-- The branch conditions of R107. -/
inductive Cond where
  | eq | ne | lt | ge | ltu | geu
  deriving DecidableEq, Repr

/-- The condition holds of two operands (R107). -/
def Cond.holds : Cond → Word → Word → Bool
  | .eq, a, b => a == b
  | .ne, a, b => a != b
  | .lt, a, b => a.slt b
  | .ge, a, b => !(a.slt b)
  | .ltu, a, b => a.ult b
  | .geu, a, b => !(a.ult b)

/-- The operand K of an immediate branch: sext(imm4) for the signed and equality conditions, zext(imm4) for the unsigned (R107). -/
def Cond.imm : Cond → BitVec 4 → Word
  | .ltu, i | .geu, i => i.zeroExtend 24
  | _, i => i.signExtend 24

end Sys2Proof.Machine
end

