-- ==== Sys2Proof/Machine/Ready.lean ====
section
/-!
DEFINITION. Which thread issues: what a thread's next instruction needs, read from its fetch buffer or the loop buffer (R48, R56, R60), the
accesses that stand in the spine interface and in the queues of the global SRAM banks (R58, R74, R209, R221), and the issue rule
(R51, R52, R55).
-/

namespace Sys2Proof.Machine

open Sys2Proof

/-! ### The next instruction's words -/

/-- The word of the loop buffer that thread `k`'s fetch of address `a` hits (R60). -/
def State.lbWord (s : State) (k : Nat) (a : Word) : Option Word :=
  let b := (s.en (k / 4)).lb
  if b.owner = some k ∧ b.bs ≤ a ∧ a ≤ b.be then SMap.get none b.ents (a - b.bs).toNat else none

/-- The word at address `a` that thread `k` holds in its fetch buffer or hits in the loop buffer (R48.2). -/
def State.heldWord (s : State) (k : Nat) (a : Word) : Option Word :=
  match (s.th k).fbuf.find? (fun p => p.1 == a.toNat) with
  | some p => some p.2
  | none => s.lbWord k a

/-- The first word of the thread's next instruction, and its second (0 for a one-word instruction), where it holds them (R48.2, R84). -/
def State.nextWords (s : State) (k : Nat) : Option (Word × Word) :=
  let pc := (s.th k).ctx.pc
  match s.heldWord k pc with
  | none => none
  | some w => if longForm w then (s.heldWord k (pc + 1)).map (fun v => (w, v)) else some (w, 0)

/-- The address whose pair the thread fetches next (R56): its next instruction's first word, or the second word of a long form whose first
word it holds; none where it holds the whole instruction, when its fetch path is off (R61). -/
def State.fetchNeed (s : State) (k : Nat) : Option Word :=
  let pc := (s.th k).ctx.pc
  match s.heldWord k pc with
  | none => some pc
  | some w => if longForm w && (s.heldWord k (pc + 1)).isNone then some (pc + 1) else none

/-- The general registers an instruction reads, by its first word (R48.3, R87–R150). -/
def wordReads (w : Word) : List Nat :=
  let a := (regField w 14).val
  let b := (regField w 10).val
  let c := (regField w 6).val
  let fn := getBits w 5 0
  let fx := getBits w 9 4
  let data := fun (kind pair : Nat) (addr : List Nat) => if kind = 0 then addr else if pair = 1 then a :: (a + 1) :: addr else a :: addr
  match majorOf w with
  | 0x00 => if fn = 0x14 then [b] else [b, c]
  | 0x08 => []
  | 0x0B => [a, b]
  | 0x18 => data (fn % 2) (fn / 2) [b, c]
  | 0x19 => [a, b]
  | 0x21 | 0x22 | 0x23 | 0x24 | 0x25 | 0x26 | 0x3F => [a, b]
  | 0x27 | 0x28 | 0x29 | 0x2A | 0x2B | 0x2C | 0x30 => [a]
  | 0x2D | 0x2E | 0x31 | 0x37 | 0x3E => []
  | 0x32 => if fx = 4 then [b] else []
  | 0x34 => if fn = 2 then [c] else if fn = 3 then [b] else [b, c]
  | 0x35 | 0x38 => [b, c]
  | 0x36 => if fx ∈ [6, 7, 8, 0x10] then [b] else []
  | 0x39 => if fx = 1 then [b, b + 1] else if fx ∈ [6, 9, 0xC] then [a, b] else if fx ∈ [8, 0xB] then [b] else []
  | 0x3A => if a = 3 then [b] else []
  | 0x3D => data (fx % 2) (fx / 2) [b]
  | m => if 0x10 ≤ m ∧ m ≤ 0x17 then data (m % 2) (m / 2 % 2) [b] else [b]

/-- The access a memory instruction makes, by its words (R99, R106): its kind, whether it is a pair, its effective address. -/
def wordAccess (w v : Word) (c : Ctx) : Option (AccKind × Bool × Word) :=
  let ra := c.rdG (regField w 10).val
  let off := ra + sext10 (w.extractLsb' 0 10)
  let kind := fun (n : Nat) => if n % 2 = 0 then AccKind.load else .store
  let m := majorOf w
  if 0x10 ≤ m ∧ m ≤ 0x17 then some (kind m, decide (m / 2 % 2 = 1), if 0x14 ≤ m then ra else off)
  else if m = 0x18 ∧ getBits w 5 0 < 4 then
    some (kind (getBits w 5 0), decide (2 ≤ getBits w 5 0), ra + c.rdG (regField w 6).val)
  else if m = 0x19 then some (.xchg, false, off)
  else if m = 0x3D ∧ getBits w 9 4 < 4 then some (kind (getBits w 9 4), decide (2 ≤ getBits w 9 4), ra + v)
  else none

/-! ### Accesses -/

/-- The device region, a Chaden window or the xSPI window: a split pair with a word there is ALIGN (R594). -/
def splitBad (a : Nat) : Bool :=
  match region a with
  | .dev | .chaden | .xspi => true
  | _ => false

/-- The checks of a data access before it is sent (R92, R101, R215, R594): the physical addresses of its first and second word. A pair at an
odd address is ALIGN; in service mode it is split, both words are checked, and ALIGN is raised where a word that is translated lies
where a split pair may not. -/
def State.checkPair (s : State) (k : Nat) (kind : AccKind) (pair : Bool) (va : Word) : State × Except FaultInfo (Nat × Nat) :=
  let align : Except FaultInfo (Nat × Nat) := .error ⟨.align, kind, 0, va⟩
  if pair && va.getLsbD 0 then
    if s.service = false then (s, align)
    else
      let (s, t1) := s.translate k kind va.toNat
      let (s, t2) := s.translate k kind (va + 1).toNat
      let bad := fun (t : Except FaultInfo Nat) => match t with | .ok a => splitBad a | .error _ => false
      if bad t1 || bad t2 then (s, align)
      else
        let (s, r1) := s.checkAddr k kind va.toNat
        match r1 with
        | .error f => (s, .error f)
        | .ok pa =>
          let (s, r2) := s.checkAddr k kind (va + 1).toNat
          match r2 with
          | .error f => (s, .error f)
          | .ok pb => (s, .ok (pa, pb))
  else
    let (s, r) := s.checkAddr k kind va.toNat
    match r with
    | .error f => (s, .error f)
    | .ok pa => (s, .ok (pa, pa + 1))

/-- The words an access touches. -/
def accWordsAt (pair : Bool) (p : Nat × Nat) : List Nat := if pair then [p.1, p.2] else [p.1]

/-- The access is to a device register, a load from a Chaden window (R478), or an xchg outside the engine's own local memory: one of the
accesses of R74. -/
def devAccess (e : Nat) (kind : AccKind) (pa : Nat) : Bool :=
  decide (region pa = .dev) || (decide (region pa = .chaden) && decide (kind = .load)) || (decide (kind = .xchg) && !ownLocal e pa)

/-- An uncommitted access of thread `k` to the device register region or under R188 stands in the spine interface (R48.6). -/
def State.devBusy (s : State) (k : Nat) : Bool :=
  (s.en (k / 4)).spine.any (fun a => a.k == k && devAccess (k / 4) a.kind a.pa && (s.th k).infl.any (fun i => i.id == a.id))

/-- The thread's newest replay entry matches an access (R76): same instruction and data address, kind and size, and still an access
of R75. -/
def State.settles (s : State) (k : Nat) (kind : AccKind) (pair : Bool) (va : Word) : Option Replay :=
  let t := s.th k
  if t.settle then
    match t.replay, (s.checkAddr k kind va.toNat).2 with
    | r :: _, .ok pa =>
      if devAccess (k / 4) kind pa && decide (r.ac.ia = t.ctx.pc) && decide (r.ac.va = va) &&
          decide (r.ac.pair = pair) && decide ((r.ac.kind = .store) ↔ (kind = .store)) then some r
      else none
    | _, _ => none
  else none

/-- A store of thread `k` into its own local memory that has not committed holds one of the words. -/
def State.heldAt (s : State) (k : Nat) (ws : List Nat) : Bool :=
  (s.th k).infl.any (fun i => match i.st with
    | .held l => l.any (fun q => ws.contains q.1)
    | _ => false)

/-- An access of thread `k` in the spine interface touches one of the words. -/
def State.spineAtWords (s : State) (k : Nat) (ws : List Nat) : Bool :=
  (s.en (k / 4)).spine.any (fun a => a.k == k && (accWordsAt a.pair (a.pa, a.pa2)).any (fun p => ws.contains p))

/-- Thread `k` could issue, whatever its next instruction is (R48.1, 5, 7, 8): the device is in RUN (R523), it runs, or it is stopping with a
delay slot still to issue (R80); it is not halted, and a STEP under way has issued nothing but a transfer whose slot waits (R600);
fewer than 4 instructions are uncommitted and none has met a fault; it is not in ROM code; it is not held and has beats. -/
def State.isReady (s : State) (k : Nat) : Bool :=
  let t := s.th k
  decide (s.pwr.state = 0) && (decide (t.mode = .run) || (decide (t.mode = .stopping) && t.ctx.slot.isSome)) &&
  decide (t.halt = 0) && (decide (t.haltReq = 0) || t.ctx.slot.isSome || t.stepping) && !t.rom &&
  (!t.stepping || decide (t.infl = []) || t.ctx.slot.isSome) &&
  decide (t.infl.length < 4) && t.infl.all (fun i => match i.st with | .faulted _ => false | _ => true) &&
  decide (s.holdOf k = 0) && (t.bind.prv || decide (getBits (s.desc t.bind.cid 2) 19 0 = 0) || decide (0 < t.al))

/-- Thread `k` waits for a fetch through the memory port of its engine (R54). -/
def State.portFetch (s : State) (k : Nat) : Bool :=
  s.isReady k &&
  (match s.fetchNeed k with
   | none => false
   | some va => match (s.translate k .fetch va.toNat).2 with
     | .ok pa => ownLocal (k / 4) pa
     | .error _ => false)

/-- The fetch of another thread of the engine takes the memory port in this beat, having lost it in 16 consecutive ones (R55). -/
def State.portTaken (s : State) (k : Nat) : Bool :=
  (List.range 4).any (fun t => decide (t ≠ k % 4) && decide (16 ≤ (s.th (k / 4 * 4 + t)).lost) && s.portFetch (k / 4 * 4 + t))

/-- A data access cannot issue yet: the replay entry it settles has no outcome (R76); it needs a spine request and all four are in use (R48.9,
R58), be it for an access that completes with BUS at once (R635); a device-region access of the thread is uncommitted (R48.6); the
memory port goes to a fetch (R55); an xchg in own local memory, which reads and writes at once, has uncommitted instructions before
it; or it touches a word that an older access of the thread has still to reach (R104; log entry 34). -/
def State.accBlocked (s : State) (k : Nat) (kind : AccKind) (pair : Bool) (va : Word) : Bool :=
  let e := k / 4
  let full := decide (4 ≤ (s.en e).spine.length)
  match s.settles k kind pair va with
  | some r => decide (r.out = .wait)
  | none =>
    match (s.checkPair k kind pair va).2 with
    | .error f => decide (f.cause = .bus) && full
    | .ok p =>
      let ws := accWordsAt pair p
      let older := decide (kind ≠ .store) && s.heldAt k ws
      if ws.all (ownLocal e) then
        older || s.spineAtWords k ws || s.portTaken k || (decide (kind = .xchg) && decide ((s.th k).infl ≠ []))
      else older || full || (devAccess e kind p.1 && s.devBusy k)

/-- The block of a device register (R40), as a number: ordering within one block is R209's. -/
def blockNo (a : Nat) : Nat :=
  if a < 0xF10000 then a / 0x1000
  else if a < 0xF24000 then a / 0x4000 * 4
  else if a < 0xF28000 then a / 0x2000 * 2
  else if a < 0xF30000 then 0xF28
  else if a < 0xF3C000 then (if a / 0x1000 % 0x10 ∈ [1, 5, 11] then a / 0x1000 - 1 else a / 0x1000)
  else if a < 0xF40000 then 0xF3C
  else if a < 0xF80000 then (if 0xF42000 ≤ a ∧ a ≤ 0xF43FFF then 0xF42 else a / 0x1000)
  else 0x10000 + a / 0x800

/-- The block an access reaches; the own-engine view is that of the keeper's (R43). -/
def Access.block (a : Access) : Nat := blockNo (ownView (.thread a.k) a.pa)

/-- Two accesses of one thread take effect in program order (R104, R209, R478): a word in common, registers of one block, or two accesses
to Chaden windows. -/
def Access.ordered (a b : Access) : Bool :=
  (accWordsAt a.pair (a.pa, a.pa2)).any (fun p => (accWordsAt b.pair (b.pa, b.pa2)).contains p) ||
  (decide (region a.pa = .dev) && decide (region b.pa = .dev) && decide (a.block = b.block)) ||
  (decide (region a.pa = .chaden) && decide (region b.pa = .chaden))

/-- The accesses of engine `e` that stand before access `a` in its spine interface. -/
def State.older (s : State) (e : Nat) (a : Access) : List Access := (s.en e).spine.takeWhile (fun b => b.id != a.id)

/-- Access `a` is sent to its target: no older access of its thread that is ordered before it still waits (R209; one the
link has accepted waits no more, R478), and one that is performed once has no uncommitted instruction before it (R74); a store to
memory has committed (R49). -/
def State.sent (s : State) (e : Nat) (a : Access) : Bool :=
  let t := s.th a.k
  !(s.older e a).any (fun b => decide (b.k = a.k) && b.ordered a && !s.chn.rd.any (fun r => r.ac.id == b.id)) &&
  (!t.infl.any (fun i => i.id == a.id) ||
    (if a.once then (match t.infl with | h :: _ => h.id == a.id | [] => false) else decide (a.kind ≠ .store)))

/-- The bank of a global SRAM word (R191). -/
def globBank (a : Nat) : Nat := a / 2 % 32

/-- The requests that wait at global SRAM bank `b`, with their engines (R221). -/
def State.bankQueue (s : State) (b : Nat) : List (Nat × Access) :=
  s.eng.flatMap (fun p => (p.2.spine.filter (fun a => decide (region a.pa = .glob ∧ globBank a.pa = b) && s.sent p.1 a)).map (fun a => (p.1, a)))

/-- A reserved or promoted request waits at the bank of global SRAM word `a` (R221): a best-effort one of a spine client waits. -/
def State.bankHeld (s : State) (a : Nat) : Bool :=
  decide (region a = .glob) && (s.bankQueue (globBank a)).any (fun p => p.2.ord.isSome)

/-- Request `a` of engine `e` is the next that its global SRAM bank serves (R221): the oldest of the reserved and promoted ones, or, where none
waits, the oldest of the first engine in turn. -/
def State.bankTurn (s : State) (e : Nat) (a : Access) : Bool :=
  decide (region a.pa ≠ .glob) ||
  (let b := globBank a.pa
   let q := s.bankQueue b
   let turn := fun (x : Nat) => (x + 127 - SMap.get 127 s.memc.rr b) % 128
   match a.ord with
   | some n => q.all (fun p => match p.2.ord with | some m => decide (n ≤ m) | none => true)
   | none => q.all (fun p => p.2.ord.isNone &&
       (decide (turn e < turn p.1) || (decide (p.1 = e) && !((s.older e a).any (fun c => c.id == p.2.id))))))

/-- Access `a` may take effect: it is sent, and its bank serves it next. -/
def State.maySend (s : State) (e : Nat) (a : Access) : Bool := s.sent e a && s.bankTurn e a

/-! ### The issue rule -/

/-- Every register the instruction reads has been produced by every older instruction that writes it; one read through the load shadow
need not have been by the load (R48.3, R64). -/
def Ctx.produced (c : Ctx) (rs : List Nat) : Bool :=
  rs.all (fun r => if c.shadow.any (fun p => p.1 == r) then !(c.shPend.any (fun p => p.1 == r)) else !(c.pend.any (fun p => p.1 == r)))

/-- Thread `k` is ready (R48): it could issue, it holds its next instruction, and that instruction's registers and units are there. -/
def State.readyNext (s : State) (k : Nat) : Bool :=
  s.isReady k &&
  (match s.nextWords k with
   | none => false
   | some (w, v) =>
     let c := (s.th k).ctx
     c.produced (wordReads w) &&
     (match wordAccess w v c with
      | some (kind, pair, va) => !s.accBlocked k kind pair va
      | none => true) &&
     !(decide (majorOf w = 0x3A) && decide ((regField w 14).val = 3) && decide ((s.en (k / 4)).stag.items ≠ [])))

/-- ENG_TCTL.PRIO of thread `t` of engine `e`. -/
def State.prioOf (s : State) (e t : Nat) : Nat := getBits (s.rd (Reg.ENG_TCTL e)) (9 + 2 * t) (8 + 2 * t)

/-- Of two ready threads of an engine the issue stage takes `t` before `u` (R51): a passed-over count of 64 comes first, then the higher PRIO,
then the first after the thread issued last. -/
def State.before (s : State) (e t u : Nat) : Bool :=
  let x := s.en e
  let full := fun (n : Nat) => decide (SMap.get 0 x.passed n = 64)
  let turn := fun (n : Nat) => (n + 3 - x.last) % 4
  if full t then !full u || decide (t < u)
  else if full u then false
  else if s.prioOf e t ≠ s.prioOf e u then decide (s.prioOf e u < s.prioOf e t)
  else decide (turn t < turn u)

/-- The issue stage chooses thread `k` in this beat (R51): no other thread of its engine is ready and comes before it. -/
def State.chosen (s : State) (k : Nat) : Bool :=
  (List.range 4).all (fun t => decide (t = k % 4) || !s.readyNext (k / 4 * 4 + t) || !s.before (k / 4) t (k % 4))

/-- The passed-over counts after a beat in which thread `k` issues (R52), and ENG_PROMO when the issue was a promotion (R51.1). -/
def State.beat (s : State) (k : Nat) : State :=
  let e := k / 4
  let x := s.en e
  let promo := decide (SMap.get 0 x.passed (k % 4) = 64)
  let upd := fun (m : SMap Nat) (t : Nat) =>
    SMap.set 0 m t (if t = k % 4 then 0 else if s.readyNext (e * 4 + t) then min 64 (SMap.get 0 m t + 1) else 0)
  let s := s.setEn e { x with last := k % 4, passed := (List.range 4).foldl upd x.passed }
  if promo then s.incW (Reg.ENG_PROMO e) else s

/-- A beat in which the named thread cannot issue: where no thread of the engine is ready, every passed-over count is 0 (R52). -/
def State.idleBeat (s : State) (k : Nat) : State :=
  if (List.range 4).any (fun t => s.readyNext (k / 4 * 4 + t)) then s else s.mapEn (k / 4) (fun x => { x with passed := [] })

/-- What an issue beat of thread `k` does to the engine's threads: their post-EOI windows run down (R175), and a fetch that waits for the memory
port has lost it where a data access takes it, `port` (R55). -/
def State.windows (s : State) (k : Nat) (port : Bool) : State :=
  let lost := fun (j : Nat) => if port && decide (j ≠ k) && s.portFetch j then min 16 ((s.th j).lost + 1) else 0
  (List.range 4).foldl (fun s t => s.mapTh (k / 4 * 4 + t) (fun x =>
    { x with postEoi := x.postEoi - 1, lost := lost (k / 4 * 4 + t) })) s

end Sys2Proof.Machine
end

