-- ==== Sys2Proof/Machine/Issue.lean ====
section
/-!
DEFINITION. Issuing one instruction of a thread: the issue conditions of R48, the counts of R52, R82 and R253, the exceptions every
instruction can meet (R86, R111, R118, R92), and completion: the next address, the delay slot (R110) and the loop-end check (R115).
-/

namespace Sys2Proof.Machine

/-- What the issue stage must know of an instruction: its thread, first word, size, the registers it reads, whether it is ILLEGAL as
encoded (R86), in a delay slot (R111) or with its last word at LE (R118), whether it is keeper-only, whether its effect reaches
beyond the thread's registers so that it waits until every older instruction has committed, whether it settles a replay entry
itself, whether a delay slot follows it, and whether its access takes the memory port (R54). -/
structure Iss where
  k      : Nat
  word   : Word
  len    : Nat
  reads  : List Nat
  bad    : Bool
  noSlot : Bool
  noEnd  : Bool
  keeper : Bool
  alone  : Bool
  mem    : Bool
  hasDs  : Bool
  port   : Bool
  deriving DecidableEq, Repr

/-- An instruction that only reads and writes registers. -/
def Iss.plain (k : Nat) (word : Word) (len : Nat) (reads : List Nat) (bad : Bool) : Iss :=
  { k := k, word := word, len := len, reads := reads, bad := bad, noSlot := false, noEnd := false, keeper := false,
    alone := false, mem := false, hasDs := false, port := false }

/-- A control transfer with a delay slot (R110). -/
def Iss.xfer (k : Nat) (word : Word) (len : Nat) (reads : List Nat) (bad : Bool) : Iss :=
  { Iss.plain k word len reads bad with noSlot := true, noEnd := true, hasDs := true }

/-- The issue conditions of R48 that the model decides (log entries 1 and 3 name the others), and the choice of R51. -/
def State.canIssue (s : State) (i : Iss) : Bool :=
  s.isReady i.k && (s.th i.k).ctx.produced i.reads && (!i.alone || decide ((s.th i.k).infl = [])) && s.chosen i.k

/-- A breakpoint of the thread's engine lies at address `pc` (R601). -/
def State.bpHit (s : State) (k : Nat) (pc : Word) : Option Nat :=
  (List.range 8).find? (fun i => match SMap.get none (s.en (k / 4)).bps i with
    | some p => decide (p.addr = pc) && p.mask.testBit (k % 4)
    | none => false)

/-- The breakpoint at which the thread halts in place of issuing the instruction (R601): one at its first word, or at the delay slot
of a transfer; none for a delay slot itself and for the first instruction after RUN or STEP. -/
def State.bpStop (s : State) (i : Iss) : Option Nat :=
  let t := s.th i.k
  if t.skipBp ∨ t.ctx.slot.isSome then none
  else match s.bpHit i.k t.ctx.pc with
    | some b => some b
    | none => if i.hasDs then s.bpHit i.k (t.ctx.pc + w24 i.len) else none

/-- An issue beat of thread `k`: the count ENG_TnISS wraps (R82), and a capsule's beat is taken from its allotment (R253). -/
def State.countIssue (s : State) (k : Nat) (port : Bool) : State :=
  let s := (s.beat k).windows k port
  let a := Reg.ENG_TnISS (k / 4) (k % 4)
  let s := s.wr a (s.rd a + 1)
  let t := s.th k
  let s := s.setTh k { t with skipBp := false }
  if t.bind.prv = false ∧ getBits (s.desc t.bind.cid 2) 19 0 ≠ 0 then
    (s.mapCap t.bind.cid (fun c => { c with used := c.used + 1 })).mapTh k (fun t => { t with al := t.al - 1 })
  else s

/-- A halt asked for takes effect once nothing is in flight and no delay slot waits (R600): HALT or WATCH, or the end of a STEP.
LP_HALT is raised. -/
def State.haltCheck (s : State) (k : Nat) : State :=
  let t := s.th k
  if t.infl ≠ [] ∨ t.ctx.slot.isSome ∨ t.halt ≠ 0 ∨ t.mode = .off ∨ t.mode = .sync ∨ t.rom ∨ (t.stepping ∧ t.mode ≠ .run) then s
  else if t.haltReq ≠ 0 then
    (s.setTh k { t with halt := t.haltReq, haltReq := 0, stepping := false, mode := if t.mode = .stopping then .stopping else .run }).raise 0x3F0
  else if t.stepping ∧ t.mode = .run then (s.setTh k { t with halt := 4, stepping := false }).raise 0x3F0
  else s

/-- The instruction meets a fault: it joins the uncommitted instructions as faulted, and the exception is taken once every older one
has committed (R73). -/
def State.faultIns (s : State) (k len : Nat) (f : FaultInfo) : State :=
  let t := s.th k
  let s := s.setTh k { t with infl := t.infl ++ [{ id := s.fresh, snap := t.ctx, len := len, st := .faulted f, lb := .none }] }
  let s := ({ s with fresh := s.fresh + 1 }).commit k
  s.haltCheck k

/-- The loop-end check of R115 after an instruction whose last word is `last`: the loops left, the next address, and whether the entry
that took the loop buffer was popped. -/
def loopEnd (last : Word) (depth : Nat) : List LoopEnt → List LoopEnt × Word × Bool
  | [] => ([], last + 1, false)
  | l :: r =>
    if l.stop = last ∧ l.tag = depth then
      if 1 < l.count.toNat then ({ l with count := l.count - 1 } :: r, l.start, false)
      else
        let x := loopEnd last depth r
        (x.1, x.2.1, x.2.2 || l.owns)
    else (l :: r, last + 1, false)

/-- The context after an instruction of `len` words that is no transfer: after a delay slot the call's link is written and the thread
continues at the transfer's target (R110); otherwise the loop-end check decides (R115). The flag says that the loop buffer's entry
left the loop stack. -/
def Ctx.advance (c : Ctx) (depth len : Nat) : Ctx × Bool :=
  let after := c.pc + w24 len
  match c.slot with
  | some sl =>
    let c := match sl.link with | some r => c.wrG r after | none => c
    ({ c with pc := match sl.target with | some t => t | none => after, slot := none }, false)
  | none =>
    let x := loopEnd (after - 1) depth c.loops
    ({ c with pc := x.2.1, loops := x.1 }, x.2.2)

/-- The thread with context `c` after its instruction: the delay slot of a taken transfer leaves the fetch buffer empty (R211). -/
def Thread.moved (t : Thread) (c : Ctx) : Thread :=
  { t with ctx := c, fbuf := match t.ctx.slot with
      | some { target := some _, .. } => []
      | _ => t.fbuf }

/-- An instruction with its result at once completes with context `c` in place of the thread's, acting on the loop buffer by `act`: it
commits, which the stall watch counts from (R556), or waits behind older uncommitted instructions (R49). -/
def State.finishLb (s : State) (k len : Nat) (c : Ctx) (act : LbAct) : State :=
  let t := s.th k
  let s :=
    if t.infl = [] then (s.setTh k { t.moved c with watch := s.time.ticks, stall := false, stalled := false }).lbDo k act
    else { s.setTh k { t.moved c with infl := t.infl ++ [{ id := s.fresh, snap := t.ctx, len := len, st := .done, lb := act }] } with
           fresh := s.fresh + 1 }
  s.haltCheck k

/-- What an instruction does to the loop buffer where `rel` says that the entry which took it has left the loop stack (R62.1). -/
def lbLeft (rel : Bool) : LbAct := if rel then .release else .none

/-- As `finishLb`, for an instruction that takes no loop buffer. -/
def State.finish (s : State) (k len : Nat) (c : Ctx) (rel : Bool) : State := s.finishLb k len c (lbLeft rel)

/-- The thread's waiting or single-effect instruction of `len` words completes: its context advances. -/
def State.complete (s : State) (k len : Nat) : State :=
  let t := s.th k
  let x := ({ t.ctx with shadow := [] } : Ctx).advance t.depth len
  s.finish k len x.1 x.2

/-- The first of the exceptions an instruction meets before its own operation (R86, R92, R111, R118): ILLEGAL, then PRIV. -/
def State.preFault (s : State) (i : Iss) : Option FaultInfo :=
  let t := s.th i.k
  let c := t.ctx
  let inSlot := c.slot.isSome
  let atEnd := match c.loops with
    | l :: _ => decide (l.tag = t.depth) &&
        ((decide (l.stop = c.pc + w24 (i.len - 1)) && (i.noEnd || inSlot)) || (decide (i.len = 2) && decide (l.stop = c.pc)))
    | [] => false
  if i.bad || (inSlot && i.noSlot) || atEnd then some ⟨.illegal, .fetch, 0, i.word⟩
  else if i.keeper && !t.bind.prv then some ⟨.priv, .fetch, 0, i.word⟩
  else none

/-- A replay entry that the first instruction after a retx does not match is discarded and counted (R76). -/
def State.rplDrop (s : State) (k : Nat) : State :=
  let t := s.th k
  if t.settle then (s.setTh k { t with replay := t.replay.drop 1, settle := false }).incW (Reg.ENG_RPLDROP (k / 4)) else s

/-- Thread `k` halts at breakpoint `b` (R601). -/
def State.bpHalt (s : State) (k b : Nat) : State :=
  (s.mapTh k (fun t => { t with halt := 2, haltIdx := b, stepping := false })).raise 0x3F0

/-- ISSUE. Where a condition of R48 fails or the issue rule chooses another thread, the beat passes without it (log entry 4). At a breakpoint the thread halts in
place of issuing (R601). Otherwise the beat is counted, and the instruction takes its exception or performs `body`. -/
def State.issue (s : State) (i : Iss) (body : State → State) : State :=
  if s.canIssue i = false then s.idleBeat i.k
  else match s.bpStop i with
    | some b => s.bpHalt i.k b
    | none =>
      let s := s.countIssue i.k i.port
      match s.preFault i with
      | some f => (s.rplDrop i.k).faultIns i.k i.len f
      | none => body (if i.mem then s else s.rplDrop i.k)

/-- An instruction that computes on its thread's registers: `f` gives the context with its results. -/
def State.regOp (s : State) (i : Iss) (f : Ctx → Ctx) : State :=
  s.issue i (fun s =>
    let t := s.th i.k
    let x := ({ f t.ctx with shadow := [] } : Ctx).advance t.depth i.len
    s.finish i.k i.len x.1 x.2)

/-- A branch, jump or call (R110): the target is resolved at issue from `taken` and `target`; the delay slot is the next instruction. -/
def State.xferOp (s : State) (i : Iss) (taken : Ctx → Bool) (target : Ctx → Word) (link : Option Nat) : State :=
  s.issue i (fun s =>
    let c := (s.th i.k).ctx
    let sl : Slot :=
      { xferAt := c.pc, long := decide (i.len = 2), target := if taken c then some (target c) else none, link := link }
    s.finish i.k i.len { c with shadow := [], pc := c.pc + w24 i.len, slot := some sl } false)

end Sys2Proof.Machine
end

