-- ==== Sys2Proof/Machine/Alu.lean ====
section
/-!
DEFINITION. The register ALU instructions, major 0x00 (R93–R95).
-/

namespace Sys2Proof.Machine

/-- A register ALU instruction of major 0x00 (R93, R94): `op` of the two sources goes to `rd`. -/
def State.aluR (s : State) (k rd ra rb fn : Nat) (op : Word → Word → Word) : State :=
  s.regOp (Iss.plain k (encR 0x00 rd ra rb fn) 1 [ra, rb] false) (fun c => c.wrG rd (op (c.rdG ra) (c.rdG rb)))

/-- A shift amount: bits [4:0] of a register (R95). -/
def shAmt (b : Word) : Nat := b.toNat % 32

/-- A comparison's result as a word: 1 or 0. -/
def boolW (b : Bool) : Word := if b then 1 else 0

/-- Leading zero bits of a word among its low `n` bits (R94). -/
def clzGo (v : Word) : Nat → Nat
  | 0 => 0
  | n + 1 => if v.getLsbD n then 0 else 1 + clzGo v n

/-- Number of leading zero bits of a word, 0–24 (R94). -/
def clz24 (v : Word) : Nat := clzGo v 24

/-- R94. add writes G[ra] + G[rb] to G[rd]. -/
def execAdd (k : Fin 512) (rd ra rb : Fin 16) (s : State) : Out :=
  .next (s.aluR k rd ra rb 0x00 (fun a b => a + b))

/-- R94. sub writes G[ra] − G[rb]. -/
def execSub (k : Fin 512) (rd ra rb : Fin 16) (s : State) : Out :=
  .next (s.aluR k rd ra rb 0x01 (fun a b => a - b))

/-- R94. and writes the bitwise AND. -/
def execAnd (k : Fin 512) (rd ra rb : Fin 16) (s : State) : Out :=
  .next (s.aluR k rd ra rb 0x02 (fun a b => a &&& b))

/-- R94. or writes the bitwise OR. -/
def execOr (k : Fin 512) (rd ra rb : Fin 16) (s : State) : Out :=
  .next (s.aluR k rd ra rb 0x03 (fun a b => a ||| b))

/-- R94. xor writes the bitwise exclusive OR. -/
def execXor (k : Fin 512) (rd ra rb : Fin 16) (s : State) : Out :=
  .next (s.aluR k rd ra rb 0x04 (fun a b => a ^^^ b))

/-- R94. andn writes G[ra] AND NOT G[rb]. -/
def execAndn (k : Fin 512) (rd ra rb : Fin 16) (s : State) : Out :=
  .next (s.aluR k rd ra rb 0x05 (fun a b => a &&& ~~~b))

/-- R94. nor writes NOT (G[ra] OR G[rb]). -/
def execNor (k : Fin 512) (rd ra rb : Fin 16) (s : State) : Out :=
  .next (s.aluR k rd ra rb 0x06 (fun a b => ~~~(a ||| b)))

/-- R94. slt writes 1 if G[ra] is signed-less than G[rb]. -/
def execSlt (k : Fin 512) (rd ra rb : Fin 16) (s : State) : Out :=
  .next (s.aluR k rd ra rb 0x07 (fun a b => boolW (a.slt b)))

/-- R94. sltu writes 1 if G[ra] is unsigned-less than G[rb]. -/
def execSltu (k : Fin 512) (rd ra rb : Fin 16) (s : State) : Out :=
  .next (s.aluR k rd ra rb 0x08 (fun a b => boolW (a.ult b)))

/-- R95. sll shifts left by G[rb] & 31. -/
def execSll (k : Fin 512) (rd ra rb : Fin 16) (s : State) : Out :=
  .next (s.aluR k rd ra rb 0x09 (fun a b => a <<< shAmt b))

/-- R95. srl shifts right with zero fill. -/
def execSrl (k : Fin 512) (rd ra rb : Fin 16) (s : State) : Out :=
  .next (s.aluR k rd ra rb 0x0A (fun a b => a >>> shAmt b))

/-- R95. sra shifts right with sign fill. -/
def execSra (k : Fin 512) (rd ra rb : Fin 16) (s : State) : Out :=
  .next (s.aluR k rd ra rb 0x0B (fun a b => a.sshiftRight (shAmt b)))

/-- R95. rol rotates left by the amount mod 24. -/
def execRol (k : Fin 512) (rd ra rb : Fin 16) (s : State) : Out :=
  .next (s.aluR k rd ra rb 0x0C (fun a b => a.rotateLeft (shAmt b % 24)))

/-- R94. min writes the signed smaller operand. -/
def execMin (k : Fin 512) (rd ra rb : Fin 16) (s : State) : Out :=
  .next (s.aluR k rd ra rb 0x0D (fun a b => if a.slt b then a else b))

/-- R94. max writes the signed larger operand. -/
def execMax (k : Fin 512) (rd ra rb : Fin 16) (s : State) : Out :=
  .next (s.aluR k rd ra rb 0x0E (fun a b => if a.slt b then b else a))

/-- R94. minu writes the unsigned smaller operand. -/
def execMinu (k : Fin 512) (rd ra rb : Fin 16) (s : State) : Out :=
  .next (s.aluR k rd ra rb 0x0F (fun a b => if a.ult b then a else b))

/-- R94. maxu writes the unsigned larger operand. -/
def execMaxu (k : Fin 512) (rd ra rb : Fin 16) (s : State) : Out :=
  .next (s.aluR k rd ra rb 0x10 (fun a b => if a.ult b then b else a))

/-- R94. mul writes the low 24 bits of the product. -/
def execMul (k : Fin 512) (rd ra rb : Fin 16) (s : State) : Out :=
  .next (s.aluR k rd ra rb 0x11 (fun a b => a * b))

/-- R94. mulhs writes bits [47:24] of the signed product. -/
def execMulhs (k : Fin 512) (rd ra rb : Fin 16) (s : State) : Out :=
  .next (s.aluR k rd ra rb 0x12 (fun a b => i24 (a.toInt * b.toInt / 2 ^ 24)))

/-- R94. mulhu writes bits [47:24] of the unsigned product. -/
def execMulhu (k : Fin 512) (rd ra rb : Fin 16) (s : State) : Out :=
  .next (s.aluR k rd ra rb 0x13 (fun a b => w24 (a.toNat * b.toNat / 2 ^ 24)))

/-- R94. clz writes the count of leading zeros of G[ra]. A nonzero rb field is ILLEGAL. -/
def execClz (k : Fin 512) (rd ra rb : Fin 16) (s : State) : Out :=
  .next (s.regOp (Iss.plain k (encR 0x00 rd ra rb 0x14) 1 [ra] (decide (rb ≠ 0))) (fun c => c.wrG rd (w24 (clz24 (c.rdG ra)))))

end Sys2Proof.Machine
end

