-- ==== Sys2Proof/Machine/Evi.lean ====
section
/-!
DEFINITION. The event interface (R157–R190): coalescer, hold latch, wake delivery, interrupt acceptance, exception entry, claim and
end-of-interrupt.
-/

namespace Sys2Proof.Machine

/-- Thread `k`'s EL is set (R133); a wfe that waits completes (R134). -/
def State.wake (s : State) (k : Nat) : State := s.setEl k (fun s => s.complete k 1)

/-- Source `n` of engine `e` is masked. -/
def State.maskB (s : State) (e n : Nat) : Bool := s.fb (Reg.EVI_MASKk e (n / 24)) (srcBit n)

/-- Source `n` of engine `e` is active. -/
def State.actB (s : State) (e n : Nat) : Bool := s.fb (Reg.EVI_ACTk e (n / 24)) (srcBit n)

/-- The configuration word of source `n`. -/
def State.srcCfg (s : State) (e n : Nat) : Word := s.rd (Reg.EVI_SsCFG e n)

/-- Source `n` is eligible for thread `k` of its engine (R168). -/
def State.eligible (s : State) (k n : Nat) : Bool :=
  let e := k / 4
  let c := s.srcCfg e n
  decide (getF c Reg.EVI_SsCFG_KIND = 0) && decide (getF c Reg.EVI_SsCFG_THR = k % 4) && s.pendB e n && !s.maskB e n && !s.actB e n

/-- The candidate of thread `k` (R168): the eligible source of highest PRIO, ties to the lowest number; with its PRIO. -/
def State.candidate (s : State) (k : Nat) : Option (Nat × Nat) :=
  (List.range 64).foldl (fun best n =>
    if s.eligible k n then
      let p := getF (s.srcCfg (k / 4) n) Reg.EVI_SsCFG_PRIO
      match best with
      | some (_, bp) => if bp < p then some (n, p) else best
      | none => some (n, p)
    else best) none

/-- The running priority of a level stack: the priority of the topmost live entry (R167). -/
def rpOf (ls : List Level) : Option Nat := (ls.find? (fun l => l.live)).map (fun l => l.prio)

/-- A priority exceeds the running priority (R167). -/
def aboveRp (p : Nat) : Option Nat → Bool
  | none => true
  | some r => decide (r < p)

/-- The floor BASE in force for thread `k` (R167). -/
def State.baseOf (s : State) (k : Nat) : Nat := SMap.get 0 (s.en (k / 4)).baseEff (k % 4)

/-- A candidate of priority `p` passes the tests of R169 on priority and depth for the level stack `ls`. -/
def State.accepts (s : State) (k p : Nat) (ls : List Level) : Bool :=
  aboveRp p (rpOf ls) && decide (s.baseOf k ≤ p) && decide (ls.length ≤ 14)

/-- The size of the instruction that an entry would find at the thread's address: the oldest uncommitted one, a one-word instruction
that waits by design, or the one fetched next. -/
def State.nextLen (s : State) (k : Nat) : Nat :=
  let t := s.th k
  match t.infl with
  | h :: _ => h.len
  | [] => if t.mode.waits ∧ t.mode ≠ .drain then 1
          else match (s.translate k .fetch t.ctx.pc.toNat).2 with
            | .ok a => s.sizeAt a
            | .error _ => 1

/-- Source `n` ends: the entry's active bit is cleared if it was set by the entry (R174). -/
def State.clearAct (s : State) (e : Nat) (l : Level) : State :=
  if l.claimed then s.sf (Reg.EVI_ACTk e (l.src / 24)) (srcBit l.src) 0 else s

/-- The first live entry of a level stack stops being live (R174). -/
def endLive : List Level → List Level
  | [] => []
  | l :: r => if l.live then { l with live := false } :: r else l :: endLive r

/-- A thread of engine `e` makes the access: its index. -/
def Who.threadOf (e : Nat) : Who → Option Nat
  | .thread k => if k / 4 = e then some k else none
  | _ => none

/-- A read of EVI_CLAIM of engine `e` (R171): the word returned, and its effect. -/
def State.claimRead (s : State) (e : Nat) (who : Who) : State × Word :=
  let spur := fun (s : State) (src : Nat) => (s.inc (Reg.EVI_CNT1 e) Reg.EVI_CNT1_SPUR, w24 (64 + src))
  match who with
  | .thread k =>
    (match (s.th k).levels with
     | [] => spur s 0
     | l :: r =>
       if decide (k / 4 = e) && l.live && l.intr && !l.scan && !l.claimed && s.pendB e l.src then
         let s := (s.clearPend e l.src).sf (Reg.EVI_ACTk e (l.src / 24)) (srcBit l.src) 1
         (s.mapTh k (fun t => { t with levels := { l with claimed := true } :: r }), w24 l.src)
       else spur s (if l.intr then l.src else 0))
  | _ => spur s 0

/-- A priority-stack fault (R174): the thread, the written fields and the top live entry are recorded, EVI_CNT0.SF counts, source 1 is
set, and the fault is logged (R570). -/
def State.stackFault (s : State) (k : Nat) (v : Word) : State :=
  let e := k / 4
  let top := (s.th k).levels.find? (fun l => l.live)
  let a := Reg.EVI_SFSTAT e
  let tp := match top with | some l => l.prio | none => 0
  let ts := match top with | some l => l.src | none => 0
  let s := s.sf a Reg.EVI_SFSTAT_SF 1
  let s := s.sf a Reg.EVI_SFSTAT_NOLIVE (b2n top.isNone)
  let s := s.sf a Reg.EVI_SFSTAT_THR (k % 4)
  let s := s.sf a Reg.EVI_SFSTAT_WPRIO (getF v Reg.EVI_EOI_PRIO)
  let s := s.sf a Reg.EVI_SFSTAT_TPRIO tp
  let s := s.sf a Reg.EVI_SFSTAT_WSRC (getF v Reg.EVI_EOI_SRC)
  let s := s.sf a Reg.EVI_SFSTAT_TSRC ts
  let s := (s.inc (Reg.EVI_CNT0 e) Reg.EVI_CNT0_SF).arrive e 1
  s.faultLog 4 k (getF v Reg.EVI_EOI_SRC) (s.rd a)

/-- A write to EVI_EOI of engine `e` (R174): a match with the topmost live entry ends it and opens the post-EOI window (R175). -/
def State.eoiWrite (s : State) (e : Nat) (who : Who) (v : Word) : State :=
  match who.threadOf e with
  | none => s
  | some k =>
    match (s.th k).levels.find? (fun l => l.live) with
    | none => s.stackFault k v
    | some l =>
      if (if l.scan then decide (getF v Reg.EVI_EOI_PRIO = l.prio) else decide (getF v Reg.EVI_EOI_SRC = l.src)) then
        (s.clearAct e l).mapTh k (fun t => { t with levels := endLive t.levels, postEoi := 16 })
      else s.stackFault k v

/-- One bit of a software write to a pending register (R161). -/
def State.pendBit (s : State) (e n : Nat) (b : Bool) : State :=
  if b then s.setPend e n else s.clearPend e n

/-- A write to EVI_PENDk (R161): every bit of the word, in one step. -/
def State.pendWrite (s : State) (e w : Nat) (v : Word) : State :=
  (List.range (if w = 2 then 16 else 24)).foldl (fun s i => s.pendBit e (24 * w + i) (v.getLsbD i)) s

/-- HOLD goes to 0 (R159, R162): every latched emit is applied in one step. -/
def State.holdRelease (s : State) (e : Nat) : State :=
  if s.fb (Reg.EVI_HOLD e) Reg.EVI_HOLD_HOLD then
    let s := s.sf (Reg.EVI_HOLD e) Reg.EVI_HOLD_HOLD 0
    (List.range 64).foldl (fun s n =>
      let x := s.src e n
      if x.latch then (s.setSrc e n { x with latch := false }).setPend e n else s) s
  else s

/-- A device event lies in a receive window of capsule `c` (R236, R237). -/
def State.inWindow (s : State) (c ev : Nat) : Bool :=
  [10, 11].any (fun w => let d := s.desc c w
    d.getLsbD 23 && decide (getBits d 19 10 ≤ ev) && decide (ev ≤ getBits d 9 0))

/-- A presented wake source delivers its request (R165), unless the receive windows of its thread's capsule refuse it (R236). -/
def State.wakeDeliver (s : State) (e n : Nat) : State :=
  let c := s.srcCfg e n
  let k := e * 4 + getF c Reg.EVI_SsCFG_THR
  if getF c Reg.EVI_SsCFG_KIND = 1 ∧ s.pendB e n ∧ s.maskB e n = false ∧ (s.th k).mode ≠ .off then
    let b := (s.th k).baseBind
    let ev := getF c Reg.EVI_SsCFG_ROUTE
    if 8 ≤ n ∧ b.1 = false ∧ s.inWindow b.2 ev = false then
      if (s.src e n).denied then s
      else (s.setSrc e n { s.src e n with denied := true }).denyLog 1 b.2 ev k
    else (s.clearPend e n).wake k
  else s

/-- A thread may accept an interrupt now, whatever the candidate (R169): it runs or waits, it is not halted or being stepped, and
it is outside the post-EOI window (R175), whose beats run down at issue beats of the engine and with device time (log entry 3). -/
def Thread.open (t : Thread) : Bool :=
  (decide (t.mode = .run) || t.mode.waits) && decide (t.halt = 0) && decide (t.haltReq = 0) && !t.stepping && !t.rom &&
  decide (t.postEoi = 0)

/-- An entry would find an instruction of the thread to abandon: an uncommitted one, or a wait by design (R72, R135). -/
def Thread.busy (t : Thread) : Bool := decide (t.infl ≠ []) || (t.mode.waits && decide (t.mode ≠ .drain))

/-- Thread `k` accepts its candidate (R169, R170), if it has one it may accept. -/
def State.intAccept (s : State) (k : Nat) : State :=
  let t := s.th k
  match s.candidate k with
  | some (n, p) =>
    if t.open && s.accepts k p t.levels then
      let len := s.nextLen k
      let ab := t.busy
      let s := s.abandon k
      let t := s.th k
      s.interrupt k n p (saveOf t.bind t.ctx len t.depth ab)
    else s
  | none => s

/-- An exception signalled to a thread that is no instruction's own (BUDGET, STALL): taken as an interrupt is, with XPC per R72 (R179). -/
def State.signalExc (s : State) (k : Nat) (c : Cause) (addr : Word) : State :=
  let len := s.nextLen k
  let ab := (s.th k).busy
  let s := s.abandon k
  s.except k ⟨c, .fetch, 0, addr⟩ len none ab

/-- R159. An arrival at an EVI source passes the coalescer and hold latch and may set its pending bit. -/
def execEventArrival (e : Fin 128) (n : Fin 64) (s : State) : Out := .next (s.arrive e n)

/-- R160. An open coalescing batch reaches CTIME and emits; before that, and while TPLL has not locked, nothing happens. -/
def execCoalesceTimeLimit (e : Fin 128) (n : Fin 64) (s : State) : Out :=
  let x := s.src e n
  let ct := s.fl (Reg.EVI_SsCOAL e n) Reg.EVI_SsCOAL_CTIME
  .next (if s.pwr.state = 0 ∧ x.isOpen ∧ ct ≠ 0 ∧ s.time.locked ∧ ct * 1000 ≤ (s.time.dt - x.t0).toNat then s.emit e n else s)

/-- R161. A write to EVI_PENDk sets or clears pending bits as a software trigger, past the coalescer and the latch. -/
def execPendWrite (e : Fin 128) (w : Fin 3) (v : BitVec 24) (s : State) : Out := .next (s.pendWrite e w v)

/-- R162. Writing EVI_HOLD.HOLD = 1 makes emits wait in the hold latches. -/
def execEviHoldSet (e : Fin 128) (s : State) : Out := .next (s.sf (Reg.EVI_HOLD e) Reg.EVI_HOLD_HOLD 1)

/-- R162. Writing HOLD = 0 applies every latched emit in one step. -/
def execEviHoldRelease (e : Fin 128) (s : State) : Out := .next (s.holdRelease e)

/-- R163. HOLD held for 4,096 bt is cleared as if software had written 0, TO is set and source 7 is set. -/
def execEviHoldTimeout (e : Fin 128) (s : State) : Out :=
  .next (if s.fb (Reg.EVI_HOLD e) Reg.EVI_HOLD_HOLD then
      ((s.holdRelease e).sf (Reg.EVI_HOLD e) Reg.EVI_HOLD_TO 1).arrive e 7
    else s)

/-- R165. A presented wake source sets its thread's EL and clears its pending bit, subject to the capsule receive windows (R236). -/
def execWakeDelivery (e : Fin 128) (n : Fin 64) (s : State) : Out :=
  .next (if s.pwr.state = 0 then s.taking 0 (s.wakeDeliver e n) else s)

/-- R177. A thread accepts its interrupt candidate: uncommitted work is abandoned, a live level is pushed, the handler starts. -/
def execInterruptAccept (k : Fin 512) (s : State) : Out :=
  .next (if s.pwr.state = 0 then s.taking 0 (s.intAccept k) else s)

/-- The thread's next instruction may raise exception `c` with `addr` (R86, R89, R182): ILLEGAL names a word that no instruction's encoding has
(an encoding that an instruction's row carries raises it there), PARITY a register of R82's RFREG, which g0 is not. -/
def raises (c : Cause) (addr : Word) : Bool :=
  match c with
  | .illegal => (decodeWord 0 addr 0).isNone
  | .parity => decide (1 ≤ addr.toNat) && decide (addr.toNat ≤ 27)
  | .int | .gate | .budget | .stall => false
  | _ => true

/-- R179. A synchronous exception abandons the faulting and younger instructions and enters the exception vector. It belongs to the thread's
next instruction, and is taken once every older one has committed (R73). INT, GATE, BUDGET and STALL are no exceptions of this kind: they
are INTERRUPT_ACCEPT, CALLK, BUDGET_EXHAUSTED and STALL. -/
def execExceptionEntry (k : Fin 512) (c : Cause) (acc : AccKind) (lvl : Fin 4) (addr : BitVec 24) (s : State) : Out :=
  .next (if raises c addr && s.isReady k then s.faultIns k (s.nextLen k) ⟨c, acc, lvl, addr⟩ else s)

/-- R171. A read of EVI_CLAIM claims the top claim-mode entry's source, or returns SPUR; the word read is kept in `rdata`. -/
def execClaim (e : Fin 128) (who : Who) (s : State) : Out :=
  let x := s.claimRead e who
  .next { x.1 with rdata := x.2 }

/-- R174. A write to EVI_EOI ends the matching topmost live entry and lowers the running priority. -/
def execEoi (e : Fin 128) (who : Who) (v : BitVec 24) (s : State) : Out := .next (s.eoiWrite e who v)

end Sys2Proof.Machine
end

