-- ==== Sys2Proof/Machine/System.lean ====
section
/-!
DEFINITION. Waiting, ordering, signalling, the gate, checkpoints and translation-cache invalidation (R133–R151).
-/

namespace Sys2Proof.Machine

/-- An instruction whose effect reaches beyond its thread's registers, or that waits. -/
def Iss.system (k : Nat) (word : Word) (reads : List Nat) (bad : Bool) : Iss :=
  { Iss.plain k word 1 reads bad with alone := true }

/-- A keeper-only instruction of major 0x39 (R150). -/
def Iss.keeperOp (k : Nat) (word : Word) (reads : List Nat) (bad : Bool) : Iss :=
  { Iss.system k word reads bad with keeper := true }

/-- An instruction that waits by design in mode `m` unless `ready` (R134, R136, R141, R142). In a thread that is stopping it is a delay
slot, which is abandoned with its effect (R80). -/
def State.waitOp (s : State) (k : Nat) (ready : Bool) (done : State → State) (m : Mode) : State :=
  if ready then (done s).complete k 1
  else if (s.th k).mode = .stopping then s.mapTh k (fun t => { t with ctx := t.ctx.dropSlot 1 })
  else s.mapTh k (fun t => { t with mode := m })

/-- The test of waitt (R136): T at most 2^47 ticks in the past. -/
def reached (d t : Pair) : Bool := decide ((d - t).toNat < 2 ^ 47)

/-- The time a waitt or rdt of thread `k` sees has reached `t`; before TPLL locks waitt waits (R136–R138). -/
def State.timeReached (s : State) (k : Nat) (t : Pair) : Bool := s.time.locked && reached (s.seenTime k) t

/-- Thread `k` has an access in the spine interface that has not completed (R142). -/
def State.accessing (s : State) (k : Nat) : Bool := (s.en (k / 4)).spine.any (fun a => a.k == k)

/-- Translation-cache entries that match are invalidated on engine `e` (R150). -/
def State.tcDrop (s : State) (e : Nat) (f : TcEnt → Bool) : State :=
  s.mapEn e (fun x => { x with tc := x.tc.filter (fun p => match p.2 with | some t => !f t | none => false) })

/-- As `tcDrop`, on all 128 engines (R150). An engine that is unlisted holds no entry. -/
def State.tcDropAll (s : State) (f : TcEnt → Bool) : State :=
  (s.eng.map (fun p => p.1)).foldl (fun s e => s.tcDrop e f) s

/-- The entry of capsule `cid` that covers virtual address `va`, page or block (R150, R219). -/
def tcMatch (cid va : Nat) (t : TcEnt) : Bool := t.hit cid va

/-- The words of a checkpoint: `n` words from virtual address `va`, each translated and in the engine's own local memory (R148). The
first word that fails gives its fault. -/
def State.ckptAddrs (s : State) (k : Nat) (va : Word) : Nat → State × Except FaultInfo (List Nat)
  | 0 => (s, .ok [])
  | n + 1 =>
    let (s, r) := s.checkAddr k .load va.toNat
    match r with
    | .error f => (s, .error f)
    | .ok pa =>
      if ownLocal (k / 4) pa then
        let (s, r2) := s.ckptAddrs k (va + 1) n
        (match r2 with
         | .ok l => (s, .ok (pa :: l))
         | .error f => (s, .error f))
      else (s, .error ⟨.bus, .load, 0, va⟩)

/-- The words at a list of addresses, read for a checkpoint; the first that is uncorrectable gives its position (R196). -/
def State.ckptRead (s : State) (e : Nat) (i : Nat) : List Nat → State × Except Nat (List Word)
  | [] => (s, .ok [])
  | a :: r =>
    let (s, x) := s.memRead a 6 e
    match x with
    | none => (s, .error i)
    | some w =>
      let (s, y) := s.ckptRead e (i + 1) r
      match y with
      | .ok l => (s, .ok (w :: l))
      | .error j => (s, .error j)

/-- A checkpoint of `n` words from the address in `ra` (R148, R149, R283). -/
def State.ckptBody (s : State) (k ra n : Nat) : State :=
  let e := k / 4
  let va := (s.th k).ctx.rdG ra
  let d := s.desc (s.ownCid k) 16
  let (s, r) := s.ckptAddrs k va n
  let noStrand := fun (s : State) => (s.denyLog 3 (s.ownCid k) 0 k).faultIns k 1 ⟨.perm, .load, 0, 0⟩
  match r with
  | .error f =>
    if d.getLsbD 23 ∨ f.cause = .walkDev ∨ f.cause = .walkEcc ∨ f.cause = .xlate then s.faultIns k 1 f else noStrand s
  | .ok as =>
    if d.getLsbD 23 = false then noStrand s
    else
      let (s, w) := s.ckptRead e 0 as
      match w with
      | .error i => s.faultIns k 1 ⟨.ecc, .load, 0, va + w24 i⟩
      | .ok ws =>
        let q := ((s.en e).ckseq + 1) % 8192
        let hd := w24 (3 * 2 ^ 20 + q * 2 ^ 7 + n)
        let st : Staging := { items := hd :: ws, strand := getBits d 8 0, thread := k, epoch := s.itemEpoch k }
        (s.mapEn e (fun x => { x with stag := st, ckseq := q })).complete k 1

/-- R134. wfe clears EL and completes, or waits in EVENT until EL is set. -/
def execWfe (k : Fin 512) (rd ra : Fin 16) (s : State) : Out :=
  .next (s.issue (Iss.system k (encX 0x39 rd ra 0x00) [] (decide (rd ≠ 0) || decide (ra ≠ 0))) (fun s =>
    s.waitOp k (s.th k).el (fun s => s.mapTh k (fun t => { t with el := false })) .event))

/-- R136. waitt waits in TIME until the thread's view of device time reaches the 48-bit target in the pair at `ra`. -/
def execWaitt (k : Fin 512) (rd ra : Fin 16) (s : State) : Out :=
  .next (s.issue (Iss.system k (encX 0x39 rd ra 0x01) [ra, ra + 1] (decide (rd ≠ 0) || decide (ra.val % 2 = 1))) (fun s =>
    let c := (s.th k).ctx
    let t := mkPair (c.rdG ra) (c.rdG (ra + 1))
    s.waitOp k (s.timeReached k t) id (.time t)))

/-- R137. Device time reaches a waiting waitt's target and the waitt completes. -/
def execWaittTargetReached (k : Fin 512) (s : State) : Out :=
  .next (match (s.th k).mode with
    | .time t => if s.pwr.state = 0 ∧ s.resting 0 = false ∧ s.timeReached k t then (s.mapTh k (fun t => { t with mode := .run })).complete k 1 else s
    | _ => s)

/-- R137. rdt reads the cluster's device-time mirror, as the thread sees it, into a register pair. -/
def execRdt (k : Fin 512) (rd ra : Fin 16) (s : State) : Out :=
  .next (s.issue (Iss.plain k (encX 0x39 rd ra 0x02) 1 [] (decide (ra ≠ 0) || decide (rd.val % 2 = 1))) (fun s =>
    let t := s.th k
    let d := s.seenTime k
    let c := (t.ctx.wrG rd (pairLo d)).wrG (rd + 1) (pairHi d)
    let x := ({ c with shadow := [] } : Ctx).advance t.depth 1
    s.finish k 1 x.1 x.2))

/-- R141. sync waits until the thread's pending RWS writes have taken effect. -/
def execSync (k : Fin 512) (rd ra : Fin 16) (s : State) : Out :=
  .next (s.issue (Iss.system k (encX 0x39 rd ra 0x03) [] (decide (rd ≠ 0) || decide (ra ≠ 0))) (fun s =>
    s.waitOp k (decide ((s.th k).rws = [])) id .sync))

/-- R141. The thread's pending RWS writes take effect; a sync that waits for them completes. -/
def execSyncComplete (k : Fin 512) (s : State) : Out :=
  let s1 := (s.rwsApply (s.th k).rws).mapTh k (fun t => { t with rws := [] })
  .next (if (s.th k).mode = .sync then (s1.mapTh k (fun t => { t with mode := .run })).complete k 1 else s1)

/-- R142. fence holds the thread in DRAIN until its older accesses complete. -/
def execFence (k : Fin 512) (rd ra : Fin 16) (s : State) : Out :=
  .next (s.issue (Iss.plain k (encX 0x39 rd ra 0x04) 1 [] (decide (rd ≠ 0) || decide (ra ≠ 0))) (fun s =>
    s.waitOp k (!s.accessing k) id .fence))

/-- R142. The last older access of a fenced thread has completed, and the fence completes. -/
def execFenceComplete (k : Fin 512) (s : State) : Out :=
  .next (if (s.th k).mode = .fence ∧ s.accessing k = false then
      (s.mapTh k (fun t => { t with mode := if s.chn.drains.any (fun x => decide (x.thread = k.val ∧ x.depth = t.depth)) then .drain else .run })).complete k 1
    else s)

/-- R150. tcia invalidates every translation-cache entry of the own engine. -/
def execTcia (k : Fin 512) (rd ra : Fin 16) (s : State) : Out :=
  .next (s.issue (Iss.keeperOp k (encX 0x39 rd ra 0x07) [] (decide (rd ≠ 0) || decide (ra ≠ 0))) (fun s =>
    (s.tcDrop (k / 4) (fun _ => true)).complete k 1))

/-- R150. tcic invalidates the own engine's entries of one capsule. -/
def execTcic (k : Fin 512) (rd ra : Fin 16) (s : State) : Out :=
  .next (s.issue (Iss.keeperOp k (encX 0x39 rd ra 0x08) [ra] (decide (rd ≠ 0))) (fun s =>
    let c := getBits ((s.th k).ctx.rdG ra) 9 0
    (s.tcDrop (k / 4) (fun t => decide (t.cid = c))).complete k 1))

/-- R150. tcip invalidates one page entry of one capsule on the own engine. -/
def execTcip (k : Fin 512) (rd ra : Fin 16) (s : State) : Out :=
  .next (s.issue (Iss.keeperOp k (encX 0x39 rd ra 0x09) [rd, ra] false) (fun s =>
    let c := (s.th k).ctx
    (s.tcDrop (k / 4) (tcMatch (getBits (c.rdG rd) 9 0) (c.rdG ra).toNat)).complete k 1))

/-- R150. btcia invalidates every entry on all 128 engines. -/
def execBtcia (k : Fin 512) (rd ra : Fin 16) (s : State) : Out :=
  .next (s.issue (Iss.keeperOp k (encX 0x39 rd ra 0x0A) [] (decide (rd ≠ 0) || decide (ra ≠ 0))) (fun s =>
    (s.tcDropAll (fun _ => true)).complete k 1))

/-- R150. btcic invalidates a capsule's entries on all engines. -/
def execBtcic (k : Fin 512) (rd ra : Fin 16) (s : State) : Out :=
  .next (s.issue (Iss.keeperOp k (encX 0x39 rd ra 0x0B) [ra] (decide (rd ≠ 0))) (fun s =>
    let c := getBits ((s.th k).ctx.rdG ra) 9 0
    (s.tcDropAll (fun t => decide (t.cid = c))).complete k 1))

/-- R150. btcip invalidates one page entry on all engines. -/
def execBtcip (k : Fin 512) (rd ra : Fin 16) (s : State) : Out :=
  .next (s.issue (Iss.keeperOp k (encX 0x39 rd ra 0x0C) [rd, ra] false) (fun s =>
    let c := (s.th k).ctx
    (s.tcDropAll (tcMatch (getBits (c.rdG rd) 9 0) (c.rdG ra).toNat)).complete k 1))

/-- R140. sev raises software device event 976 + n; for a capsule only where SEVLO and SEVHI permit it, else PERM and a refusal-log
entry of kind 0 (R265). -/
def execSev (k : Fin 512) (ra : Fin 16) (imm : BitVec 10) (s : State) : Out :=
  .next (s.issue (Iss.system k (encI 0x3A 0 ra imm.toNat) [] (decide (ra ≠ 0) || decide (32 ≤ imm.toNat))) (fun s =>
    let b := (s.th k).bind
    let n := imm.toNat
    let ok := b.prv || (if n < 24 then (s.desc b.cid 8).getLsbD n else (s.desc b.cid 9).getLsbD (n - 24))
    if ok then (s.raise (976 + n)).complete k 1
    else (s.denyLog 0 b.cid (976 + n) k).faultIns k 1 ⟨.perm, .fetch, 0, w24 (976 + n)⟩))

/-- R140. sevl sets the own engine's DOORBELL source. -/
def execSevl (k : Fin 512) (ra : Fin 16) (imm : BitVec 10) (s : State) : Out :=
  .next (s.issue (Iss.system k (encI 0x3A 1 ra imm.toNat) [] (decide (ra ≠ 0) || decide (imm ≠ 0))) (fun s =>
    (s.arrive (k / 4) 2).complete k 1))

/-- R143. callk enters the keeper through the exception vector with cause GATE; XPC receives A + 1 and XADDR receives n. At keeper
privilege it is ILLEGAL. -/
def execCallk (k : Fin 512) (ra : Fin 16) (n : BitVec 10) (s : State) : Out :=
  .next (s.issue { Iss.system k (encI 0x3A 2 ra n.toNat) [] (decide (ra ≠ 0) || (s.th k).bind.prv) with noSlot := true, noEnd := true }
    (fun s => s.except k ⟨.gate, .fetch, 0, n.zeroExtend 24⟩ 1 (some ((s.th k).ctx.pc + 1)) true))

/-- R148. ckpt stages n local words behind a header into the engine's checkpoint buffer; while the buffer holds items of an earlier
checkpoint it waits. -/
def execCkpt (k : Fin 512) (ra : Fin 16) (imm : BitVec 10) (s : State) : Out :=
  .next (if (s.en (k.val / 4)).stag.items ≠ [] then s.idleBeat k
    else s.issue (Iss.system k (encI 0x3A 3 ra imm.toNat) [ra] (decide (64 ≤ imm.toNat))) (fun s =>
      s.ckptBody k ra (imm.toNat + 1)))

end Sys2Proof.Machine
end

