-- ==== Sys2Proof/Machine/Strand.lean ====
section
/-!
DEFINITION. Strands, landing units, watches and the to-fabric bridge queues (R267–R289, R637).
-/

namespace Sys2Proof.Machine

/-- Strand `i`. -/
def State.strand (s : State) (i : Nat) : Strand := SMap.get Strand.empty s.str i

/-- Strand `i` set. -/
def State.setStrand (s : State) (i : Nat) (x : Strand) : State := { s with str := SMap.set Strand.empty s.str i x }

/-- Strand `i` changed by `f`. -/
def State.mapStrand (s : State) (i : Nat) (f : Strand → Strand) : State := s.setStrand i (f (s.strand i))

/-- A field of STR_sCFG. -/
def State.strCfg (s : State) (i : Nat) (f : Fld) : Nat := s.fl (Reg.STR_sCFG i) f

/-- The expected epoch of strand `i` (R281): a PCID write and the bezel keep it at the current epoch of descriptor STR_sEP.PCID. -/
def State.strExp (s : State) (i : Nat) : Nat := s.epoch (s.fl (Reg.STR_sEP i) Reg.STR_sEP_PCID)

/-- The watches that are enabled on strand `i` with condition `cond`, as (number, level) (R285). -/
def State.watches (s : State) (i cond : Nat) : List (Nat × Nat) :=
  s.regs.filterMap (fun p =>
    if 0xF43100 ≤ p.1 ∧ p.1 < 0xF43140 ∧ getF p.2 Reg.STR_WwCFG_EN = 1 ∧ getF p.2 Reg.STR_WwCFG_STRAND = i ∧
        getF p.2 Reg.STR_WwCFG_COND = cond then
      some (p.1 - 0xF43100, min 16 (max 1 (getF p.2 Reg.STR_WwCFG_LEVEL)))
    else none)

/-- Watches of strand `i` with condition `cond` raise their events (R285). -/
def State.watchFire (s : State) (i cond : Nat) : State := (s.watches i cond).foldl (fun s w => s.raise (816 + w.1)) s

/-- OCC rose from `was` to `now`: watches whose level lies between raise their events (R285). -/
def State.watchLevel (s : State) (i was now : Nat) : State :=
  ((s.watches i 0).filter (fun w => decide (was < w.2) && decide (w.2 ≤ now))).foldl (fun s w => s.raise (816 + w.1)) s

/-- The strand is enabled; DST 0b11 acts as EN = 0 (R269). -/
def State.strOn (s : State) (i : Nat) : Bool := decide (s.strCfg i Reg.STR_sCFG_EN = 1) && decide (s.strCfg i Reg.STR_sCFG_DST ≠ 3)

/-- A drop counter of strand `i` counts, and each increment raises the watches of COND 2 (R285); a saturated one does not increment. -/
def State.strDrop (s : State) (i : Nat) (f : Fld) : State :=
  if s.fl (Reg.STR_sDROP i) f = 0xFF then s else (s.inc (Reg.STR_sDROP i) f).watchFire i 2

/-- BRK or TRUNC is set; a change from 0 raises the watches of COND 3 (R285). -/
def State.strFlag (s : State) (i : Nat) (f : Fld) : State :=
  if s.fb (Reg.STR_sSTAT i) f then s else (s.sf (Reg.STR_sSTAT i) f 1).watchFire i 3

/-- LEN of a packet header (R276). -/
def hdrLen (w : Word) : Nat := getBits w 6 0

/-- A word is a valid header (R276): [23] = 0, a KIND that is not reserved, LEN at most 64. -/
def hdrOk (w : Word) : Bool := !w.getLsbD 23 && decide (getBits w 22 20 ≤ 4) && decide (hdrLen w ≤ 64)

/-- Items of the first packet of a list: its header and what follows up to the next header. -/
def firstPacket : List Item → List Item
  | [] => []
  | h :: r => h :: r.takeWhile (fun x => !x.h)

/-- The head packet is ready (R278): items held or already read number at least min(CUT, LEN + 1). -/
def State.packetReady (s : State) (i : Nat) : Bool :=
  let x := s.strand i
  let c := s.strCfg i Reg.STR_sCFG_CUT
  let cut := if c = 0 then 16 else c
  if 0 < x.remain then
    decide (min cut (x.remain + x.nread) ≤ (x.items.takeWhile (fun y => !y.h)).length + x.nread)
  else match x.items with
    | h :: _ => x.atHead && h.h && decide (min cut (hdrLen h.w + 1) ≤ (firstPacket x.items).length)
    | [] => false

/-- In packet mode the head packet is judged; on becoming ready it raises the packet watches once (R278, R285). -/
def State.judge (s : State) (i : Nat) : State :=
  let x := s.strand i
  if s.strCfg i Reg.STR_sCFG_FMT = 0 ∨ x.rdy then s
  else if s.packetReady i then (s.setStrand i { x with rdy := true }).watchFire i 1 else s

/-- The packet being read is broken (R279): REMAIN 0, BRK set, items discarded until a header, of which a payload item at stage 15 is the first;
a header that stands there already is the next packet, which is judged (R278). -/
def State.breakPacket (s : State) (i : Nat) : State :=
  let x := s.strand i
  let hd := x.atHead && (x.items.take 1).any (fun y => y.h)
  let stuck := x.atHead && !hd
  let s := s.setStrand i { x with
    items := if stuck then x.items.drop 1 else x.items, atHead := hd, remain := 0, nread := 0, rdy := false, discard := !hd }
  let s := s.strFlag i Reg.STR_sSTAT_BRK
  (if stuck then s.strDrop i Reg.STR_sDROP_REF else s).judge i

/-- The landing units that are enabled on strand `i`; the lowest is the one that takes its items (R284). -/
def State.landOf (s : State) (i : Nat) : Option Nat :=
  (s.regs.filterMap (fun p =>
    if 0xF43200 ≤ p.1 ∧ p.1 < 0xF43300 ∧ p.1 % 4 = 2 ∧ getF p.2 Reg.STR_CKuCTL_EN = 1 ∧ getF p.2 Reg.STR_CKuCTL_STRAND = i then
      some ((p.1 - 0xF43200) / 4)
    else none)).head?

/-- The fill of landing unit `u` is abandoned (R284): CUR unchanged, FILL cleared, ABN set. -/
def State.landAbandon (s : State) (u : Nat) : State :=
  match SMap.get none s.land u with
  | none => s
  | some _ =>
    let s := { s with land := SMap.set none s.land u none }
    (s.sf (Reg.STR_CKuSTAT u) Reg.STR_CKuSTAT_FILL 0).sf (Reg.STR_CKuSTAT u) Reg.STR_CKuSTAT_ABN 1

/-- The fill of the landing unit of strand `i`, if one is open, is abandoned. -/
def State.landBreak (s : State) (i : Nat) : State :=
  match s.landOf i with
  | some u => s.landAbandon u
  | none => s

/-- `n` items removed for their epoch are counted (R281). -/
def State.epCount (s : State) (i : Nat) : Nat → State
  | 0 => s
  | n + 1 =>
    (((s.incW Reg.STR_EPDROP).strDrop i Reg.STR_sDROP_EP).wr Reg.STR_EPLAST (w24 i)).epCount i n

/-- What an epoch removal leaves of the packets of a list that starts with a header: whole packets, and whether one was removed for a
payload item alone (R282). -/
def keepPackets (e : Nat) : Nat → List Item → List Item × Bool
  | 0, l => (l, false)
  | _, [] => ([], false)
  | n + 1, h :: r =>
    let body := r.takeWhile (fun x => !x.h)
    let x := keepPackets e n (r.dropWhile (fun x => !x.h))
    if (h :: body).any (fun y => y.e != e) then (x.1, x.2 || decide (h.e = e)) else (h :: body ++ x.1, x.2)

/-- The last packet of a list of whole packets has an item whose epoch differs (R282). -/
def lastBad (e : Nat) (l : List Item) : Bool :=
  let t := l.reverse.takeWhile (fun x => !x.h)
  (t ++ (l.reverse.drop t.length).take 1).any (fun x => x.e != e)

/-- Every item held by strand `i` is compared with the expected epoch (R281, R282): items that differ go, in packet mode with their whole
packet; a payload item of the packet being read breaks it, and ends a landing of it (R284). Every item removed is counted. -/
def State.epSweep (s : State) (i : Nat) : State :=
  let x := s.strand i
  let e := s.strExp i
  if x.items.all (fun y => y.e == e) then s
  else if s.strCfg i Reg.STR_sCFG_FMT = 0 then
    let l := x.items.filter (fun y => y.e == e)
    let first := (x.items.take 1).all (fun y => y.e == e)
    (s.setStrand i { x with items := l, atHead := x.atHead && first }).epCount i (x.items.length - l.length)
  else
    let lead := x.items.takeWhile (fun y => !y.h)
    let rest := x.items.dropWhile (fun y => !y.h)
    let k := keepPackets e 17 rest
    let bad := lead.any (fun y => y.e != e)
    let l := lead.filter (fun y => y.e == e) ++ k.1
    let first := if lead = [] then (firstPacket rest).all (fun y => y.e == e) else (lead.take 1).all (fun y => y.e == e)
    let y : Strand := { x with items := l, atHead := x.atHead && first, rdy := x.rdy && (first || decide (lead ≠ [])),
                               lost := x.lost || (x.lock.isSome && lastBad e rest) }
    let s := (s.setStrand i y).epCount i (x.items.length - l.length)
    let s := if bad && !x.discard then (s.breakPacket i).landBreak i else s
    let s := if k.2 then s.strFlag i Reg.STR_sSTAT_BRK else s
    s.judge i

/-- The first item of strand `i` reaches stage 15 (R279, R281, R282, R284): it is removed if its epoch differs, discarded if it is no header
and the strand discards until one, or if nothing takes the strand's items; otherwise it stands at the head. -/
def State.headStep (s : State) (i : Nat) : State :=
  let x := s.strand i
  match x.items with
  | [] => s
  | y :: r =>
    if x.atHead then s
    else if y.e ≠ s.strExp i then
      if s.strCfg i Reg.STR_sCFG_FMT = 0 then (s.setStrand i { x with items := r }).epCount i 1
      else if y.h then
        let n := (firstPacket x.items).length
        (s.setStrand i { x with items := x.items.drop n, lost := x.lost || (x.lock.isSome && decide (x.items.length = n)) }).epCount i n
      else
        let s := (s.setStrand i { x with items := r }).epCount i 1
        if x.discard then s else (s.breakPacket i).landBreak i
    else if x.discard && !y.h then (s.setStrand i { x with items := r }).strDrop i Reg.STR_sDROP_REF
    else if s.strCfg i Reg.STR_sCFG_DST = 2 ∧ s.landOf i = none then (s.setStrand i { x with items := r }).strDrop i Reg.STR_sDROP_REF
    else (s.setStrand i { x with atHead := true, discard := false }).judge i

/-- Items of strand `i` advance until one stands at stage 15 (R267). -/
def State.headFill (s : State) (i : Nat) : Nat → State
  | 0 => s
  | n + 1 => if (s.strand i).atHead ∨ (s.strand i).items = [] then s else (s.headStep i).headFill i n

/-- The item at stage 15 leaves strand `i`. -/
def State.takeHead (s : State) (i : Nat) : State := s.mapStrand i (fun x => { x with items := x.items.drop 1, atHead := false })

/-- What becomes of a push. -/
inductive PushRes where
  | taken | refused | full
  deriving DecidableEq, Repr

/-- The producer is one that SRC allows (R269). -/
def srcAllows (src : Nat) : Prod → Bool
  | .thread _ | .outside => src == 0
  | .queue _ => src == 1
  | .staging _ => src == 2

/-- A push into strand `i` (R271–R273, R277): taken, refused (counted in REF), or blocked by a full strand, another producer's packet or another
producer's pair. A payload item of a packet whose header has been removed is removed with it (R282). -/
def State.push (s : State) (i : Nat) (p : Prod) (w : Word) (e : Nat) : State × PushRes :=
  let x := s.strand i
  let src := s.strCfg i Reg.STR_sCFG_SRC
  let refuse := (s.strDrop i Reg.STR_sDROP_REF, PushRes.refused)
  if s.strOn i = false ∨ srcAllows src p = false ∨ (src = 0 ∧ w = blank) then refuse
  else if x.mid.isSome ∧ x.mid ≠ some p then (s, .full)
  else
    let enter := fun (h : Bool) (lock : Option (Prod × Nat)) =>
      let was := x.items.length
      let s := s.setStrand i { x with items := x.items ++ [{ w := w, e := e, h := h }], lock := lock, lost := x.lost && !h }
      let s := s.watchLevel i was (was + 1)
      let s := if s.strCfg i Reg.STR_sCFG_FMT = 0 then s.watchFire i 1 else s.judge i
      (s, PushRes.taken)
    if s.strCfg i Reg.STR_sCFG_FMT = 0 then
      if 16 ≤ x.items.length then (s, .full) else enter false x.lock
    else match x.lock with
      | none =>
        if hdrOk w = false then refuse
        else if 16 ≤ x.items.length then (s, .full)
        else enter true (if hdrLen w = 0 then none else some (p, hdrLen w))
      | some (q, n) =>
        let lock := if n ≤ 1 then none else some (q, n - 1)
        if q ≠ p ∨ 16 ≤ x.items.length then (s, .full)
        else if x.lost then ((s.setStrand i { x with lock := lock }).epCount i 1, .taken)
        else enter false lock

/-- Pushes of word stores that wait enter the strand while it can take them (R273); an item takes its epoch as it enters: a capsule's the thread
epoch, a keeper's the current epoch of descriptor 0 (R234, R280). -/
def State.pushWaiting (s : State) (i : Nat) : Nat → State
  | 0 => s
  | n + 1 =>
    match (s.strand i).waiting with
    | [] => s
    | (p, w, e) :: r =>
      match s.push i p w (match e with | some t => t | none => s.epoch 0) with
      | (_, .full) => s
      | (s, _) => (s.mapStrand i (fun x => { x with waiting := r })).pushWaiting i n

/-- After a push was taken or a lock released, stores that wait for another producer's packet to end go on (R273, R277). -/
def State.lockEnd (s : State) (i : Nat) : State := if s.strCfg i Reg.STR_sCFG_FMT = 0 then s else s.pushWaiting i 16

/-- A thread's push that found no room (R273): discarded and counted with FULLPOL 0; with FULLPOL 1 it waits. -/
def State.pushFull (s : State) (i : Nat) : State := s.strDrop i Reg.STR_sDROP_FULL

/-- The producer an accessor is. -/
def Who.prod : Who → Prod
  | .thread k => .thread k
  | _ => .outside

/-- The epoch an accessor's items carry (R234); an accessor that is no thread pushes as the keeper (log entry 12). -/
def State.whoEpoch (s : State) : Who → Nat
  | .thread k => s.itemEpoch k
  | _ => s.epoch 0

/-- What a push that starts to wait keeps of its producer's epoch: a capsule's thread epoch (R280). -/
def State.whoTep (s : State) : Who → Option Nat
  | .thread k => if (s.th k).bind.prv then none else some (s.itemEpoch k)
  | _ => none

/-- A strand window of capsule `cid` with the bit (22 PUSH, 21 POP) names strand `i` (R275). -/
def State.strandWin (s : State) (cid i bit : Nat) : Bool :=
  [12, 13, 14, 15].any (fun w => let d := s.desc cid w
    d.getLsbD 23 && d.getLsbD bit && decide (getBits d 13 5 ≤ i) && decide (i ≤ getBits d 13 5 + getBits d 4 0))

/-- The accessor may use strand `i` (R271, R275): at capsule privilege a strand window must name it. -/
def State.strandOk (s : State) (who : Who) (i bit : Nat) : Bool :=
  match who with
  | .thread k => (s.th k).bind.prv || s.strandWin (s.th k).bind.cid i bit
  | _ => true

/-- A strand access outside the windows is logged (R265 KIND 2). -/
def State.strandDeny (s : State) (who : Who) (i : Nat) : State :=
  match who with
  | .thread k => s.denyLog 2 (s.th k).bind.cid i k
  | _ => s

/-- An access at virtual address `va` outside the windows is logged, and the instruction that makes it raises PERM (R271, R275). -/
def State.strandPerm (s : State) (who : Who) (i : Nat) (kind : AccKind) (va : Word) : State :=
  let s := s.strandDeny who i
  match who with
  | .thread k => if s.isReady k then s.faultIns k (s.nextLen k) ⟨.perm, kind, 0, va⟩ else s
  | _ => s

/-- What a read of a strand port gives: a word, or a wait. -/
inductive PopRes where
  | word (w : Word)
  | wait
  deriving DecidableEq, Repr

/-- A read of the port of strand `i` (R274, R278, R279). The first item's way to stage 15 is part of the read. -/
def State.pop (s : State) (i : Nat) : State × PopRes :=
  if s.strCfg i Reg.STR_sCFG_EN = 0 ∨ s.strCfg i Reg.STR_sCFG_DST ≠ 0 then (s, .word blank)
  else
    let s := s.headFill i 17
    let x := s.strand i
    if s.strCfg i Reg.STR_sCFG_FMT = 0 then
      match x.items with
      | [] => (s, .word blank)
      | y :: _ => ((s.takeHead i).pushWaiting i 16, .word y.w)
    else if x.remain = 0 then
      match x.items with
      | [] => (s, .word blank)
      | y :: _ =>
        let n := hdrLen y.w
        let s := (s.takeHead i).mapStrand i (fun x => if n = 0 then { x with rdy := false, nread := 0 } else { x with remain := n, nread := 1 })
        ((if n = 0 then s.judge i else s).pushWaiting i 16, .word y.w)
    else
      match x.items with
      | y :: _ =>
        if y.h then
          if s.strCfg i Reg.STR_sCFG_TO = 0 then (s.breakPacket i, .word blank) else (s, .wait)
        else
          let s := (s.takeHead i).mapStrand i (fun x =>
            if x.remain ≤ 1 then { x with remain := 0, nread := 0, rdy := false } else { x with remain := x.remain - 1, nread := x.nread + 1 })
          ((if (s.strand i).remain = 0 then s.judge i else s).pushWaiting i 16, .word y.w)
      | [] => if s.strCfg i Reg.STR_sCFG_TO = 0 then (s.breakPacket i, .word blank) else (s, .wait)

/-- Every item held, every lock and every wait for one goes; nothing is counted (R270). REMAIN of the packet being read and the discarding until
a header stay (log entry 45). -/
def State.strDiscard (s : State) (i : Nat) : State :=
  (s.mapStrand i (fun x => { x with items := [], atHead := false, lock := none, rdy := x.rdy && decide (0 < x.remain) })).pushWaiting i 16

/-- A write to STR_sCFG (R270, R278, R289): FLUSH, a cleared EN, or a change of FMT, SRC or DST discards; under a new CUT the head packet is
judged again. -/
def State.strConfig (s : State) (i : Nat) (v : Word) : State :=
  let a := Reg.STR_sCFG i
  let old := s.rd a
  let new := v &&& 0xFEFF00
  let s := s.wr a new
  if v.getLsbD 16 ∨ (old.getLsbD 23 ∧ new.getLsbD 23 = false) ∨ getBits old 22 18 ≠ getBits new 22 18 then s.strDiscard i else s.judge i

/-- A write to STR_sEP (R281): PCID is written and every item held is compared with the epoch of the new producer. -/
def State.epWrite (s : State) (i : Nat) (v : Word) : State :=
  ((s.sf (Reg.STR_sEP i) Reg.STR_sEP_PCID (getF v Reg.STR_sEP_PCID)).epSweep i).pushWaiting i 16

/-- STR_sSTAT as it reads (R289). -/
def State.strStat (s : State) (i : Nat) : Word :=
  let x := s.strand i
  let flags := (s.rd (Reg.STR_sSTAT i)) &&& 0x600000
  let hrdy := if s.strCfg i Reg.STR_sCFG_FMT = 0 then decide (x.items ≠ []) else x.rdy
  flags ||| w24 (b2n x.lock.isSome * 2 ^ 23 + b2n hrdy * 2 ^ 12 + x.remain * 2 ^ 5 + x.items.length)

/-- The strands that hold items of capsule `c`'s endpoint are swept after its epoch changed (R258, R281). -/
def State.epDeliver (s : State) (c : Nat) : State :=
  ((s.str.map (fun p => p.1)).filter (fun i => decide (s.fl (Reg.STR_sEP i) Reg.STR_sEP_PCID = c))).foldl (fun s i => (s.epSweep i).pushWaiting i 16) s

/-! ### Bridge queues -/

/-- The items of bridge queue `q`. -/
def State.bqGet (s : State) (q : Nat) : List BqItem := SMap.get [] s.bq q

/-- Bridge queue `q` set. -/
def State.bqSet (s : State) (q : Nat) (l : List BqItem) : State := { s with bq := SMap.set [] s.bq q l }

/-- The island of to-fabric queue `q` (R286), numbered as in `eventIsland`. -/
def bqIsland (q : Nat) : Nat := if q < 28 then 7 else if q < 52 then 0 else 6

/-- The island's view of to-fabric queue `q` has no room for `n` words: room is counted to the full mark of 30 (R287, R288; log entry 46). A
disabled queue never fills (R286). -/
def State.bqFull (s : State) (q n : Nat) : Bool :=
  s.fb (Reg.STR_BQqCFG q) Reg.STR_BQqCFG_EN && decide (30 < (s.bqGet q).length + n)

/-- A disabled queue's items are taken and discarded uncounted, their data events raised (R286, R637). -/
def State.bqEmpty (s : State) (q : Nat) : State :=
  (s.bqGet q).foldl (fun s y => match y.ev with | some ev => s.raise ev | none => s) (s.bqSet q [])

/-- An island writes the words of an item or packet into to-fabric queue `q` (R286–R288): where it has no room for all of them they are
discarded and counted once in OVF, and the data event is raised (R637). -/
def State.bqPush (s : State) (q : Nat) (ws : List Word) (ev : Nat) : State :=
  if s.bqFull q ws.length then (s.inc (Reg.STR_BQqSTAT q) Reg.STR_BQqSTAT_OVF).raise ev
  else
    let s := if 30 < (s.bqGet q).length + ws.length then s.bqEmpty q else s
    let l := s.bqGet q
    let n := ws.length
    s.bqSet q (l ++ (List.range n).map (fun i => { w := ws.getD i 0, ev := if i + 1 = n then some ev else none }))

/-- The fabric side takes the item at the head of to-fabric queue `q` (R286, R287, R637). -/
def State.bqMove (s : State) (q : Nat) : State :=
  match s.bqGet q with
  | [] => s
  | y :: r =>
    let out := fun (s : State) => match y.ev with
      | some ev => (s.bqSet q r).raise ev
      | none => s.bqSet q r
    if s.fb (Reg.STR_BQqCFG q) Reg.STR_BQqCFG_EN = false then out s
    else
      let i := s.fl (Reg.STR_BQqCFG q) Reg.STR_BQqCFG_STRAND
      match s.push i (.queue q) y.w (s.strExp i) with
      | (_, .full) => s
      | (s, _) => (out s).lockEnd i

/-! ### Checkpoints -/

/-- The checkpoint staging buffer of engine `e` gives its first item to its strand (R148, R273, R283). -/
def State.ckptDrain (s : State) (e : Nat) : State :=
  let st := (s.en e).stag
  match st.items with
  | [] => s
  | w :: r =>
    let i := st.strand
    if s.quarantined (e / 16) ∨ s.strOn i = false ∨ s.strCfg i Reg.STR_sCFG_SRC ≠ 2 ∨ s.strCfg i Reg.STR_sCFG_FMT = 0 ∨
        s.strCfg i Reg.STR_sCFG_DST ≠ 2 then
      (s.mapEn e (fun x => { x with stag := { st with items := [] } })).strDrop i Reg.STR_sDROP_REF
    else match s.push i (.staging e) w st.epoch with
      | (_, .full) => s
      | (s, _) =>
        let s := s.mapEn e (fun x => { x with stag := { st with items := r } })
        (if r = [] then s.arrive e 6 else s).lockEnd i

/-- The first address of bank `b` of landing unit `u` (R284). -/
def State.landBase (s : State) (u b : Nat) : Nat := (s.rd (if b = 0 then Reg.STR_CKuA0 u else Reg.STR_CKuA1 u)).toNat / 2 * 2

/-- The strand that landing unit `u` lands, if the unit is enabled and is the one that takes its items. -/
def State.landStrand (s : State) (u : Nat) : Option Nat :=
  let i := s.fl (Reg.STR_CKuCTL u) Reg.STR_CKuCTL_STRAND
  if s.landOf i = some u ∧ s.strCfg i Reg.STR_sCFG_EN = 1 ∧ s.strCfg i Reg.STR_sCFG_DST = 2 then some i else none

/-- The deadline watch of pair `n` is loaded (R563). -/
def State.ckLoad (s : State) (n : Nat) : State :=
  { s with flt := { s.flt with ckAt := SMap.set none s.flt.ckAt n (some s.time.ticks) } }

/-- Every payload word is written: in one step the bank becomes current with LEN and SEQ (R284), and the deadline watches of the pairs that the
unit serves are loaded (R563). -/
def State.landDone (s : State) (u : Nat) : State :=
  match SMap.get none s.land u with
  | none => s
  | some f =>
    if f.taken < f.len then s
    else
      let s := { s with land := SMap.set none s.land u none }
      let a := Reg.STR_CKuSTAT u
      let s := s.wr a ((s.rd a &&& 1) ||| w24 (2 ^ 23 + f.bank * 2 ^ 22 + f.len * 2 ^ 15 + f.seq * 2 ^ 2))
      (s.armedPairs.filter (fun n => decide (s.fl (Reg.SP_nCAP n) Reg.SP_nCAP_UNIT = u))).foldl (fun s n => s.ckLoad n) s

/-- A header taken at stage 15 opens a checkpoint in the bank that is not current (R284); a fill whose last payload word has been written is
complete, and one still short is abandoned. -/
def State.landHeader (s : State) (u : Nat) : State :=
  match s.landStrand u with
  | none => s
  | some i =>
    let s := s.headFill i 17
    match (s.strand i).items with
    | y :: _ =>
      if y.h then
        let s := ((((s.takeHead i).pushWaiting i 16).landDone u).landAbandon u).mapStrand i (fun x => { x with rdy := false })
        let b := 1 - s.fl (Reg.STR_CKuSTAT u) Reg.STR_CKuSTAT_CUR
        let f : Landing := { bank := b, len := hdrLen y.w, seq := getBits y.w 19 7, taken := 0 }
        let base := s.landBase u b
        let s := ({ s with land := SMap.set none s.land u (some f) }).sf (Reg.STR_CKuSTAT u) Reg.STR_CKuSTAT_FILL 1
        if sramRegion base && sramRegion (base + 63) then s else s.landAbandon u
      else s
    | [] => s

/-- A checkpoint payload word that reaches stage 15 is written to its offset of the bank, charged to the reservation of STR_sEP.PCID (R284); BUS abandons the checkpoint. A word with
no fill open is discarded and counted. -/
def State.landPayload (s : State) (u : Nat) : State :=
  match s.landStrand u with
  | none => s
  | some i =>
    let s := s.headFill i 17
    match (s.strand i).items with
    | y :: _ =>
      if y.h then s
      else
        let s := (s.takeHead i).pushWaiting i 16
        match SMap.get none s.land u with
        | none => s.strDrop i Reg.STR_sDROP_REF
        | some f =>
          let a := s.landBase u f.bank + f.taken
          let s := s.ownerCharge (s.fl (Reg.STR_sEP i) Reg.STR_sEP_PCID) a
          if s.closed a then s.landAbandon u
          else { s.memWrite a y.w with land := SMap.set none s.land u (some { f with taken := f.taken + 1 }) }
    | [] => s

/-- A write to STR_CKuCTL: setting EN clears VALID (R284). -/
def State.landCtl (s : State) (u : Nat) (v : Word) : State :=
  let a := Reg.STR_CKuCTL u
  let was := s.fb a Reg.STR_CKuCTL_EN
  let s := s.wr a (v &&& 0x8001FF)
  if v.getLsbD 23 && !was then s.sf (Reg.STR_CKuSTAT u) Reg.STR_CKuSTAT_VALID 0 else s

/-! ### Commands -/

/-- R148. The checkpoint staging buffer drains an item into the thread's checkpoint strand, setting CKPTDONE when it is empty. -/
def execCkptDrain (e : Fin 128) (s : State) : Out := .next (s.ckptDrain e)

/-- R271. A store to STR_sPORT, at virtual address `va` for a capsule, pushes an item, accepted, refused, waiting or dropped; outside the
accessor's windows it is refused with PERM and logged. -/
def execStrandPush (who : Who) (i : Fin 512) (v va : BitVec 24) (s : State) : Out :=
  .next (if s.resting 4 then s
    else if s.strandOk who i 22 = false then s.strandPerm who i .store va
    else match s.push i who.prod v (s.whoEpoch who) with
      | (s, .full) =>
        if s.strCfg i Reg.STR_sCFG_FULLPOL = 1 then
          s.mapStrand i (fun x => { x with waiting := x.waiting ++ [(who.prod, v, s.whoTep who)] })
        else s.pushFull i
      | (s, _) => s.lockEnd i)

/-- R274. A load from STR_sPORT, at virtual address `va` for a capsule, pops an item into `rdata`, waits for it, or returns the blank word;
outside the accessor's windows it raises PERM and is logged. -/
def execStrandPop (who : Who) (i : Fin 512) (va : BitVec 24) (s : State) : Out :=
  .next (if s.resting 4 then s
    else if s.strandOk who i 21 = false then s.strandPerm who i .load va
    else match s.pop i with
      | (s, .word w) => { s with rdata := w }
      | (s, .wait) => s)

/-- R277. A packet lock holder silent for 2 µs loses the lock and TRUNC is set; a landing fill of the packet, whose header has
been taken, is abandoned (R284). -/
def execPacketLockTimeout (i : Fin 512) (s : State) : Out :=
  .next (if (s.strand i).lock = none then s
    else
      let s := (s.mapStrand i (fun x => { x with lock := none })).strFlag i Reg.STR_sSTAT_TRUNC
      (if (s.strand i).lost ∨ (s.strand i).items.any (fun y => y.h) then s else s.landBreak i).pushWaiting i 16)

/-- R281. An item reaching stage 15 is checked against the expected epoch and removed if it differs. -/
def execStrandItemAtHead (i : Fin 512) (s : State) : Out := .next ((s.headStep i).pushWaiting i 16)

/-- R270. A write to STR_sCFG that clears EN or changes FMT, SRC or DST discards items and locks. -/
def execStrandConfig (i : Fin 512) (v : BitVec 24) (s : State) : Out := .next (s.taking 4 (s.strConfig i v))

/-- R270. Writing STR_sCFG.FLUSH discards every item held. -/
def execStrandFlush (i : Fin 512) (s : State) : Out := .next (s.taking 4 (s.strDiscard i))

/-- R281. A write to STR_sEP.PCID loads EXP and removes held items of another epoch. -/
def execEndpointPcidWrite (i : Fin 512) (v : BitVec 24) (s : State) : Out := .next (s.taking 4 (s.epWrite i v))

/-- R284. A checkpoint header taken at stage 15 opens a fill in the non-current bank. -/
def execLandingHeader (u : Fin 64) (s : State) : Out := .next (s.taking 4 (s.landHeader u))

/-- R284. A checkpoint payload word reaching stage 15 is written to its bank offset. -/
def execLandingPayloadWrite (u : Fin 64) (s : State) : Out := .next (s.landPayload u)

/-- R284. All payload writes have completed and the bank becomes current with LEN and SEQ. -/
def execCheckpointComplete (u : Fin 64) (s : State) : Out := .next (s.landDone u)

end Sys2Proof.Machine
end

