-- ==== Sys2Proof/Machine/Timer.lean ====
section
/-!
DEFINITION. The islands' clocks (R25, R28), the time-stamp quality as a stamp takes it (R414), the timer channels and their captures
(R415–R421), and the to-fabric bridge queues as an island's clock lets them move (R288).
-/

namespace Sys2Proof.Machine

/-! ### Clocks -/

/-- The clock of an island runs (R25, R28, R523, R525): TPLL has locked, and in DOZE the island is TB or one PWR_DOZECFG keeps. In PATROL and
DORMANT none runs. With ETH_CTL.REFOUT 0 the ETH island takes the external clock on ETH_REFCLK and needs no lock; what arrives in that
island presupposes that clock, and a register access says whether it runs (`State.regRuns`). -/
def State.islandRuns (s : State) (island : Nat) : Bool :=
  (s.time.locked || (decide (island = 1) && !s.fb Reg.ETH_CTL Reg.ETH_CTL_REFOUT)) && (decide (s.pwr.state = 0) ||
    (decide (s.pwr.state = 1) && (decide (island = 0) || (s.rd Reg.PWR_DOZECFG).getLsbD (island - 1))))

/-- A happening in an island: nothing happens there while its clock stands still (R525). -/
def State.gate (s : State) (island : Nat) (t : State) : State := if s.islandRuns island then t else s

/-! ### Time-stamp quality -/

/-- The time-stamp quality in force. -/
def State.tq (s : State) : Nat := s.fl Reg.TIME_STAT Reg.TIME_STAT_TQ

/-- Device time with its extension. -/
def State.dtLong (s : State) : Nat := s.time.dtx.toNat * 2 ^ 48 + s.time.dt.toNat

/-- The code in force at tick `t`, from the changes of TQ, newest first, and the code in force now. -/
def tqFrom (t now : Nat) : List (Nat × Nat) → Nat
  | [] => now
  | (d, old) :: r => if t < d then tqFrom t old r else now

/-- The time-stamp quality in force `age` ticks ago (R414). -/
def State.tqAt (s : State) (age : Nat) : Nat := tqFrom (s.dtLong - age) s.tq s.time.hist

/-- TIME_STAT.TQ set, and its change kept for the stamps of earlier ticks (R414). -/
def State.tqSet (s : State) (tq : Nat) : State :=
  if s.tq = tq then s
  else
    let h := (s.dtLong, s.tq) :: s.time.hist.filter (fun p => decide (s.dtLong ≤ p.1 + 4096))
    ({ s with time := { s.time with hist := h } }).sf Reg.TIME_STAT Reg.TIME_STAT_TQ tq

/-! ### Captures -/

/-- Timer channel `n`. -/
def State.tc (s : State) (n : Nat) : TcSt := SMap.get TcSt.init s.time.tc n

/-- Timer channel `n` set. -/
def State.setTc (s : State) (n : Nat) (x : TcSt) : State :=
  { s with time := { s.time with tc := SMap.set TcSt.init s.time.tc n x } }

/-- A capture of channel `n` (R418). -/
def State.tcCapture (s : State) (n : Nat) : State :=
  let cfg := s.rd (Reg.TCn_CFG n)
  if getF cfg Reg.TCn_CFG_EN = 0 ∨ getF cfg Reg.TCn_CFG_CEDGE = 0 then s
  else
    let st := Reg.TCn_STAT n
    let byDt := getF cfg Reg.TCn_CFG_CAPDT = 1
    let s := s.wr (Reg.TCn_CAP n) (if byDt then pairLo s.time.dt else s.rd (Reg.TCn_CNT n))
    let s := s.setTc n { s.tc n with cap? := if byDt then some s.time.dt.toNat else none }
    let s := if s.fb st Reg.TCn_STAT_CAPV then s.sf st Reg.TCn_STAT_CAPLOST 1 else s
    ((s.sf st Reg.TCn_STAT_TQ s.tq).sf st Reg.TCn_STAT_CAPV 1).raise (0x0E0 + n)

/-- The edges that CEDGE selects at a level input (R417): bit 0 rising, bit 1 falling. -/
def State.cedge (s : State) (n : Nat) (rise : Bool) : Bool := (s.fl (Reg.TCn_CFG n) Reg.TCn_CFG_CEDGE).testBit (if rise then 0 else 1)

/-- A happening at capture input `src` is captured by every channel that selects it (R417): a change of a level input, as `rise` says, or an
event. -/
def State.capSource (s : State) (src : Nat) (rise : Option Bool) : State :=
  ((List.range 64).filter (fun n => decide (s.fl (Reg.TCn_CFG n) Reg.TCn_CFG_CSEL = src) &&
    (match rise with | some r => s.cedge n r | none => true))).foldl (fun s n => s.tcCapture n) s

/-- A happening in another island that a capture input shows is seen in TB while TB's clock runs (R417). -/
def State.capSeen (s : State) (src : Nat) (rise : Option Bool) : State := s.gate 0 (s.capSource src rise)

/-! ### Counters -/

/-- TCn_STAT.RUN and STGW follow the channel. -/
def State.tcShow (s : State) (n : Nat) : State :=
  let run := (s.tc n).run
  let stg := s.fb (Reg.TCn_CFG n) Reg.TCn_CFG_EN && s.fb (Reg.TCn_CFG n) Reg.TCn_CFG_STG && !run
  (s.sf (Reg.TCn_STAT n) Reg.TCn_STAT_RUN (b2n run)).sf (Reg.TCn_STAT n) Reg.TCn_STAT_STGW (b2n stg)

/-- A channel starts with its prescaler at phase 0 (R415). -/
def State.tcStart (s : State) (n : Nat) : State := (s.setTc n { s.tc n with run := true, phase := 0 }).tcShow n

/-- A channel stops; its counter holds. -/
def State.tcStop (s : State) (n : Nat) : State := (s.setTc n { s.tc n with run := false }).tcShow n

/-- The match of channel `n`, whose counter has become CMP in this tick (R416); the next channel captures it where it selects input 20 (R417). -/
def State.tcMatch (s : State) (n : Nat) : State :=
  let s := s.setTc n { s.tc n with due := false }
  let s := (s.sf (Reg.TCn_STAT n) Reg.TCn_STAT_CMPF 1).raise (0x0A0 + n)
  let s := s.wr (Reg.TCn_CMP n) (s.rd (Reg.TCn_CMP n) + s.rd (Reg.TCn_INT n))
  let s := if s.fb (Reg.TCn_CFG n) Reg.TCn_CFG_ONE then (s.sf (Reg.TCn_CFG n) Reg.TCn_CFG_EN 0).tcStop n else s
  let m := (n + 1) % 64
  if s.fl (Reg.TCn_CFG m) Reg.TCn_CFG_CSEL = 20 then s.tcCapture m else s

/-- A match of channel `n` that is still due is made: by its command, by whatever meets the channel next in the same tick (R421), at the
latest as the next tick begins. -/
def State.tcSettle (s : State) (n : Nat) : State := if (s.tc n).due then s.tcMatch n else s

/-- A write to TCn_CFG (R415, R421: a match of this tick is reported before). -/
def State.tcCfg (s : State) (n : Nat) (v : Word) : State :=
  let s := (s.tcSettle n).wr (Reg.TCn_CFG n) (v &&& 0xFFFEFF)
  if v.getLsbD 23 then s.tcShow n else s.tcStop n

/-- Channel `n` is frozen by the Loupe port (R420). -/
def State.tcFrozen (s : State) (n : Nat) : Bool := s.fb (Reg.TCn_CFG n) Reg.TCn_CFG_FRZ && s.frozen

/-- One TB tick of channel `n` (R415, R416). -/
def State.tcTick (s : State) (n : Nat) : State :=
  let x := s.tc n
  if !x.run || s.tcFrozen n then s
  else if x.phase < s.fl (Reg.TCn_CFG n) Reg.TCn_CFG_PRE then s.setTc n { x with phase := x.phase + 1 }
  else
    let c := s.rd (Reg.TCn_CNT n) + 1
    (s.setTc n { x with phase := 0, due := decide (c = s.rd (Reg.TCn_CMP n)) }).wr (Reg.TCn_CNT n) c

/-- The channels that the model lists. -/
def State.tcs (s : State) : List Nat := s.time.tc.map (fun p => p.1)

/-- The granularity of device time for an accessor (R138, R262): 1 tick at keeper privilege. -/
def State.granOf (s : State) : Who → Nat
  | .thread k => if (s.th k).bind.prv then 1 else s.tgran (s.th k).bind.cid
  | _ => 1

/-- A load of TCn_CAP (R418, R405): granular for a capsule where it holds device time. -/
def State.capRead (s : State) (who : Who) (n : Nat) : State × Word :=
  let w := match (s.tc n).cap? with
    | some t => w24 (t - t % s.granOf who)
    | none => s.rd (Reg.TCn_CAP n)
  (s.sf (Reg.TCn_STAT n) Reg.TCn_STAT_CAPV 0, w)

/-- The channels of the groups of a mask start together (R419). -/
def State.release (s : State) (grp : Nat) : State :=
  (List.range 64).foldl (fun s n =>
    let c := s.rd (Reg.TCn_CFG n)
    if decide (getF c Reg.TCn_CFG_EN = 1) && decide (getF c Reg.TCn_CFG_STG = 1) && !(s.tc n).run && grp.testBit (getF c Reg.TCn_CFG_GRP) then
      s.tcStart n else s) s

/-- The pending timed start set or cancelled; TIME_STAT.GPEND shows it. -/
def State.setGpend (s : State) (g : Option Nat) : State :=
  ({ s with time := { s.time with gpend := g } }).sf Reg.TIME_STAT Reg.TIME_STAT_GPEND (b2n g.isSome)

/-- A write to TIME_GSTART (R419). -/
def State.gstart (s : State) (v : Word) : State :=
  let grp := getF v Reg.TIME_GSTART_GRP
  if grp = 0 then s.setGpend none
  else if v.getLsbD 23 then s.setGpend (some grp)
  else (s.setGpend none).release grp

/-- Device time reaches the target of the pending start, under the test of R136 (R419). -/
def State.timedStart (s : State) : State :=
  match s.time.gpend with
  | none => s
  | some g =>
    if reached s.time.dt (mkPair (s.rd Reg.TIME_GSATL) (s.rd Reg.TIME_GSATH)) then (s.setGpend none).release g else s

/-- R287. The fabric side moves an item from a to-fabric bridge queue into its strand or discards it; the queue of an island whose clock stands
still keeps its items (R288). -/
def execBridgeQueueToStrand (q : Fin 64) (s : State) : Out := .next (s.gate (bqIsland q) (s.bqMove q))

end Sys2Proof.Machine
end

