-- ==== Sys2Proof/Machine/Drive.lean ====
section
/-!
DEFINITION. The output drivers in their islands: the gate-driver bridges, the valve drivers with the peak sequencer, the SSR outputs with
the zero-cross inputs (R20, R37, R384–R396). What the pins do is computed from the state (`State.phaseOut`, `State.solOut`,
`State.ssrOut`).
-/

namespace Sys2Proof.Machine

/-! ### State -/

/-- Bridge `b`. -/
def State.br (s : State) (b : Nat) : BrSt := SMap.get BrSt.init s.act.br b

/-- Bridge `b` set. -/
def State.setBr (s : State) (b : Nat) (x : BrSt) : State := { s with act := { s.act with br := SMap.set BrSt.init s.act.br b x } }

/-- Valve channel `c`. -/
def State.sol (s : State) (c : Nat) : SolSt := SMap.get SolSt.init s.act.sol c

/-- Valve channel `c` set. -/
def State.setSol (s : State) (c : Nat) (x : SolSt) : State := { s with act := { s.act with sol := SMap.set SolSt.init s.act.sol c x } }

/-- SSR output `o`. -/
def State.ssr (s : State) (o : Nat) : SsrSt := SMap.get SsrSt.init s.act.ssr o

/-- SSR output `o` set. -/
def State.setSsr (s : State) (o : Nat) (x : SsrSt) : State := { s with act := { s.act with ssr := SMap.set SsrSt.init s.act.ssr o x } }

/-- The value the driver of output `o` has taken. -/
def State.shadow (s : State) (o : Nat) : Option Word := SMap.get none s.act.sh o

/-- The TAP holds the output pins (R595): EXTEST, CLAMP or HIGHZ acts, that is, the Loupe port is not LOCKED. -/
def State.tapHolds (s : State) : Bool :=
  decide (s.fl Reg.SYS_DBG Reg.SYS_DBG_LSTATE ≠ 0) && (decide (s.lp.ir = 0) || decide (s.lp.ir = 3) || decide (s.lp.ir = 4))

/-- Output `o` is de-energised by the mixed-signal die since a heartbeat loss (R20), or by the TAP (R595; log entry 66). -/
def State.hbOff (s : State) (o : Nat) : Bool := SMap.get false s.act.hbOff o || s.tapHolds

/-! ### Bridges -/

/-- Dead time in force, in units of 1.25 ns (R386). -/
def dtClamp (d : Nat) : Nat := max 16 (min 1600 d)

/-- The high-side on-time of R385 in PWM cycles; a cap below 0 leaves no on-time. -/
def brOn (v per dt : Nat) : Nat :=
  (min (((v * per + 2 ^ 22) / 2 ^ 23 : Nat) : Int) ((per : Int) - 32 - ((dt + 4) / 5 : Nat))).toNat

/-- BR_CTL.EN of bridge `b`. -/
def State.brEn (s : State) (b : Nat) : Bool := (s.fl Reg.BR_CTL Reg.BR_CTL_EN).testBit b

/-- A phase's gates are held off as a whole (R20, R388, R390, R399). -/
def State.phaseHeld (s : State) (b p : Nat) : Bool :=
  let x := s.br b
  s.hbOff (3 * b + p) || !s.brEn b || !s.fb Reg.BR_CTL Reg.BR_CTL_VGDEN || s.fb Reg.BR_VGDSTAT Reg.BR_VGDSTAT_UVNOW || x.vgHold ||
    x.tripAll || x.tripPh.getLsbD p

/-- What a phase's gates do: both off; the low side alone as commanded; or the pattern of R385 with its on-time, cycle it begins in, and
the dead time. -/
inductive PhaseOut where
  | off
  | low (on start dt : Nat)
  | pwm (on start dt : Nat)
  deriving DecidableEq, Repr

/-- The gates of phase `p` of bridge `b` (R385, R386, R388): an on-time shorter than the dead time gives no on-pulse. -/
def State.phaseOut (s : State) (b p : Nat) : PhaseOut :=
  let x := s.br b
  match SMap.get none x.vals p with
  | none => .off
  | some v =>
    if v.msb ∨ s.phaseHeld b p then .off
    else
      let on := brOn v.toNat x.per (dtClamp x.dt)
      let start := if x.align then (x.per - on) / 2 else 0
      if x.bsHold.getLsbD p || decide (5 * on < dtClamp x.dt) then .low on start (dtClamp x.dt) else .pwm on start (dtClamp x.dt)

/-- BR_bSTAT.OFF, TRIPNOW and BR_bONp follow the bridge's state. -/
def State.brShow (s : State) (b : Nat) : State :=
  let s := (List.range 3).foldl (fun s p =>
    let s := s.sf (Reg.BR_bSTAT b) (bitF p) (b2n (decide (s.phaseOut b p = .off)))
    s.wr (Reg.BR_bONp b p) (match s.phaseOut b p with | .off => 0 | .low on _ _ | .pwm on _ _ => w24 on)) s
  let x := s.br b
  s.sf (Reg.BR_bSTAT b) Reg.BR_bSTAT_TRIPNOW (b2n (x.tripAll || decide (x.tripPh ≠ 0)))

/-- PER, ALIGN and DT of the registers come into force (R384). -/
def State.brLatch (s : State) (b : Nat) : State :=
  let c := s.rd (Reg.BR_bCFG b)
  s.setBr b { s.br b with per := max 64 (getF c Reg.BR_bCFG_PER), align := decide (getF c Reg.BR_bCFG_ALIGN = 1)
                          dt := s.fl (Reg.BR_bDT b) Reg.BR_bDT_DT }

/-- The value held for phase `p` of bridge `b` comes into force. -/
def State.brTake (s : State) (b p : Nat) : State :=
  let x := s.br b
  s.setBr b { x with vals := SMap.set none x.vals p (s.shadow (3 * b + p)) }

/-- A period boundary of bridge `b` (R384, R388, R390): the pending PER, ALIGN and DT and the shadow duties apply, the holds that last
until a boundary end, and with PEREV the event is raised. -/
def State.brBoundary (s : State) (b : Nat) : State :=
  let s := ((((s.brLatch b).brTake b 0).brTake b 1).brTake b 2).capSeen (15 + b) none
  let x := s.br b
  let now := s.fl (Reg.BR_bSTAT b) Reg.BR_bSTAT_BSTUVNOW
  let s := s.setBr b { x with tripPh := 0, vgHold := x.vgHold && s.fb Reg.BR_VGDSTAT Reg.BR_VGDSTAT_UVNOW
                              bsHold := x.bsHold &&& BitVec.ofNat 3 now }
  (s.brShow b).raiseIf (s.fb (Reg.BR_bCFG b) Reg.BR_bCFG_PEREV) (0x280 + b)

/-- The clasp's value for a phase arrives in the PWM island (R369, R385): it stands in the shadow register; an urgent one applies at once
where the bridge counts. -/
def State.brValue (s : State) (o : Nat) (v : Word) (urgent : Bool) : State :=
  let s := { s with act := { s.act with sh := SMap.set none s.act.sh o (some v) } }
  if urgent && (s.br (o / 3)).count then (s.brTake (o / 3) (o % 3)).brShow (o / 3) else s

/-- Bridge `b`'s counter starts at cycle 0, a period boundary, or stops (R384). -/
def State.brEnable (s : State) (b : Nat) (on : Bool) : State :=
  let s := s.setBr b { s.br b with count := on }
  if on then s.brBoundary b else s.brShow b

/-- A write to BR_CTL (R384, R388, R399). -/
def State.brCtl (s : State) (v : Word) : State :=
  let old := s.rd Reg.BR_CTL
  let s := s.wr Reg.BR_CTL (v &&& 0x80000F)
  let s := if v.getLsbD 23 then s else s.sf Reg.BR_VGDSTAT Reg.BR_VGDSTAT_UVNOW 0
  let s := (List.range 4).foldl (fun s b =>
    if old.getLsbD b = v.getLsbD b then s else s.brEnable b (v.getLsbD b)) s
  (List.range 4).foldl (fun s b => s.brShow b) s

/-- A write to BR_SYNC (R384): the counters named restart at cycle 0 on the same PWM cycle. -/
def State.brSync (s : State) (v : Word) : State :=
  (List.range 4).foldl (fun s b => if v.getLsbD b && (s.br b).count then s.brBoundary b else s) s

/-- A write to BR_bCFG or BR_bDT has been stored (R384): a stopped bridge has the new values at once. -/
def State.brCfg (s : State) (b : Nat) : State := if (s.br b).count then s else s.brLatch b

/-- The gain of a SHGAIN code (R389). -/
def shGain (c : Nat) : Nat := match c with | 0 => 10 | 1 => 20 | 2 => 40 | _ => 80

/-- The output in µV of a shunt amplifier of bridge `b`, from the voltage in µV across its shunt (R389). -/
def State.shuntAmp (s : State) (b : Nat) (uv : Int) : Int :=
  1500000 + (shGain (getF (s.an (Reg.BR_bCFG b)) Reg.BR_bCFG_SHGAIN) : Int) * uv

/-- A voltage of `uv` across a shunt of bridge `b` trips its phase (R390). -/
def State.overcurrent (s : State) (b : Nat) (uv : Int) : Bool :=
  let th := getF (s.an (Reg.BR_bOC b)) Reg.BR_bOC_OCTH
  decide (th ≠ 0) && decide (6000 * th < (s.shuntAmp b uv - 1500000).natAbs)

/-- A voltage of `uv` µV across the shunt of phase `p`, past the blanking after its last edge; an overcurrent trips the phase or the bridge
(R390). -/
def State.brTrip (s : State) (b p : Nat) (uv : Int) : State :=
  if s.overcurrent b uv = false then s
  else
    let x := s.br b
    let x := if s.fb (Reg.BR_bCFG b) Reg.BR_bCFG_TRIPMODE then { x with tripPh := x.tripPh ||| BitVec.ofNat 3 (2 ^ p) }
      else { x with tripAll := true }
    let s := ((s.setBr b x).sf (Reg.BR_bSTAT b) Reg.BR_bSTAT_TRIPF 1).inc (Reg.BR_bSTAT b) Reg.BR_bSTAT_TRIPCNT
    (s.brShow b).raise (0x284 + b)

/-- TRIPF is cleared by the keeper: a latched trip ends (R390). -/
def State.brTripClear (s : State) (b : Nat) : State :=
  ((s.sf (Reg.BR_bSTAT b) Reg.BR_bSTAT_TRIPF 0).setBr b { s.br b with tripAll := false }).brShow b

/-- VGD falls below 7.5 V while the check runs (R388). -/
def State.vgdLow (s : State) : State :=
  if s.fb Reg.BR_CTL Reg.BR_CTL_VGDEN && !s.fb Reg.BR_VGDSTAT Reg.BR_VGDSTAT_UVNOW then
    let s := (s.sf Reg.BR_VGDSTAT Reg.BR_VGDSTAT_UVNOW 1).sf Reg.BR_VGDSTAT Reg.BR_VGDSTAT_UVF 1
    let s := (List.range 4).foldl (fun s b => (s.setBr b { s.br b with vgHold := true }).brShow b) s
    s.raise 0x28C
  else s

/-- VGD is at 7.5 V or above again (R388): the gates follow from the next boundary. -/
def State.vgdBack (s : State) : State := s.sf Reg.BR_VGDSTAT Reg.BR_VGDSTAT_UVNOW 0

/-- The bootstrap voltage of phase `p` falls below 7.0 V (R388). -/
def State.bstLow (s : State) (b p : Nat) : State :=
  if s.fb (Reg.BR_bSTAT b) (bitF (16 + p)) then s
  else
    let s := (s.sf (Reg.BR_bSTAT b) (bitF (16 + p)) 1).sf (Reg.BR_bSTAT b) (bitF (19 + p)) 1
    let x := s.br b
    ((s.setBr b { x with bsHold := x.bsHold ||| BitVec.ofNat 3 (2 ^ p) }).brShow b).raise (0x288 + b)

/-! ### Valve drivers -/

/-- SOL_cSTAT.STATE of channel `c`. -/
def State.solState (s : State) (c : Nat) : Nat := s.fl (Reg.SOL_cSTAT c) Reg.SOL_cSTAT_STATE

/-- SOL_cSTAT.STATE set. -/
def State.setSolState (s : State) (c n : Nat) : State := s.sf (Reg.SOL_cSTAT c) Reg.SOL_cSTAT_STATE n

/-- The channels in their peak phase. -/
def State.solPeaks (s : State) : Nat := ((List.range 16).filter (fun c => decide (s.solState c = 2))).length

/-- SOL_SEQ shows the sequencer. -/
def State.solSeq (s : State) : State :=
  (s.sf Reg.SOL_SEQ Reg.SOL_SEQ_PEAKN s.solPeaks).sf Reg.SOL_SEQ Reg.SOL_SEQ_QLEN s.act.solq.length

/-- Channel `c` switches on in its peak phase (R391). -/
def State.solOn (s : State) (c : Nat) : State := ((s.setSolState c 2).setSol c { s.sol c with checked := false }).solSeq

/-- Channel `c` goes off; a queued request of it is withdrawn (R391). -/
def State.solOff (s : State) (c : Nat) : State :=
  ({ s.setSolState c 0 with act := { s.act with solq := s.act.solq.filter (fun x => x != c) } }).solSeq

/-- A peak request of channel `c` (R391, R392): refused under step 2 of the shedding ladder, granted at once where fewer than four peak and
nothing waits, else queued. -/
def State.solRequest (s : State) (c : Nat) : State :=
  if s.fb Reg.CL_SHED (bitF 0) then (s.sf (Reg.SOL_cSTAT c) Reg.SOL_cSTAT_PKREFF 1).raise 0x2D1
  else if s.solPeaks < 4 ∧ s.act.solq = [] then (s.solOn c).wr (Reg.SOL_cDLY c) 0
  else
    let s := (s.setSolState c 1).setSol c { s.sol c with since := s.time.dt.toNat }
    ({ s with act := { s.act with solq := s.act.solq ++ [c] } }).solSeq

/-- The clasp's value for a valve channel arrives (R357, R391): going from off to on it makes a peak request where EN is 1, the channel
is off and no short stands; an off value switches off. -/
def State.solValue (s : State) (c : Nat) (v : Word) : State :=
  let on := decide (0 < v.toInt)
  let was := (s.sol c).want
  let s := { s with act := { s.act with sh := SMap.set none s.act.sh (12 + c) (some v) } }
  let s := s.setSol c { s.sol c with want := on }
  if on then
    (if !was && (s.fl Reg.SOL_CTL Reg.SOL_CTL_EN).testBit c && decide (s.solState c = 0) &&
        !s.fb (Reg.SOL_cSTAT c) Reg.SOL_cSTAT_SHORTF then s.solRequest c else s)
  else s.solOff c

/-- The request at the head of the queue is granted (R392): its wait, in units of 10 µs, is recorded. -/
def State.solGrant (s : State) : State :=
  match s.act.solq with
  | [] => s
  | c :: r =>
    if 4 ≤ s.solPeaks then s
    else
      let wait := min 0xFFFF ((s.time.dt.toNat - (s.sol c).since) / 1000)
      let s := ({ s with act := { s.act with solq := r } }).solOn c
      let s := (s.incW Reg.SOL_DLYCNT).wr (Reg.SOL_cDLY c) (w24 wait)
      let s := if s.fl Reg.SOL_SEQ Reg.SOL_SEQ_QMAX < wait then s.sf Reg.SOL_SEQ Reg.SOL_SEQ_QMAX wait else s
      s.raise 0x2D0

/-- A write to SOL_CTL (R391, R400): a disabled channel goes off; an enabled one makes no request. -/
def State.solCtl (s : State) (v : Word) : State :=
  let s := s.wr Reg.SOL_CTL (v &&& 0x00FFFF)
  (List.range 16).foldl (fun s c => if v.getLsbD c ∨ s.solState c = 0 then s else s.solOff c) s

/-- At each 10 µs the mean coil current of a channel that has been on is shown (R391): what flows is a free value, and no current flows in a channel
that has been off since reset (DESIGN CHOICE, log 28). -/
def State.solMon (s : State) : State :=
  (List.range 16).foldl (fun s c =>
    if 2 ≤ s.solState c ∨ s.fl (Reg.SOL_cSTAT c) Reg.SOL_cSTAT_IMON ≠ 0 then
      let (s, w) := s.draw
      s.sf (Reg.SOL_cSTAT c) Reg.SOL_cSTAT_IMON (w.toNat % 2048)
    else s) s

/-- What a valve pin does: 0 off, 2 at the peak current, 3 at the hold current, with the current in mA (R391, R400). -/
def State.solOut (s : State) (c : Nat) : Nat × Nat :=
  if s.hbOff (12 + c) then (0, 0)
  else match s.solState c with
    | 2 => (2, 10 * min 120 (getF (s.an (Reg.SOL_cCFG c)) Reg.SOL_cCFG_IPK))
    | 3 => (3, 100 + 25 * min 12 (getF (s.an (Reg.SOL_cCFG c)) Reg.SOL_cCFG_IHOLD))
    | _ => (0, 0)

/-! ### SSR outputs -/

/-- The power fraction of a value (R357, R395): clamped to 0 to 2^23, 0x7FFFFF counting as 2^23. -/
def ssrFrac (v : Word) : Nat := if v.msb then 0 else if v = 0x7FFFFF then 2 ^ 23 else v.toNat

/-- MODE of output `o`; 3 acts as 0. -/
def State.ssrMode (s : State) (o : Nat) : Nat :=
  let m := s.fl (Reg.SSR_oCFG o) Reg.SSR_oCFG_MODE
  if m = 3 then 0 else m

/-- The zero-cross input of output `o` is LOST. -/
def State.ssrLost (s : State) (o : Nat) : Bool :=
  s.fb (Reg.SSR_ZCkSTAT (s.fl (Reg.SSR_oCFG o) Reg.SSR_oCFG_ZSEL)) Reg.SSR_ZCkSTAT_LOST

/-- SSR_CTL.EN of output `o`. -/
def State.ssrEn (s : State) (o : Nat) : Bool := (s.fl Reg.SSR_CTL Reg.SSR_CTL_EN).testBit o

/-- The output outside half-cycle starts (R395, R396): MODE 0 follows its value; MODE 1 and 2 are off while disabled, lost, or off after an
overcurrent; ZCWAIT shows a lost input. -/
def State.ssrShow (s : State) (o : Nat) : State :=
  let a := Reg.SSR_oSTAT o
  let x := s.ssr o
  if s.ssrMode o = 0 then
    (s.sf a Reg.SSR_oSTAT_ON (b2n (s.ssrEn o && decide (0 < x.v.toInt) && !x.oc && !s.hbOff (28 + o)))).sf a Reg.SSR_oSTAT_ZCWAIT 0
  else
    let wait := s.ssrEn o && s.ssrLost o
    let s := s.sf a Reg.SSR_oSTAT_ZCWAIT (b2n wait)
    if wait || !s.ssrEn o || x.oc || s.hbOff (28 + o) then (s.sf a Reg.SSR_oSTAT_ON 0).setSsr o { x with fire := none } else s

/-- A write to SSR_CTL (R395, R401): the accumulator is 0 after enabling. -/
def State.ssrCtl (s : State) (v : Word) : State :=
  let old := s.rd Reg.SSR_CTL
  let s := s.wr Reg.SSR_CTL (v &&& 0x0000FF)
  (List.range 8).foldl (fun s o =>
    let s := if v.getLsbD o && !old.getLsbD o then s.setSsr o { s.ssr o with acc := 0, acc0 := 0 } else s
    s.ssrShow o) s

/-- The zero-cross input of output `o`. -/
def State.ssrZc (s : State) (o : Nat) : Nat := s.fl (Reg.SSR_oCFG o) Reg.SSR_oCFG_ZSEL

/-- Zero-cross input `k`. -/
def State.zc (s : State) (k : Nat) : ZcSt := SMap.get ZcSt.init s.act.zc k

/-- Zero-cross input `k` set. -/
def State.setZc (s : State) (k : Nat) (z : ZcSt) : State := { s with act := { s.act with zc := SMap.set ZcSt.init s.act.zc k z } }

/-- SSR_oSTAT.ON through a phase-mode pulse, from the ticks since the half-cycle start; past its end the pulse is over. -/
def State.ssrPulse (s : State) (o : Nat) : State :=
  match (s.ssr o).fire, (s.zc (s.ssrZc o)).age with
  | some (d, pw), some t =>
    let s := s.sf (Reg.SSR_oSTAT o) Reg.SSR_oSTAT_ON (b2n (decide (100 * d ≤ t ∧ t < 100 * (d + pw)) && !s.hbOff (28 + o)))
    if 100 * (d + pw) ≤ t then s.setSsr o { s.ssr o with fire := none } else s
  | _, _ => s

/-- The decision of a half-cycle in MODE 1 or 2 from the value in force and the accumulator `acc` as the half-cycle began (R395); a half-cycle
that fires is counted once. -/
def State.ssrDecide (s : State) (o acc : Nat) : State :=
  let x := s.ssr o
  let a := Reg.SSR_oSTAT o
  let v := ssrFrac x.v
  let off := s.hbOff (28 + o) || x.oc
  let put := fun (x : SsrSt) (on fires : Bool) =>
    let hit := fires && !off
    let s := (s.setSsr o { x with acc0 := acc, hit := x.hit || hit }).sf a Reg.SSR_oSTAT_ON (b2n (on && !off))
    if hit && !x.hit then s.sf a Reg.SSR_oSTAT_HCNT (s.fl a Reg.SSR_oSTAT_HCNT + 1) else s
  if s.ssrMode o = 1 then
    (if 2 ^ 23 ≤ acc + v then put { x with acc := acc + v - 2 ^ 23, fire := none } true true
     else put { x with acc := acc + v, fire := none } false false)
  else
    let half := s.fl (Reg.SSR_ZCkSTAT (s.ssrZc o)) Reg.SSR_ZCkSTAT_HALF
    let d := (2 ^ 23 - v) * half / 2 ^ 23
    let pw := 10 * max 5 (min 100 (s.fl (Reg.SSR_oCFG o) Reg.SSR_oCFG_PW))
    if 0 < v ∧ d + pw + 200 ≤ half ∧ off = false then (put { x with fire := some (d, pw) } false true).ssrPulse o
    else put { x with fire := none } false false

/-- Output `o` takes part in half-cycles: enabled, in MODE 1 or 2, its zero-cross input not LOST (R395). -/
def State.ssrCycles (s : State) (o : Nat) : Bool := s.ssrEn o && decide (s.ssrMode o ≠ 0) && !s.ssrLost o

/-- An SSR output at a half-cycle start of its zero-cross input (R395, R396). -/
def State.ssrHalf (s : State) (o : Nat) : State :=
  let s := s.setSsr o { s.ssr o with oc := false, fire := none, hit := false }
  if s.ssrCycles o then s.ssrDecide o (s.ssr o).acc else s.ssrShow o

/-- The clasp's value for an SSR output arrives (R369, R395): MODE 0 follows it at once; MODE 1 and 2 use it from the next half-cycle
start, but an urgent value decides the half-cycle under way anew, as from its start (DESIGN CHOICE, log 60). -/
def State.ssrValue (s : State) (o : Nat) (v : Word) (urgent : Bool) : State :=
  let s := { s with act := { s.act with sh := SMap.set none s.act.sh (28 + o) (some v) } }
  let s := s.setSsr o { s.ssr o with v := v }
  if urgent && s.ssrCycles o && (s.zc (s.ssrZc o)).age.isSome then s.ssrDecide o (s.ssr o).acc0 else s.ssrShow o

/-- What an SSR pin does: open, on, or the pulse of the half-cycle as (delay, width) in µs. -/
def State.ssrOut (s : State) (o : Nat) : Bool × Option (Nat × Nat) :=
  if s.hbOff (28 + o) then (false, none) else (s.fb (Reg.SSR_oSTAT o) Reg.SSR_oSTAT_ON, (s.ssr o).fire)

/-- Zero-cross input `k` becomes LOST (R394). -/
def State.zcLost (s : State) (k : Nat) : State :=
  let a := Reg.SSR_ZCkSTAT k
  let s := s.setZc k { s.zc k with good := 0 }
  let s := if s.fb a Reg.SSR_ZCkSTAT_LOST then s
    else ((s.sf a Reg.SSR_ZCkSTAT_LOST 1).sf a Reg.SSR_ZCkSTAT_LOSTF 1).raise (0x2E0 + k)
  (List.range 8).foldl (fun s o => s.ssrShow o) s

/-- A half-cycle of zero-cross input `k` starts for each output that it leads (R394, R395). -/
def State.zcStart (s : State) (k : Nat) : State :=
  let s := s.setZc k { s.zc k with age := some 0, wait := none }
  (List.range 8).foldl (fun s o => if s.ssrZc o = k then s.ssrHalf o else s) s

/-- The ticks from an accepted edge of zero-cross input `k` to a half-cycle start, where ZOFS shifts it (R394): the one of this edge, or, where the
shift is back, of the next edge, a mean half-period on (DEDUCED, log 61). -/
def State.zcShift (s : State) (k : Nat) : Nat :=
  let o := s.fl (Reg.SSR_ZCkCFG k) Reg.SSR_ZCkCFG_ZOFS
  if o < 2048 then 100 * o else 100 * (s.fl (Reg.SSR_ZCkSTAT k) Reg.SSR_ZCkSTAT_HALF - (4096 - o))

/-- One TB tick of the zero-cross inputs and the phase-mode pulses. -/
def State.zcTick (s : State) : State :=
  if s.act.zc = [] then s
  else
    let s := (List.range 2).foldl (fun s k =>
      let z := s.zc k
      let s := s.setZc k { z with age := z.age.map (fun t => min (t + 1) 4000000) }
      match z.wait with
      | none => s
      | some n => if n ≤ 1 then s.zcStart k else s.setZc k { s.zc k with wait := some (n - 1) }) s
    (List.range 8).foldl (fun s o => s.ssrPulse o) s

/-- An accepted edge of zero-cross input `k`, `us` µs after the one before (R394): HALF is the mean of the last eight half-periods; LOST is set
by one out of 7.5 to 11.1 ms and cleared by four in a row within; the edge, shifted by ZOFS, starts a half-cycle. -/
def State.zcEdge (s : State) (k us : Nat) : State :=
  if s.fb (Reg.SSR_ZCkCFG k) Reg.SSR_ZCkCFG_EN = false then s
  else
    let s := s.capSource (9 + k) none
    let a := Reg.SSR_ZCkSTAT k
    let z := s.zc k
    let h := (us :: z.halves).take 8
    let ok := decide (7500 ≤ us) && decide (us ≤ 11100)
    let good := if ok then z.good + 1 else 0
    let s := s.setZc k { z with halves := h, good := min good 4 }
    let s := s.sf a Reg.SSR_ZCkSTAT_HALF (min 0xFFFF (h.foldl (· + ·) 0 / h.length))
    let s := if !ok then s.zcLost k
      else if s.fb a Reg.SSR_ZCkSTAT_LOST && decide (4 ≤ good) then
        (List.range 8).foldl (fun s o => s.ssrShow o) ((s.sf a Reg.SSR_ZCkSTAT_LOST 0).raise (0x2E2 + k))
      else s
    match s.zcShift k with
    | 0 => s.zcStart k
    | n => s.setZc k { s.zc k with wait := some n }

/-! ### From the clasp -/

/-- The driver of output `o` takes a value from its from-fabric queue (R356, R357). -/
def State.drvTake (s : State) (o : Nat) (v : Word) (urgent : Bool) : State :=
  if o < 12 then s.brValue o v urgent
  else if o < 28 then s.solValue (o - 12) v
  else s.ssrValue (o - 28) v urgent

/-- The mixed-signal die de-energises every output (R20). -/
def State.deenergise (s : State) : State :=
  let s := { s with act := { s.act with hbOff := (List.range 36).map (fun o => (o, true)) } }
  let s := (List.range 4).foldl (fun s b => s.brShow b) s
  (List.range 8).foldl (fun s o => s.ssrShow o) s

/-! ### Commands -/

/-- R384. A bridge reaches cycle 0 and applies its shadow duties and pending PER, ALIGN, DT. -/
def execPwmPeriodBoundary (b : Fin 4) (s : State) : Out := .next (s.gate 5 (if (s.br b).count then s.brBoundary b else s))

/-- R384. A write to BR_SYNC restarts the named bridge counters together. -/
def execBrSync (v : BitVec 24) (s : State) : Out := .next (s.gate 5 (s.brSync v))

/-- R384. Setting a BR_CTL.EN bit starts the bridge counter at a period boundary; `v` is the word written to BR_CTL. -/
def execBridgeEnable (v : BitVec 24) (s : State) : Out := .next (s.gate 5 (s.sends Reg.BR_CTL (s.brCtl v)))

/-- R390. A shunt amplifier beyond OCTH trips the bridge or phase and raises BR_TRIPb; `uv` is the voltage across the shunt in µV, signed. -/
def execOvercurrentTrip (b : Fin 4) (p : Fin 3) (uv : BitVec 24) (s : State) : Out := .next (s.gate 5 (s.brTrip b p uv.toInt))

/-- R390. Clearing TRIPF in TRIPMODE 0 releases the tripped gates. -/
def execTripfClear (b : Fin 4) (s : State) : Out := .next (s.gate 5 (s.brTripClear b))

/-- R388. VGD below 7.5 V holds every gate off and raises BR_VGDUV. -/
def execVgdUndervoltage (s : State) : Out := .next s.vgdLow

/-- R388. VGD rises back to 7.5 V or above, UVNOW clears and the gates follow their commands again from the next period boundary. -/
def execVgdRecovery (s : State) : Out := .next s.vgdBack

/-- R388. A phase's bootstrap below 7.0 V holds its high side off and raises BR_BSTUVb. -/
def execBootstrapUndervoltage (b : Fin 4) (p : Fin 3) (s : State) : Out := .next (s.gate 5 (s.bstLow b p))

/-- R388. A phase's bootstrap voltage rises back to 7.0 V or above and BSTUVNOW clears. -/
def execBootstrapRecovery (b : Fin 4) (p : Fin 3) (s : State) : Out := .next (s.gate 5 (s.sf (Reg.BR_bSTAT b) (bitF (16 + p)) 0))

/-- R392. A queued peak request is granted and the channel switches on in its peak phase. -/
def execSolPeakGrant (s : State) : Out := .next (s.gate 0 (s.solGrant))

/-- R391. A channel's TPK ends and it changes to hold current. -/
def execSolPeakEnd (c : Fin 16) (s : State) : Out :=
  .next (s.gate 0 (if s.solState c = 2 then (s.setSolState c 3).solSeq else s))

/-- R393. At 1 ms after switch-on a current below 50 mA sets OPENF and raises SOL_FAULTc; `ma` is the current in mA. -/
def execSolOpenCheck (c : Fin 16) (ma : BitVec 11) (s : State) : Out :=
  .next (s.gate 0 (if s.solState c < 2 ∨ (s.sol c).checked then s
    else
      let s := s.setSol c { s.sol c with checked := true }
      if ma.toNat < 50 then (s.sf (Reg.SOL_cSTAT c) Reg.SOL_cSTAT_OPENF 1).raise (0x2C0 + c) else s))

/-- R393. A coil current above 1.6 A switches the channel off and sets SHORTF. -/
def execSolShort (c : Fin 16) (s : State) : Out :=
  .next (s.gate 0 (if s.solState c < 2 then s else (s.solOff c).sf (Reg.SOL_cSTAT c) Reg.SOL_cSTAT_SHORTF 1))

/-- R394. An accepted zero-cross edge, `us` µs after the one before, starts a half-cycle at which SSR outputs fire. -/
def execZeroCrossEdge (k : Fin 2) (us : BitVec 16) (s : State) : Out := .next (s.gate 0 (s.zcEdge k us.toNat))

/-- R394. No accepted edge for 25 ms sets LOST and raises SSR_ZCLOSTk; a disabled input accepts none. -/
def execZeroCrossLost (k : Fin 2) (s : State) : Out := .next (s.gate 0 (s.zcLost k))

/-- R396. An SSR output sinking above 90 mA is switched off and SSR_OC raised. -/
def execSsrOc (o : Fin 8) (s : State) : Out :=
  .next (s.gate 0 (let s := (s.sf (Reg.SSR_oSTAT o) Reg.SSR_oSTAT_OCF 1).setSsr o { s.ssr o with oc := true, fire := none }
    (s.sf (Reg.SSR_oSTAT o) Reg.SSR_oSTAT_ON 0).raise 0x2E4))

/-- R396. The 1 ms off time of an SSR output in MODE 0 after an overcurrent ends and the output follows its value again. -/
def execSsrOcEnd (o : Fin 8) (s : State) : Out :=
  .next (s.gate 0 (if s.ssrMode o = 0 then (s.setSsr o { s.ssr o with oc := false }).ssrShow o else s))

end Sys2Proof.Machine
end

