-- ==== Sys2Proof/Machine/Clasp.lean ====
section
/-!
DEFINITION. The clasp (R356–R383): inlets and command packets, envelopes and sub-envelopes, the evaluation of a command, rate steps,
energy, watchdogs, urgent values, interlock rules, holds, the two table banks, the shedding ladder's actions and the refusal log.
-/

namespace Sys2Proof.Machine

/-! ### Tables -/

/-- The active bank (R378). -/
def State.clBank (s : State) : Nat := s.fl Reg.CL_BANK Reg.CL_BANK_ACT

/-- Word `w` of the envelope of output `o` in the active bank (R362). -/
def State.env (s : State) (o w : Nat) : Word := s.rd (Reg.CL_TABw (0x1000 * s.clBank + 8 * o + w))

/-- Word `w` of rule `r` in the active bank (R373). -/
def State.ruleW (s : State) (r w : Nat) : Word := s.rd (Reg.CL_TABw (0x1000 * s.clBank + 0x400 + 8 * r + w))

/-- Word `w` of sub-envelope `e` in the active bank (R371). -/
def State.subEnv (s : State) (e w : Nat) : Word := s.rd (Reg.CL_TABw (0x1000 * s.clBank + 0x800 + 4 * e + w))

/-- The bits of a table word that are fields (R362, R371, R373), by its offset within a bank. -/
def tabMask (off : Nat) : Word :=
  if off < 0x120 then (match off % 8 with | 0 => 0xFCFFFF | 6 => 0x000FFF | _ => 0xFFFFFF)
  else if 0x400 ≤ off ∧ off < 0x500 then
    (match off % 8 with | 0 => 0xF71FFF | 1 | 2 | 3 => 0xFFFFFF | 4 => 0x000FFF | _ => 0)
  else if 0x800 ≤ off ∧ off < 0xC00 then (if off % 4 = 0 then 0x800000 else 0xFFFFFF)
  else 0

/-- A keeper's write of a table word (R378): to the active bank, or while a swap is pending, it changes nothing and is counted. An
offset no table defines ignores it (R41). -/
def State.tabWrite (s : State) (w : Nat) (v : Word) : State :=
  let m := tabMask (w % 0x1000)
  if m = 0 then s
  else if w / 0x1000 = s.clBank ∨ s.fb Reg.CL_BANK Reg.CL_BANK_PEND then (s.incW Reg.CL_WREFCNT).raise 0x315
  else s.wr (Reg.CL_TABw w) (v &&& m)

/-- 0x800000 acts as 0x800001 in SAFE and ELIM (R362). -/
def notBlank (v : Word) : Word := if v = blank then 0x800001 else v

/-- The envelope of output `o` in the active bank is valid (R362). -/
def State.envV (s : State) (o : Nat) : Bool :=
  (s.env o 0).getLsbD 23 && decide ((s.env o 1).toInt ≤ (s.env o 2).toInt) && decide (s.env o 1 ≠ blank) && decide (s.env o 2 ≠ blank)

/-- SAFE of output `o`. -/
def State.envSafe (s : State) (o : Nat) : Word := notBlank (s.env o 4)

/-- ELIM of output `o`, signed. -/
def State.envElim (s : State) (o : Nat) : Int := (notBlank (s.env o 7)).toInt

/-- HGRP of output `o`. -/
def State.envGrp (s : State) (o : Nat) : Nat := getBits (s.env o 0) 21 19

/-! ### Outputs -/

/-- Output `o` is armed (R363). -/
def State.armed (s : State) (o : Nat) : Bool := if o < 24 then s.fb Reg.CL_ARM0 (bitF o) else s.fb Reg.CL_ARM1 (bitF (o - 24))

/-- The ARM bit of output `o` set or cleared. -/
def State.setArmed (s : State) (o : Nat) (b : Bool) : State :=
  if o < 24 then s.sf Reg.CL_ARM0 (bitF o) (b2n b) else s.sf Reg.CL_ARM1 (bitF (o - 24)) (b2n b)

/-- Rule `r` is tripped. -/
def State.tripped (s : State) (r : Nat) : Bool := s.fb (if r < 24 then Reg.CL_RTRIP0 else Reg.CL_RTRIP1) (bitF (r % 24))

/-- Rule `r` names output `o`. -/
def State.ruleOut (s : State) (r o : Nat) : Bool :=
  if o < 24 then (s.ruleW r 3).getLsbD o else (s.ruleW r 4).getLsbD (o - 24)

/-- A tripped rule names output `o` (R374). -/
def State.forced (s : State) (o : Nat) : Bool := (List.range 32).any (fun r => s.tripped r && s.ruleOut r o)

/-- Output `o`'s hold group is held (R376). -/
def State.heldO (s : State) (o : Nat) : Bool := (s.fl Reg.CL_HOLD Reg.CL_HOLD_HOLD).testBit (s.envGrp o)

/-- The step of the shedding ladder that acts on output `o` is in force (R379). -/
def State.shedO (s : State) (o : Nat) : Bool :=
  s.fb Reg.CL_SHED (bitF (if o < 12 then 1 else if o < 28 then 2 else 0))

/-- The released value of output `o`. -/
def State.clVal (s : State) (o : Nat) : Word := s.rd (Reg.CL_oVAL o)

/-- The target of output `o`. -/
def State.clTgt (s : State) (o : Nat) : Word := s.rd (Reg.CL_oTGT o)

/-- The energy budget of output `o` is exhausted. -/
def State.elimF (s : State) (o : Nat) : Bool := s.fb (Reg.CL_oSTAT o) Reg.CL_oSTAT_ELIMF

/-- The capsule that holds the grant of output `o`; 0 none (R370). -/
def State.clOwner (s : State) (o : Nat) : Nat :=
  match s.act.grants.find? (fun g => g.2.1 == o) with
  | some g => g.1
  | none => 0

/-- CL_oSTAT as it reads (R402). -/
def State.clStat (s : State) (o : Nat) : Word :=
  (s.rd (Reg.CL_oSTAT o) &&& 0x180000) ||| w24 (b2n (s.armed o) * 2 ^ 23 + b2n (s.heldO o) * 2 ^ 22 + b2n (s.forced o) * 2 ^ 21 +
    b2n (decide (s.clVal o ≠ s.clTgt o)) * 2 ^ 18 + s.clOwner o)

/-! ### Refusals -/

/-- A refused command (R382): counted, logged, CL_REFUSE raised. -/
def State.clRefuse (s : State) (reason cid out : Nat) : State :=
  let i := s.fl Reg.CL_LOGHEAD Reg.CL_LOGHEAD_HEAD
  let s := (s.incW Reg.CL_REFCNT).wr (Reg.CL_LOGAi i) (w24 (2 ^ 23 + reason * 2 ^ 20 + (cid % 1024) * 2 ^ 10 + out % 64))
  let s := s.wr (Reg.CL_LOGBi i) (w24 (s.dtBits 33 10))
  (s.sf Reg.CL_LOGHEAD Reg.CL_LOGHEAD_HEAD ((i + 1) % 8)).raise 0x310

/-! ### Bridge queues -/

/-- The from-fabric queue of output `o` (R356). -/
def outQueue (o : Nat) : Nat := if o < 12 then 64 + o / 3 else if o < 28 then 68 else 69

/-- The island of a from-fabric queue (R286): PWM or TB. -/
def queueIsland (q : Nat) : Nat := if q < 68 then 5 else 0

/-- A value enters the from-fabric queue of its output: the island takes it where its clock runs, and it stays in the queue otherwise. -/
def State.fqWrite (s : State) (o : Nat) (v : Word) (urgent : Bool) : State :=
  let q := outQueue o
  if s.islandRuns (queueIsland q) then s.drvTake o v urgent
  else { s with act := { s.act with fq := SMap.set [] s.act.fq q (SMap.get [] s.act.fq q ++ [(o, v, urgent)]) } }

/-- The clasp's view of from-fabric queue `q` is full (R287). -/
def State.fqFull (s : State) (q : Nat) : Bool := decide (30 ≤ (SMap.get [] s.act.fq q).length)

/-- An output leaves the groups of command packets that wait (R360, R380). -/
def State.unGroup (s : State) (o : Nat) : State :=
  { s with act := { s.act with pk := s.act.pk.map (fun p =>
      (p.1, p.2.map (fun k => { k with group := k.group.filter (fun x => x.1 != o) }))) } }

/-- Released values of outputs of one queue go to it together (R360, R380): a newer value replaces one of the same output that has not been
written; while the queue is full or older values wait all are held, urgent values before normal ones. -/
def State.clPut (s : State) (q : Nat) (g : List (Nat × Word)) (urgent : Bool) : State :=
  let s := g.foldl (fun s x => s.unGroup x.1) s
  let h := s.act.held.filter (fun x => !g.any (fun y => y.1 == x.1))
  let s := { s with act := { s.act with held := h } }
  if s.fqFull q || h.any (fun x => decide (outQueue x.1 = q)) then
    let n := g.map (fun x => (x.1, x.2, urgent))
    let h := if urgent then h.filter (fun x => x.2.2) ++ n ++ h.filter (fun x => !x.2.2) else h ++ n
    { s with act := { s.act with held := h } }
  else g.foldl (fun s x => s.fqWrite x.1 x.2 urgent) s

/-- A released value goes to its queue. -/
def State.clWrite (s : State) (o : Nat) (v : Word) (urgent : Bool) : State := s.clPut (outQueue o) [(o, v)] urgent

/-- Space appears in queue `q` (R380): what is held for it is written, for a bridge all its phases together (R360), for the others one value. -/
def State.clFlush (s : State) (q : Nat) : State :=
  if s.fqFull q then s
  else
    let l := (s.act.held.filter (fun x => decide (outQueue x.1 = q))).take (if q < 68 then 3 else 1)
    let s := { s with act := { s.act with held := s.act.held.filter (fun y => !l.any (fun x => x.1 == y.1)) } }
    l.foldl (fun s x => s.fqWrite x.1 x.2.1 x.2.2) s

/-- An island's clock restarts and its queue's items are taken (R288). -/
def State.fqDrain (s : State) (q : Nat) : State :=
  let l := SMap.get [] s.act.fq q
  let s := { s with act := { s.act with fq := SMap.set [] s.act.fq q [] } }
  l.foldl (fun s x => s.drvTake x.1 x.2.1 x.2.2) s

/-! ### Values -/

/-- The watchdog of output `o` counts again (R368). -/
def State.wdStart (s : State) (o : Nat) : State := { s with act := { s.act with wdx := SMap.set false s.act.wdx o false } }

/-- An urgent value (R369): it becomes the released value, and the target but for a held output that a rule forces (R381), and is written
before any normal value of the output. -/
def State.urgent (s : State) (o : Nat) (v : Word) (keepTgt : Bool) : State :=
  let s := s.wr (Reg.CL_oVAL o) v
  let s := if keepTgt then s else s.wr (Reg.CL_oTGT o) v
  let s := { s with act := { s.act with rsub := SMap.set none s.act.rsub o none } }
  s.clWrite o v true

/-- Phase off for a bridge, off for the others (R357). -/
def outOff (o : Nat) : Word := if o < 12 then 0xFFFFFF else 0

/-- One rate step from `x` toward `v`, by at most `r`; 0 is no limit (R366). -/
def rateStep (x v : Int) (r : Nat) : Int :=
  if r = 0 then v else x + max (-(r : Int)) (min (r : Int) (v - x))

/-- The rate limit of a command of sub-envelope `sub` for output `o` (R366): the smaller nonzero of RATE and SRATE. -/
def State.rateOf (s : State) (o : Nat) (sub : Option Nat) : Nat :=
  let r := (s.env o 3).toNat
  match sub with
  | none => r
  | some e =>
    let q := (s.subEnv e 3).toNat
    if r = 0 then q else if q = 0 then r else min r q

/-- What output `o` moves toward: its target, limited to ELIM while the budget is exhausted (R367). Under a step of the shedding ladder a
phase that is on goes to 0, whatever its target, and any other output stays as it is (R379). -/
def State.clGoal (s : State) (o : Nat) : Int :=
  if s.shedO o then (if o < 12 ∧ 0 ≤ (s.clVal o).toInt then 0 else (s.clVal o).toInt)
  else if s.elimF o then min (s.clTgt o).toInt (s.envElim o) else (s.clTgt o).toInt

/-- One step of the released value toward the goal, written to the driver (R366). -/
def State.clMove (s : State) (o : Nat) : State :=
  let x := i24 (rateStep (s.clVal o).toInt (s.clGoal o) (s.rateOf o (SMap.get none s.act.rsub o)))
  (s.wr (Reg.CL_oVAL o) x).clWrite o x false

/-- The target is released as a new command (R367, R377): the watchdog restarts. -/
def State.releaseTgt (s : State) (o : Nat) : State := ((s.wdStart o).sf (Reg.CL_oSTAT o) Reg.CL_oSTAT_WDOGF 0).clMove o

/-! ### Banks -/

/-- A bank swap (R378): ACT changes, PEND clears, CL_SWAP is raised. An armed output whose new envelope is invalid is disarmed and
de-energised (R363); a disarmed one is held at the new SAFE, or de-energised where it has no valid envelope (R358). The rules' runs of
updates begin anew with the new bank's conditions; that a run toward a trip does is DEDUCED (log 62). -/
def State.clSwap (s : State) : State :=
  if s.fb Reg.CL_BANK Reg.CL_BANK_PEND = false then s
  else
    let was := (List.range 36).filter (fun o => s.envV o)
    let s := (s.sf Reg.CL_BANK Reg.CL_BANK_ACT (1 - s.clBank)).sf Reg.CL_BANK Reg.CL_BANK_PEND 0
    let s := (List.range 36).foldl (fun s o =>
      if s.envV o then (if s.armed o then s else s.urgent o (s.envSafe o) false)
      else if s.armed o || was.contains o then (s.setArmed o false).urgent o (outOff o) false
      else s) s
    let anew := s.act.rules.map (fun (p : Nat × RuleSt) => (p.1, { p.2 with trun := 0, rrun := 0 }))
    let s := { s with act := { s.act with rules := anew.filter (fun p => decide (p.2 ≠ RuleSt.init)) } }
    s.raise 0x314

/-! ### Holds -/

/-- A group's hold ends (R377): the target of each of its outputs is released as a new command and its watchdog restarts; a forced output stays at
its value, a shed one with what the ladder made of it (R379). -/
def State.holdEnd (s : State) (j : Nat) : State :=
  let s := s.sf Reg.CL_HOLD (bitF j) 0
  (List.range 36).foldl (fun s o =>
    if s.envGrp o = j && s.armed o then
      (if s.forced o then s.wr (Reg.CL_oTGT o) (s.clVal o) else if s.shedO o then s.wdStart o else s.releaseTgt o)
    else s) s

/-- A group is held (R376). -/
def State.holdSet (s : State) (j : Nat) : State := s.sf Reg.CL_HOLD (bitF j) 1

/-- A keeper's write to CL_HOLD: HTO bits cleared by 1, holds begun and ended. -/
def State.holdWrite (s : State) (v : Word) : State :=
  let old := s.rd Reg.CL_HOLD
  let s := s.wr Reg.CL_HOLD (old &&& ~~~ (v &&& 0x00FF00))
  (List.range 8).foldl (fun s j =>
    if v.getLsbD j && !old.getLsbD j then s.holdSet j else if !v.getLsbD j && old.getLsbD j then s.holdEnd j else s) s

/-- A hold reaches HOLDT (R377): its outputs take SAFE as an urgent value. -/
def State.holdExpire (s : State) (j : Nat) : State :=
  if s.fb Reg.CL_HOLD (bitF j) = false then s
  else
    let s := (s.sf Reg.CL_HOLD (bitF j) 0).sf Reg.CL_HOLD (bitF (8 + j)) 1
    let s := (List.range 36).foldl (fun s o =>
      if s.envGrp o = j && s.armed o then (s.urgent o (s.envSafe o) false).wdStart o else s) s
    s.raise 0x313

/-! ### Evaluation -/

/-- The sub-envelope of capsule `cid`'s grant for output `o`. -/
def State.grantOf (s : State) (cid o : Nat) : Option Nat :=
  (s.act.grants.find? (fun g => g.1 == cid && g.2.1 == o)).map (fun g => g.2.2)

/-- A value bounded by the envelope and, for a capsule, its sub-envelope; an empty range gives MIN (R364, R371). -/
def State.clamp (s : State) (o : Nat) (sub : Option Nat) (w : Int) : Int :=
  let mn := (s.env o 1).toInt
  let mx := (s.env o 2).toInt
  match sub with
  | none => max mn (min mx w)
  | some e =>
    let lo := max mn (s.subEnv e 1).toInt
    let hi := min mx (s.subEnv e 2).toInt
    if hi < lo then mn else max lo (min hi w)

/-- Why a command is refused at steps 1 to 3 of R364, if it is. -/
def State.clCheck (s : State) (cid o : Nat) (w : Word) (late : Bool) : Option Nat :=
  let grant := s.grantOf cid o
  if w = blank then some 4
  else if cid ≠ 0 ∧ (grant = none ∨ (s.env o 0).getLsbD 22 = false ∨ (s.subEnv (grant.getD 0) 0).getLsbD 23 = false) then some 0
  else if 35 < o then some 2
  else if s.armed o = false then some 1
  else if s.forced o then some 3
  else if s.shedO o then some 5
  else if late then some 6
  else none

/-- One command evaluated (R364, R366, R376). `late`: the producer's epoch changed while it was in steps 2 to 8 (R381). The value
to write to the bridge queue, if the command is released. What steps 4 to 7 make of a held output's command is stored as its target only; where
the command ends the hold, its own output's released value counts for CL_LIMCNT. -/
def State.clEval (s : State) (cid o : Nat) (w : Word) (late : Bool) : State × Option Word :=
  match s.clCheck cid o w late with
  | some r => (s.clRefuse r cid o, none)
  | none =>
    let sub := if cid = 0 then none else s.grantOf cid o
    let v := s.clamp o sub w.toInt
    let held := s.heldO o
    let s := s.wr (Reg.CL_oTGT o) (i24 v)
    let s := { s with act := { s.act with rsub := SMap.set none s.act.rsub o sub } }
    let x := i24 (rateStep (s.clVal o).toInt (s.clGoal o) (s.rateOf o sub))
    if held then
      let j := s.envGrp o
      let s := s.wr (Reg.CL_oTGT o) x
      if s.fb (Reg.CL_HGRPj j) Reg.CL_HGRPj_RELCMD then
        let s := s.holdEnd j
        (if s.clVal o = w then s else s.incW Reg.CL_LIMCNT, none)
      else (s, none)
    else
      let s := (s.wr (Reg.CL_oVAL o) x).sf (Reg.CL_oSTAT o) Reg.CL_oSTAT_WDOGF 0
      let s := if x = w then s else s.incW Reg.CL_LIMCNT
      (s.wdStart o, some x)

/-- A command on its own: evaluated and its released value written. -/
def State.clCommand (s : State) (cid o : Nat) (w : Word) (late : Bool) : State :=
  match s.clSwap.clEval cid o w late with
  | (s, some x) => s.clWrite o x false
  | (s, none) => s

/-- The values a packet has released to bridge phases are written as one group (R360). -/
def State.clGroup (s : State) (i : Nat) : State :=
  match SMap.get none s.act.pk i with
  | none => s
  | some k =>
    let s := { s with act := { s.act with pk := SMap.set none s.act.pk i none } }
    (List.range 4).foldl (fun s b =>
      match k.group.filter (fun x => decide (x.1 / 3 = b)) with
      | [] => s
      | g => s.clPut (64 + b) g false) s

/-! ### Inlets -/

/-- The inlet that takes the items of strand `i`: the lowest enabled one that names it (R359). -/
def State.inletOf (s : State) (i : Nat) : Option Nat :=
  (s.regs.filterMap (fun p =>
    if 0xF28040 ≤ p.1 ∧ p.1 < 0xF28080 ∧ getF p.2 Reg.CL_INi_EN = 1 ∧ getF p.2 Reg.CL_INi_STRAND = i then some (p.1 - 0xF28040)
    else none)).head?

/-- Inlet `n` holds an item at stage 15 of its strand (R359). -/
def State.inletHolds (s : State) (n : Nat) : Bool :=
  let i := s.fl (Reg.CL_INi n) Reg.CL_INi_STRAND
  s.fb (Reg.CL_INi n) Reg.CL_INi_EN && decide (s.inletOf i = some n) && decide (s.strCfg i Reg.STR_sCFG_EN = 1) &&
    decide (s.strCfg i Reg.STR_sCFG_DST = 1) && (s.strand i).rdy && decide ((s.strand i).items ≠ [])

/-- In round-robin order no inlet that holds an item comes between the one served last and inlet `n` (R359). -/
def State.inletTurn (s : State) (n : Nat) : Bool :=
  !(List.range ((n + 63 - s.act.inlet) % 64)).any (fun d => s.inletHolds ((s.act.inlet + 1 + d) % 64))

/-- The strand's inlet, if it has one, is next in turn. -/
def State.inletMay (s : State) (i : Nat) : Bool := match s.inletOf i with | none => true | some n => s.inletTurn n

/-- A keeper's write to CL_INi (R359, R360): an inlet that is disabled or names another strand has no packet open any more; what the packet has
released is written. -/
def State.inletWrite (s : State) (n : Nat) (t : State) : State :=
  let a := Reg.CL_INi n
  if t.fb a Reg.CL_INi_EN && decide (t.fl a Reg.CL_INi_STRAND = s.fl a Reg.CL_INi_STRAND) then t else t.clGroup n

/-- The item at stage 15 of strand `i` is served by the clasp (R359, R360), where its inlet's turn has come. -/
def State.clServe (s : State) (i : Nat) (late : Bool) : State :=
  if s.strCfg i Reg.STR_sCFG_EN = 0 ∨ s.strCfg i Reg.STR_sCFG_DST ≠ 1 ∨ s.inletMay i = false then s
  else
    let s := s.headFill i 17
    match (s.strand i).items with
    | [] => s
    | y :: _ =>
      let s := ((s.takeHead i).mapStrand i (fun x => { x with rdy := false })).pushWaiting i 16
      match s.inletOf i with
      | none => s.strDrop i Reg.STR_sDROP_REF
      | some n =>
        let s := { s with act := { s.act with inlet := n } }
        let cid := s.fl (Reg.STR_sEP i) Reg.STR_sEP_PCID
        if s.strCfg i Reg.STR_sCFG_FMT = 0 then s.clCommand cid (s.fl (Reg.CL_INi n) Reg.CL_INi_OUT) y.w late
        else if y.h then
          let s := s.clGroup n
          let f := getBits y.w 19 14
          let len := hdrLen y.w
          let bad := decide (getBits y.w 22 20 ≠ 4 ∨ len = 0 ∨ 8 < len ∨ getBits y.w 13 7 ≠ 0 ∨ 36 < f + len)
          let s := if bad then s.clRefuse 4 cid f else s
          if len = 0 then s
          else { s with act := { s.act with
                  pk := SMap.set none s.act.pk n (some { first := f, len := len, got := 0, bad := bad, group := [] }) } }
        else match SMap.get none s.act.pk n with
          | none => s.clRefuse 4 cid 0x3F
          | some k =>
            let o := k.first + k.got
            let r : State × Option Word := if k.bad then (s, none) else s.clSwap.clEval cid o y.w late
            let s := r.1
            let k : ClPacket := { (SMap.get none s.act.pk n).getD k with got := k.got + 1 }
            let put : State × List (Nat × Word) := match r.2 with
              | some x => if o < 12 then (s, k.group.filter (fun z => z.1 != o) ++ [(o, x)]) else (s.clWrite o x false, k.group)
              | none => (s, k.group)
            let s := put.1
            let s := { s with act := { s.act with pk := SMap.set none s.act.pk n (some { k with group := put.2 }) } }
            if k.len ≤ k.got then s.clGroup n else s

/-! ### Arming -/

/-- A keeper's write of 1 to the bit of output `o` (R363): an unarmed output is armed at SAFE where TPLL has locked and the envelope is
valid; the mixed-signal die lets it go (R20). -/
def State.arm (s : State) (o : Nat) : State :=
  if s.armed o || !s.time.locked || !s.envV o then s
  else
    let s := (s.setArmed o true).wdStart o
    let s := if s.flt.hb.isNone then { s with act := { s.act with hbOff := SMap.set false s.act.hbOff o false } } else s
    let v := s.envSafe o
    ((s.wr (Reg.CL_oVAL o) v).wr (Reg.CL_oTGT o) v).clWrite o v false

/-- Output `o` is disarmed (R358, R363): SAFE as an urgent value. -/
def State.disarm (s : State) (o : Nat) : State :=
  if s.armed o then (s.setArmed o false).urgent o (s.envSafe o) false else s

/-- A keeper's write to CL_ARM0 (`base` 0) or CL_ARM1 (`base` 24). -/
def State.armWrite (s : State) (base : Nat) (v : Word) : State :=
  (List.range (if base = 0 then 24 else 12)).foldl (fun s i =>
    if v.getLsbD i then s.arm (base + i) else s.disarm (base + i)) s

/-! ### Ticks -/

/-- EMAX of output `o` is exceeded by its integral, or the integral has fallen far enough (R367). -/
def State.eInt (s : State) (o : Nat) : Nat := ((SMap.get Energy.init s.act.energy o).bins).foldl (· + ·) 0

/-- The energy accumulation of output `o` at a 100 µs boundary, `n` bin boundaries after the last one (R367). -/
def State.clEnergy (s : State) (o n : Nat) : State :=
  let x := SMap.get Energy.init s.act.energy o
  let bins := (List.replicate (min n 16) 0 ++ x.bins).take 16
  let q := (max (s.clVal o).toInt 0).toNat * 16 + x.rem
  let bins := (match bins with | [] => [q / 2 ^ 23] | b :: r => (b + q / 2 ^ 23) :: r)
  let bins := if bins.all (fun b => b == 0) then [] else bins
  let s := { s with act := { s.act with energy := SMap.set Energy.init s.act.energy o { bins := bins, rem := q % 2 ^ 23 } } }
  let i := s.eInt o
  let s := s.wr (Reg.CL_oEINT o) (w24 (min i 0xFFFFFF))
  let emax := (s.env o 5).toNat
  if s.elimF o && decide (emax = 0 ∨ 8 * i ≤ 7 * emax) then
    let s := s.sf (Reg.CL_oSTAT o) Reg.CL_oSTAT_ELIMF 0
    if s.armed o && !s.heldO o && !s.forced o && !s.shedO o then s.releaseTgt o else s
  else s

/-- One tick of the clasp (R365–R367, R379): a rate step of every armed output that is not held, and at a 100 µs boundary the energy
accumulation. A phase that the ladder has brought to 0 is switched off. -/
def State.clTick (s : State) : State :=
  if s.time.locked = false then s
  else
    let s := s.clSwap
    let now := s.time.dt.toNat
    let was := s.act.eDt
    let s := if now / 1000 % 10 = 0 then
        let s := (List.range 36).foldl (fun s o =>
          let b := 100000 * max 1 (getBits (s.env o 6) 11 0)
          s.clEnergy o (now / b - was / b)) s
        { s with act := { s.act with eDt := now } }
      else s
    (List.range 36).foldl (fun s o =>
      if s.armed o && !s.heldO o && !s.forced o then
        let s := if decide ((s.clVal o).toInt ≠ s.clGoal o) then s.clMove o else s
        if decide (o < 12) && s.shedO o && decide (s.clVal o = 0 ∧ s.clTgt o = 0) then s.urgent o 0xFFFFFF false else s
      else s) s

/-- The refresh watchdog of output `o` expires (R368). -/
def State.wdExpire (s : State) (o : Nat) : State :=
  if s.armed o && !s.heldO o && !s.forced o && decide (getBits (s.env o 0) 15 0 ≠ 0) && !SMap.get false s.act.wdx o then
    let s := (s.urgent o (s.envSafe o) false).sf (Reg.CL_oSTAT o) Reg.CL_oSTAT_WDOGF 1
    ({ s with act := { s.act with wdx := SMap.set false s.act.wdx o true } }).raise 0x311
  else s

/-- The energy integral of output `o` reaches EMAX (R367). -/
def State.energyLimit (s : State) (o : Nat) : State :=
  let emax := (s.env o 5).toNat
  if emax = 0 ∨ s.elimF o ∨ s.eInt o < emax then s
  else
    let s := s.sf (Reg.CL_oSTAT o) Reg.CL_oSTAT_ELIMF 1
    let s := if s.armed o && !s.heldO o && !s.forced o then
        let x := i24 (min (s.clGoal o) (s.envElim o))
        (s.wr (Reg.CL_oVAL o) x).clWrite o x false
      else s
    s.raise 0x312

/-! ### Interlock rules -/

/-- Rule `r`'s state. -/
def State.rule (s : State) (r : Nat) : RuleSt := SMap.get RuleSt.init s.act.rules r

/-- Rule `r`'s state set. -/
def State.setRule (s : State) (r : Nat) (x : RuleSt) : State :=
  { s with act := { s.act with rules := SMap.set RuleSt.init s.act.rules r x } }

/-- PERS of rule `r`; 0 acts as 1. -/
def State.pers (s : State) (r : Nat) : Nat := max 1 (getBits (s.ruleW r 0) 7 0)

/-- A result of a measurement block reaches the clasp (R372): source type `srct`, number `n`, the value and whether its quality is bad.
Every rule of that source counts it (R373, R374). -/
def State.clMeas (s : State) (srct n : Nat) (v : Word) (bad : Bool) : State :=
  (List.range 32).foldl (fun s r =>
    let w := s.ruleW r 0
    if getBits w 18 16 = srct ∧ getBits w 12 8 = n ∧ (w.getLsbD 23 ∨ s.tripped r) then
      let val := fun (x : Word) => if srct = 1 then ((getBits x 11 0 : Nat) : Int) else x.toInt
      let t := val (s.ruleW r 1)
      let q := val (s.ruleW r 2)
      let x := val v
      let trip := (w.getLsbD 21 && bad) || (if w.getLsbD 20 then decide (x < t) else decide (t < x))
      let rel := !bad && (if w.getLsbD 20 then decide (q ≤ x) else decide (x ≤ q))
      let k := s.rule r
      let tr := if trip then min 255 (k.trun + 1) else 0
      let rr := if rel then min 255 (k.rrun + 1) else 0
      s.setRule r { trun := tr, rrun := rr, due := k.due || (decide (s.pers r ≤ tr) && !s.tripped r) }
    else s) s

/-- CL_RTRIPk or CL_RLATk's bit of rule `r`. -/
def ruleBit (a0 r : Nat) : Nat × Fld := (a0 + r / 24, bitF (r % 24))

/-- A rule trips (R374): its bits are set, every output it names takes SAFE as an urgent value, and CL_TRIPr is raised. A disarmed output with no
valid envelope stays de-energised (R358). -/
def State.ruleTrip (s : State) (r : Nat) : State :=
  if (s.rule r).due = false ∨ s.tripped r then s
  else
    let s := s.setRule r { s.rule r with due := false }
    let s := s.sf (ruleBit Reg.CL_RTRIP0 r).1 (ruleBit Reg.CL_RTRIP0 r).2 1
    let s := if (s.ruleW r 0).getLsbD 22 then s.sf (ruleBit Reg.CL_RLAT0 r).1 (ruleBit Reg.CL_RLAT0 r).2 1 else s
    let s := (List.range 36).foldl (fun s o => if s.ruleOut r o && (s.armed o || s.envV o) then s.urgent o (s.envSafe o) (s.heldO o) else s) s
    s.raise (0x2F0 + r)

/-- A rule's release condition has been met PERS times in a row. -/
def State.ruleReleased (s : State) (r : Nat) : Bool := decide (s.pers r ≤ (s.rule r).rrun)

/-- A tripped rule releases (R374): after PERS updates that meet its release condition and, with LATCH, the clearing of its CL_RLATk bit.
Its outputs stay at SAFE and their watchdogs count again (R368). -/
def State.ruleRelease (s : State) (r : Nat) : State :=
  let lat := s.fb (ruleBit Reg.CL_RLAT0 r).1 (ruleBit Reg.CL_RLAT0 r).2
  if s.tripped r && s.ruleReleased r && !((s.ruleW r 0).getLsbD 22 && lat) then
    let s := (s.sf (ruleBit Reg.CL_RTRIP0 r).1 (ruleBit Reg.CL_RTRIP0 r).2 0).setRule r RuleSt.init
    (List.range 36).foldl (fun s o => if s.ruleOut r o && !s.forced o then s.wdStart o else s) s
  else s

/-- A keeper's W1C write to CL_RLATk (R374): it clears the bit of a rule whose release condition holds, and nothing else. -/
def State.latClear (s : State) (k : Nat) (v : Word) : State :=
  (List.range 24).foldl (fun s i =>
    let r := 24 * k + i
    if v.getLsbD i && decide (r < 32) && (s.ruleReleased r || !s.tripped r) then s.sf (Reg.CL_RLAT0 + k) (bitF i) 0 else s) s

/-! ### The shedding ladder -/

/-- Ladder step 2, 3 or 4 comes into force in the clasp (R379). -/
def State.clShed (s : State) (step : Nat) : State :=
  let s := s.sf Reg.CL_SHED (bitF (step - 2)) 1
  (List.range 36).foldl (fun s o =>
    let acts := s.shedO o && !s.forced o && (s.armed o || s.envV o)
    if step = 2 ∧ 28 ≤ o ∧ acts then s.urgent o 0 false
    else if step = 4 ∧ 12 ≤ o ∧ o < 28 ∧ acts then s.urgent o (s.envSafe o) false
    else if step = 3 ∧ o < 12 ∧ acts ∧ (s.armed o ∨ (s.clVal o).msb = false) then
      (if s.armed o && decide (s.env o 3 ≠ 0) && !(s.clVal o).msb then
        ({ s.wr (Reg.CL_oTGT o) 0 with act := { s.act with rsub := SMap.set none s.act.rsub o none } })
      else s.urgent o 0xFFFFFF false)
    else s) s

/-- Ladder step 2, 3 or 4 is left (R379): its outputs stay where it left them. -/
def State.clUnshed (s : State) (step : Nat) : State :=
  let s := (List.range 36).foldl (fun s o =>
    if s.armed o && s.shedO o && decide ((if o < 12 then 3 else if o < 28 then 4 else 2) = step) then s.wr (Reg.CL_oTGT o) (s.clVal o) else s) s
  s.sf Reg.CL_SHED (bitF (step - 2)) 0

/-! ### Grants -/

/-- The grants of a descriptor being loaded are accepted (R370). -/
def State.grantsOk (s : State) (cid : Nat) (gs : List (Nat × Nat)) : Bool :=
  gs.all (fun g => decide (g.1 ≤ 35) && (s.env g.1 0).getLsbD 22 && (s.subEnv g.2 0).getLsbD 23 &&
    !s.act.grants.any (fun x => x.1 != cid && x.2.1 == g.1)) &&
  decide ((gs.map (fun g => g.1)).Nodup) &&
  decide ((s.act.grants.filter (fun x => x.1 != cid)).length + gs.length ≤ 256)

/-- A capsule's grants are replaced in one step; CL_GCNT follows (R370). -/
def State.setGrants (s : State) (cid : Nat) (gs : List (Nat × Nat)) : State :=
  let l := s.act.grants.filter (fun x => x.1 != cid) ++ gs.map (fun g => (cid, g.1, g.2))
  ({ s with act := { s.act with grants := l } }).sf Reg.CL_GCNT Reg.CL_GCNT_COUNT l.length

/-! ### Heartbeat -/

/-- The heartbeat resumes after a loss (R20, R383, R560): every ARM bit is cleared, CL_DISARM raised, and outside a power-state transition
the loss is logged with its duration in µs. -/
def State.hbResume (s : State) (expected : Bool) : State :=
  match s.flt.hb with
  | none => s
  | some t0 =>
    let us := (s.time.dt.toNat - t0) / 100
    let s := { s with flt := { s.flt with hb := none } }
    let s := ((List.range 36).foldl (fun s o => s.disarm o) s).raise 0x316
    if expected then s
    else (s.faultLog 6 0x1FF 0 (w24 (min us 0xFFFFFF))).inc Reg.FLT_CNT0 Reg.FLT_CNT0_HB

/-! ### Commands -/

/-- R364. An item taken at an inlet is decoded and each command evaluated, refused or released; `late`: the producer's epoch changes
while a command is in steps 2 to 8 (R381). -/
def execClaspCommand (i : Fin 512) (late : Bool) (s : State) : Out := .next (s.taking 2 (s.clServe i late))

/-- R361. A store to CL_KOUT/CL_KVAL submits a keeper command to the clasp: `out` is the output where a pair store writes CL_KOUT too. -/
def execKeeperCommand (out : Option (BitVec 6)) (v : BitVec 24) (s : State) : Out :=
  .next (s.taking 2 (let s := match out with | some o => s.wr Reg.CL_KOUT (o.zeroExtend 24) | none => s
    (s.wr Reg.CL_KVAL v).clCommand 0 (s.fl Reg.CL_KOUT Reg.CL_KOUT_OUT) v false))

/-- R365. At each 10 µs boundary the clasp makes rate steps and, every 100 µs, energy accumulation for armed outputs. -/
def execClaspTick (s : State) : Out := .next s.clTick

/-- R368. An output without a committed command for RWD × RUNIT takes SAFE and raises CL_WDOG. -/
def execRefreshWatchdogExpiry (o : Fin 36) (s : State) : Out := .next (s.wdExpire o)

/-- R367. The energy integral reaches EMAX, ELIMF is set and the output limited to ELIM. -/
def execEnergyLimit (o : Fin 36) (s : State) : Out := .next (s.energyLimit o)

/-- R363. Writing 1 to an unarmed output's CL_ARM bit arms it at SAFE if its envelope is valid. -/
def execArm (o : Fin 36) (s : State) : Out := .next (s.taking 2 (s.arm o))

/-- R363. Writing 0 to an output's CL_ARM bit disarms it to SAFE as an urgent value. -/
def execDisarm (o : Fin 36) (s : State) : Out := .next (s.taking 2 (s.disarm o))

/-- R374. A rule meets its trip condition PERS times and forces its outputs to SAFE. -/
def execRuleTrip (r : Fin 32) (s : State) : Out := .next (s.ruleTrip r)

/-- R374. A rule meets its release condition PERS times, and its latch is clear, and releases. -/
def execRuleRelease (r : Fin 32) (s : State) : Out := .next (s.ruleRelease r)

/-- R376. Setting a CL_HOLD bit holds a group's outputs. -/
def execClaspHoldSet (j : Fin 8) (s : State) : Out := .next (s.taking 2 (s.holdSet j))

/-- R377. A hold ends by keeper write or first committed command, releasing the targets. -/
def execClaspHoldRelease (j : Fin 8) (s : State) : Out :=
  .next (s.taking 2 (if s.fb Reg.CL_HOLD (bitF j) then s.holdEnd j else s))

/-- R377. A hold reaches HOLDT, outputs take SAFE and CL_HOLDTO is raised. -/
def execClaspHoldTimeout (j : Fin 8) (s : State) : Out := .next (s.holdExpire j)

/-- R378. Writing CL_BANK.SWAP requests a table bank swap. -/
def execClaspSwapRequest (s : State) : Out := .next (s.taking 2 (s.sf Reg.CL_BANK Reg.CL_BANK_PEND 1))

/-- R378. The first evaluation or tick after the request uses the other bank and CL_SWAP is raised. -/
def execClaspSwap (s : State) : Out := .next s.clSwap

/-- R378. A write to the active or pending bank is refused and counted; `w` is the table word, `v` the value written. -/
def execClaspWref (w : Fin 7168) (v : BitVec 24) (s : State) : Out := .next (s.taking 2 (s.tabWrite w v))

/-- R380. A held clasp value is written into its from-fabric queue when space appears. -/
def execClaspBridgeQueueWrite (q : Fin 6) (s : State) : Out := .next (s.clFlush (64 + q))

/-- R20. With no die-link heartbeat for 2 µs the mixed-signal die de-energises every gate, valve and SSR output. -/
def execHeartbeatLoss (s : State) : Out :=
  .next (if s.flt.hb.isSome then s else ({ s with flt := { s.flt with hb := some s.time.dt.toNat } }).deenergise)

/-- R383. When the heartbeat resumes, the clasp clears every ARM bit, raises CL_DISARM and an HBLOSS entry is logged; `expected`: the loss
came of a power-state transition and is not logged (R20). -/
def execHeartbeatResume (expected : Bool) (s : State) : Out := .next (s.hbResume expected)

end Sys2Proof.Machine
end

