-- ==== Sys2Proof/Machine/Crypto.lean ====
section
/-!
DEFINITION. The algorithms the device's crypto engine, hallmark check and debug unlock run by name (R240, R453): SHA-256 of FIPS 180-4,
AES-128/256 of FIPS 197 in GCM, and the verification of ECDSA P-256 of FIPS 186. The algorithms are those of the named standards, since
the spec gives them by name only (log entry 10: PRESUMED). Byte strings are lists of numbers below 256.
-/

namespace Sys2Proof.Machine.Crypto

/-! ### SHA-256 -/

/-- A 32-bit word of SHA-256. -/
abbrev W32 := BitVec 32

/-- The bits below bit `n` that make `x` the integer `k`-th root of `p`. -/
def rootBits (k p : Nat) : Nat → Nat → Nat
  | 0, x => x
  | n + 1, x => rootBits k p n (if (x + 2 ^ n) ^ k ≤ p then x + 2 ^ n else x)

/-- The first 32 bits of the fraction of the `k`-th root of `p`, from which FIPS 180-4 takes its constants. -/
def shaFrac (k p : Nat) : W32 := BitVec.ofNat 32 (rootBits k (p * 2 ^ (32 * k)) 36 0)

/-- The first 64 primes, below 312: no prime up to 17 divides them but itself. -/
def shaPrimes : List Nat :=
  (List.range 312).filter (fun n => decide (2 ≤ n) && [2, 3, 5, 7, 11, 13, 17].all (fun d => n == d || decide (n % d ≠ 0)))

/-- The round constants: of the cube roots of the first 64 primes. -/
def shaK : List W32 := shaPrimes.map (shaFrac 3)

/-- The starting hash value: of the square roots of the first 8 primes. -/
def shaH0 : List W32 := (shaPrimes.take 8).map (shaFrac 2)

/-- The bytes of number `x`, most significant first, `n` of them. -/
def beBytes : Nat → Nat → List Nat
  | 0, _ => []
  | n + 1, x => (x / 256 ^ n) % 256 :: beBytes n x

/-- The number a big-endian byte string spells. -/
def beNat (l : List Nat) : Nat := l.foldl (fun a b => a * 256 + b % 256) 0

/-- A list cut into pieces of `n`, for at most `fuel` pieces. -/
def pieces {α : Type} (n : Nat) : Nat → List α → List (List α)
  | 0, _ => []
  | f + 1, l => if l.isEmpty then [] else l.take n :: pieces n f (l.drop n)

/-- A message with its padding (FIPS 180-4). -/
def shaPad (m : List Nat) : List Nat :=
  let z := (119 - m.length % 64) % 64
  m ++ [0x80] ++ List.replicate z 0 ++ beBytes 8 (m.length * 8)

/-- The exclusive OR of a word's rotations to the right. -/
def rots (x : W32) (l : List Nat) : W32 := l.foldl (fun y n => y ^^^ x.rotateRight n) 0

/-- The message schedule, newest word first, extended by `n` words: each from those 2, 7, 15 and 16 places before it. -/
def shaSched : Nat → List W32 → List W32
  | 0, w => w
  | n + 1, w =>
    let ago := fun i => w.getD (i - 1) 0
    shaSched n ((ago 16 + ago 7 + (rots (ago 15) [7, 18] ^^^ (ago 15 >>> 3)) + (rots (ago 2) [17, 19] ^^^ (ago 2 >>> 10))) :: w)

/-- One round on the last four values of each of the two halves of the hash, newest first, with the sum of its constant and schedule word. -/
def shaStep (q : List W32 × List W32) (kw : W32) : List W32 × List W32 :=
  let u := fun i => q.1.getD i 0
  let v := fun i => q.2.getD i 0
  let t := kw + v 3 + rots (v 0) [6, 11, 25] + ((v 0 &&& v 1) ||| (~~~(v 0) &&& v 2))
  ((t + rots (u 0) [2, 13, 22] + ((u 0 &&& (u 1 ||| u 2)) ||| (u 1 &&& u 2))) :: q.1.take 3, (u 3 + t) :: q.2.take 3)

/-- The hash value after one 64-byte block. -/
def shaBlock (h : List W32) (blk : List Nat) : List W32 :=
  let w := shaSched 48 ((pieces 4 16 blk).map (fun b => BitVec.ofNat 32 (beNat b))).reverse
  let q := (List.zipWith (· + ·) shaK w.reverse).foldl shaStep (h.take 4, h.drop 4)
  List.zipWith (· + ·) h (q.1 ++ q.2)

/-- SHA-256 of a byte string: 32 bytes. -/
def sha256 (m : List Nat) : List Nat :=
  let p := shaPad m
  ((pieces 64 (p.length / 64) p).foldl shaBlock shaH0).flatMap (fun x => beBytes 4 x.toNat)

/-! ### AES -/

/-- Multiplication by x in the field of AES. -/
def xtime (a : Nat) : Nat := if a < 128 then a * 2 else (a * 2) ^^^ 0x11b

/-- Multiplication in the field of AES. -/
def gmul (a : Nat) : Nat → Nat → Nat
  | 0, _ => 0
  | n + 1, b => (if b % 2 = 1 then a else 0) ^^^ gmul (xtime a) n (b / 2)

/-- A power in the field of AES, exponent 2^n − 2 by repeated squaring. -/
def ginv (a : Nat) : Nat :=
  let sq := fun x => gmul x 8 x
  let step := fun (p : Nat × Nat) => let q := sq p.1; (q, gmul p.2 8 q)
  (step (step (step (step (step (step (step (a, 1)))))))).2

/-- The substitution box of AES. -/
def sbox (a : Nat) : Nat :=
  let b := ginv a
  let rot := fun (n : Nat) => (b * 2 ^ n) % 256 + b / 2 ^ (8 - n)
  (b ^^^ rot 1 ^^^ rot 2 ^^^ rot 3 ^^^ rot 4 ^^^ 0x63) % 256

/-- Byte-wise exclusive OR. -/
def xorB (a b : List Nat) : List Nat := List.zipWith (· ^^^ ·) a b

/-- The round constant of AES, number `i` from 1. -/
def rcon : Nat → Nat
  | 0 => 1
  | 1 => 1
  | n + 1 => xtime (rcon n)

/-- The key schedule, newest word first, extended by `n` words; `nk` words of key, `i` the number of the next word. -/
def keySched (nk : Nat) : Nat → Nat → List (List Nat) → List (List Nat)
  | 0, _, w => w
  | n + 1, i, w =>
    let t := w.getD 0 []
    let t :=
      if i % nk = 0 then
        (match t with
         | [a, b, c, d] => [sbox b ^^^ rcon (i / nk), sbox c, sbox d, sbox a]
         | _ => t)
      else if 6 < nk ∧ i % nk = 4 then t.map sbox else t
    keySched nk n (i + 1) (xorB (w.getD (nk - 1) []) t :: w)

/-- The round keys of a 16- or 32-byte key. -/
def roundKeys (key : List Nat) : List (List Nat) :=
  let nk := key.length / 4
  let w := (keySched nk (4 * (nk + 7) - nk) nk (pieces 4 nk key).reverse).reverse
  (pieces 4 (nk + 7) w).map List.flatten

/-- The rows of the state shifted (bytes in column order). -/
def shiftRows (s : List Nat) : List Nat := (List.range 16).map (fun i => s.getD ((i + 4 * (i % 4)) % 16) 0)

/-- One column mixed. -/
def mixCol (c : List Nat) : List Nat :=
  let g := fun i => c.getD (i % 4) 0
  (List.range 4).map (fun i => xtime (g i) ^^^ (xtime (g (i + 1)) ^^^ g (i + 1)) ^^^ g (i + 2) ^^^ g (i + 3))

/-- AES on one block with its round keys. -/
def aesRounds : List Nat → List (List Nat) → List Nat
  | s, [] => s
  | s, [k] => xorB (shiftRows (s.map sbox)) k
  | s, k :: ks => aesRounds (xorB ((pieces 4 4 (shiftRows (s.map sbox))).flatMap mixCol) k) ks

/-- AES of one 16-byte block. -/
def aes (key blk : List Nat) : List Nat :=
  match roundKeys key with
  | k :: ks => aesRounds (xorB blk k) ks
  | [] => blk

/-! ### GCM -/

/-- Multiplication in the field of GCM: bit 127 of a number is the first bit of the string. -/
def ghMul (y : Nat) : Nat → Nat → Nat
  | 0, _ => 0
  | n + 1, v =>
    (if y / 2 ^ n % 2 = 1 then v else 0) ^^^ ghMul y n (if v % 2 = 1 then (v / 2) ^^^ (0xe1 * 2 ^ 120) else v / 2)

/-- GHASH over blocks given as numbers. -/
def ghash (h : Nat) (bs : List Nat) : Nat := bs.foldl (fun y b => ghMul (y ^^^ b) 128 h) 0

/-- A byte string as 16-byte blocks, the last padded with zeros. -/
def blocks16 (l : List Nat) : List (List Nat) :=
  (pieces 16 (l.length / 16 + 1) l).map (fun b => b ++ List.replicate (16 - b.length) 0)

/-- Counter mode from counter `c` on. -/
def ctrMode (key iv : List Nat) : Nat → List (List Nat) → List Nat
  | _, [] => []
  | c, b :: bs => xorB b (aes key (iv ++ beBytes 4 (c % 2 ^ 32))) ++ ctrMode key iv (c + 1) bs

/-- The text under the key stream of GCM. -/
def gcmText (key iv text : List Nat) : List Nat := ctrMode key iv 2 (pieces 16 (text.length / 16 + 1) text)

/-- The 16-byte tag over additional data and ciphertext. -/
def gcmTag (key iv aad ct : List Nat) : List Nat :=
  let h := beNat (aes key (List.replicate 16 0))
  let bs := (blocks16 aad ++ blocks16 ct).map beNat ++ [aad.length * 8 * 2 ^ 64 + ct.length * 8]
  xorB (beBytes 16 (ghash h bs)) (aes key (iv ++ [0, 0, 0, 1]))

/-! ### ECDSA P-256 -/

/-- The field prime of P-256. -/
def p256 : Nat := 2 ^ 256 - 2 ^ 224 + 2 ^ 192 + 2 ^ 96 - 1

/-- The order of the base point. -/
def n256 : Nat := 0xffffffff00000000ffffffffffffffffbce6faada7179e84f3b9cac2fc632551

/-- The coefficient b. -/
def b256 : Nat := 0x5ac635d8aa3a93e7b3ebbd55769886bc651d06b0cc53b0f63bce3c3e27d2604b

/-- The base point. -/
def g256 : Nat × Nat :=
  (0x6b17d1f2e12c4247f8bce6e563a440f277037d812deb33a0f4a13945d898c296,
   0x4fe342e2fe1a7f9b8ee7eb4a7c0f9e162bce33576b315ececbb6406837bf51f5)

/-- a^e mod m over the low `n` bits of e. -/
def powMod (m : Nat) : Nat → Nat → Nat → Nat
  | 0, _, _ => 1
  | n + 1, a, e => (if e % 2 = 1 then a else 1) * powMod m n (a * a % m) (e / 2) % m

/-- The inverse modulo a prime. -/
def invMod (m a : Nat) : Nat := powMod m 256 (a % m) (m - 2)

/-- The sum of two points; none is the point at infinity. -/
def ecAdd : Option (Nat × Nat) → Option (Nat × Nat) → Option (Nat × Nat)
  | none, q => q
  | p, none => p
  | some (x1, y1), some (x2, y2) =>
    if x1 = x2 ∧ (y1 + y2) % p256 = 0 then none
    else
      let l := if x1 = x2 then (3 * x1 * x1 + (p256 - 3)) * invMod p256 (2 * y1) % p256
               else (y2 + p256 - y1) * invMod p256 (x2 + p256 - x1) % p256
      let x3 := (l * l + 2 * p256 - x1 - x2) % p256
      some (x3, (l * (x1 + p256 - x3) + p256 - y1) % p256)

/-- The multiple of a point over the low `n` bits of e. -/
def ecMul : Nat → Nat → Option (Nat × Nat) → Option (Nat × Nat)
  | 0, _, _ => none
  | n + 1, e, q => if e = 0 then none else ecAdd (if e % 2 = 1 then q else none) (ecMul n (e / 2) (ecAdd q q))

/-- A point lies on the curve. -/
def onCurve (x y : Nat) : Bool :=
  decide (x < p256) && decide (y < p256) && decide (y * y % p256 = (x * x * x + (p256 - 3) * x + b256) % p256)

/-- ECDSA P-256 verification of a 32-byte digest by a public key and a signature. -/
def ecdsaVerify (digest : List Nat) (qx qy r s : Nat) : Bool :=
  if r = 0 ∨ n256 ≤ r ∨ s = 0 ∨ n256 ≤ s ∨ onCurve qx qy = false then false
  else
    let w := invMod n256 s
    let u1 := beNat digest * w % n256
    let u2 := r * w % n256
    match ecAdd (ecMul 256 u1 (some g256)) (ecMul 256 u2 (some (qx, qy))) with
    | none => false
    | some (x, _) => decide (x % n256 = r)

/-! ### Packing (R240) -/

/-- The bytes of a list of words, three to a word from [23:16] downward. -/
def wordBytes (ws : List Word) : List Nat := ws.flatMap (fun w => beBytes 3 w.toNat)

/-- Words that hold a byte string, unused bytes 0. -/
def packBytes (l : List Nat) : List Word :=
  (pieces 3 (l.length / 3 + 1) l).map (fun b => w24 (beNat (b ++ List.replicate (3 - b.length) 0)))

/-- The two 32-byte numbers of a 22-word key or signature. -/
def keyPair (ws : List Word) : Nat × Nat :=
  let b := wordBytes ws
  (beNat (b.take 32), beNat ((b.drop 32).take 32))

end Sys2Proof.Machine.Crypto
end

