-- ==== Sys2Proof/Machine/Image.lean ====
section
/-!
DEFINITION. The checks of images: a capsule image (R239–R242) and a keeper image (R240, R588). The codes of a failure are those of
BZ_HMSTAT.FAIL: 0 none, 1 MAGIC, 2 FORMAT, 3 LEN, 4 SECT, 5 KEY, 6 ROLLBACK, 7 SIG, 8 ECC, 9 REGION.
-/

namespace Sys2Proof.Machine

/-- The result of a check: its failure code, what it read of the key slot and the version, and the header. -/
structure ImgRes where
  fail : Nat
  slot : Option Nat
  ver  : Option Word
  hdr  : List Word
  deriving DecidableEq, Repr

/-- Words at the addresses of a list, read by the check (R195, R196): none at the first uncorrectable one. The SRC code that the error log
gives the reader is the free value `src` (log entry 6). -/
def State.imgWords (s : State) (src : Nat) (acc : List Word) : List Nat → State × Option (List Word)
  | [] => (s, some acc.reverse)
  | a :: r =>
    match s.memRead a (src % 8) (src / 8 % 128) with
    | (s, some w) => s.imgWords src (w :: acc) r
    | (s, none) => (s, none)

/-- `n` addresses from `a`. -/
def addrs (a n : Nat) : List Nat := (List.range n).map (· + a)

/-- Two ranges (first, length) share an address. -/
def overlaps (a b : Nat × Nat) : Bool := decide (0 < a.2 ∧ 0 < b.2 ∧ a.1 < b.1 + b.2 ∧ b.1 < a.1 + a.2)

/-- No two ranges of a list overlap. -/
def disjoint : List (Nat × Nat) → Bool
  | [] => true
  | a :: r => !r.any (fun b => overlaps a b) && disjoint r

/-- The sections of a capsule image's header are allowed (R239). `h` are the words +0 to +31. -/
def sectOk (h : List Word) : Bool :=
  let w := fun i => h.getD i 0
  let n := (w 6).toNat
  let secs := (List.range n).map (fun i => ((w (16 + 2 * i)).toNat, getBits (w (17 + 2 * i)) 17 0))
  decide (1 ≤ n ∧ n ≤ 8) && decide (getBits (w 3) 23 3 = 0) && (List.range 4).all (fun i => decide (w (12 + i) = 0)) &&
  (List.range n).all (fun i => decide (getBits (w (16 + 2 * i)) 9 0 = 0) && decide (getBits (w (17 + 2 * i)) 20 18 = 0)) &&
  (List.range (2 * (8 - n))).all (fun i => decide (w (16 + 2 * n + i) = 0)) &&
  decide ((secs.map (fun x => x.2)).foldl (· + ·) 0 + 54 = (w 2).toNat) && disjoint secs

/-- The signature of an image's words verifies under a packed public key (R240). -/
def sigOk (ws key : List Word) : Bool :=
  let n := ws.length - 22
  let q := Crypto.keyPair key
  let rs := Crypto.keyPair (ws.drop n)
  decide (getBits (ws.getD (n + 21) 0) 15 0 = 0) && Crypto.ecdsaVerify (Crypto.sha256 (Crypto.wordBytes (ws.take n))) q.1 q.2 rs.1 rs.2

/-- The words at offsets `offs` of the image at `base` that the check has not read yet are added to `got`; none at an uncorrectable one. -/
def State.imgRead (s : State) (src base : Nat) (got : List (Nat × Word)) (offs : List Nat) : State × Option (List (Nat × Word)) :=
  let new := offs.filter (fun i => !got.any (fun p => decide (p.1 = i)))
  match s.imgWords src [] (new.map (base + ·)) with
  | (s, some l) => (s, some (got ++ new.zip l))
  | (s, none) => (s, none)

/-- Word +i of those read. -/
def imgWord (got : List (Nat × Word)) (i : Nat) : Word := (got.lookup i).getD 0

/-- The words +0 to +n−1 of those read; a word not read yet shows 0. -/
def imgHead (got : List (Nat × Word)) (n : Nat) : List Word := (List.range n).map (imgWord got)

/-- The check of the capsule image at `base` (R242), step by step: each step reads its own words, each word once. -/
def State.capCheck (s : State) (base : Nat) : State × ImgRes :=
  let (s, f) := s.draw
  let src := f.toNat
  let bad := fun (s : State) (c : Nat) => (s, ({ fail := c, slot := none, ver := none, hdr := [] } : ImgRes))
  if 0x7FFFFD < base then bad s 9
  else match s.imgRead src base [] [2] with
    | (s, none) => bad s 8
    | (s, some got) =>
      let len := (imgWord got 2).toNat
      if 0x800000 < base + max 3 len then bad s 9
      else match s.imgRead src base got [0] with
        | (s, none) => bad s 8
        | (s, some got) =>
          if imgWord got 0 ≠ 0x434150 then bad s 1
          else match s.imgRead src base got [1] with
            | (s, none) => bad s 8
            | (s, some got) =>
              if imgWord got 1 ≠ 0x000001 then bad s 2
              else if len < 55 ∨ 262144 < len then bad s 3
              else match s.imgRead src base got (3 :: 6 :: addrs 12 20) with
                | (s, none) => bad s 8
                | (s, some got) =>
                  let slot := getBits (imgWord got 3) 2 0
                  if sectOk (imgHead got 32) = false then bad s 4
                  else if s.fb (Reg.BZ_KjCTL slot) Reg.BZ_KjCTL_V = false then
                    (s, { fail := 5, slot := some slot, ver := none, hdr := [] })
                  else match s.imgRead src base got [5] with
                    | (s, none) => (s, { fail := 8, slot := some slot, ver := none, hdr := [] })
                    | (s, some got) =>
                      let out := fun (s : State) (c : Nat) (h : List Word) =>
                        (s, ({ fail := c, slot := some slot, ver := some (imgWord got 5), hdr := h } : ImgRes))
                      if (imgWord got 5).toNat < (s.rd (Reg.BZ_KjMINVER slot)).toNat then out s 6 []
                      else match s.imgRead src base got (addrs 0 32) with
                        | (s, none) => out s 8 []
                        | (s, some got) =>
                          match s.imgWords src [] (addrs (base + 32) (len - 32)) with
                          | (s, none) => out s 8 []
                          | (s, some ws) =>
                            let h := imgHead got 32
                            let key := (List.range 22).map (fun i => s.rd (Reg.BZ_KjKEYw slot i))
                            if sigOk (h ++ ws) key then out s 0 h else out s 7 []

/-- A load of a keeper image lies in engine 0's local memory, cluster C0 SRAM or global SRAM (R588). -/
def loadOk (x : Nat × Nat) : Bool :=
  decide (x.2 = 0) ||
  ([(0x900000, 0x902000), (0xA00000, 0xA40000), (0, 0x400000)] : List (Nat × Nat)).any (fun r => decide (r.1 ≤ x.1 ∧ x.1 + x.2 ≤ r.2))

/-- The loads of a keeper image's header, as (destination, length). -/
def keeperLoads (h : List Word) : List (Nat × Nat) :=
  (List.range (h.getD 9 0).toNat).map (fun i => ((h.getD (10 + 2 * i) 0).toNat, (h.getD (11 + 2 * i) 0).toNat))

/-- The check of the keeper image whose word +0 is at `base` (R588), step by step: each step reads its own words, each word once. -/
def State.keeperCheck (s : State) (base : Nat) : State × ImgRes :=
  let (s, f) := s.draw
  let src := f.toNat
  let bad := fun (s : State) (c : Nat) => (s, ({ fail := c, slot := none, ver := none, hdr := [] } : ImgRes))
  match s.imgRead src base [] [0] with
  | (s, none) => bad s 8
  | (s, some got) =>
    if imgWord got 0 ≠ 0x4B4550 then bad s 1
    else match s.imgRead src base got [1] with
      | (s, none) => bad s 8
      | (s, some got) =>
        if imgWord got 1 ≠ 0x000001 then bad s 2
        else match s.imgRead src base got [2] with
          | (s, none) => bad s 8
          | (s, some got) =>
            let len := (imgWord got 2).toNat
            if len < 62 ∨ 1048560 < len then bad s 3
            else match s.imgRead src base got [9] with
              | (s, none) => bad s 8
              | (s, some got) =>
                let n := (imgWord got 9).toNat
                if 4 < n then bad s 4
                else match s.imgRead src base got (addrs 10 (2 * n)) with
                  | (s, none) => bad s 8
                  | (s, some got) =>
                    let loads := keeperLoads (imgHead got 18)
                    if !loads.all loadOk ∨ !disjoint loads ∨ len - 62 < (loads.map (fun x => x.2)).foldl (· + ·) 0 then bad s 4
                    else match s.imgRead src base got (3 :: addrs 18 22) with
                      | (s, none) => bad s 8
                      | (s, some got) =>
                        let b := getBits (imgWord got 3) 0 0
                        let key := (imgHead got 40).drop 18
                        let digest := (List.range 11).map (fun i => s.rd (Reg.SYS_FUSEw (11 * b + i)))
                        let keyed := fun (s : State) (c : Nat) => (s, ({ fail := c, slot := some b, ver := none, hdr := [] } : ImgRes))
                        if digest.all (fun w => w == 0) ||
                            Crypto.packBytes (Crypto.sha256 ((Crypto.wordBytes key).take 64)) != digest then keyed s 5
                        else match s.imgRead src base got [5] with
                          | (s, none) => keyed s 8
                          | (s, some got) =>
                            let ver := imgWord got 5
                            let out := fun (s : State) (c : Nat) (h : List Word) =>
                              (s, ({ fail := c, slot := some b, ver := some ver, hdr := h } : ImgRes))
                            if getBits ver 23 16 < getBits (s.rd (Reg.SYS_FUSEw 33)) 6 0 then out s 6 []
                            else match s.imgRead src base got (addrs 0 40) with
                              | (s, none) => out s 8 []
                              | (s, some got) =>
                                match s.imgWords src [] (addrs (base + 40) (len - 40)) with
                                | (s, none) => out s 8 []
                                | (s, some ws) =>
                                  let h := imgHead got 40
                                  if sigOk (h ++ ws) key then out s 0 h else out s 7 []

end Sys2Proof.Machine
end

