-- ==== Sys2Proof/Machine/Memc.lean ====
section
/-!
DEFINITION. The memory controller (R191–R230): scrubbing, MRAM writes and marks, the table walk as a command, reservations, demotion and
global SRAM's windows.
-/

namespace Sys2Proof.Machine

/-- The address of word `i` in the scrubber's order (R198): global SRAM, MRAM, the locket, cluster SRAM, engine local memory. -/
def scrubAddr (i : Nat) : Nat :=
  if i < 0x800000 then i
  else if i < 0x804000 then i + 0x10000
  else if i < 0xA04000 then i - 0x804000 + 0xA00000
  else i - 0xA04000 + 0x900000

/-- The number of words of memory (R198). -/
def scrubWords : Nat := 11550720

/-- The scrubber reads `n` words (R198); a word of a cluster closed by quarantine is passed over, and at a global SRAM bank where a reserved
request waits the scrubber, whose reads are best-effort, stops for now (R221). -/
def State.scrub (s : State) : Nat → State
  | 0 => s
  | n + 1 =>
    let i := s.memc.scrub
    let a := scrubAddr i
    if s.bankHeld a then s
    else
      let s := { s with memc := { s.memc with scrub := (i + 1) % scrubWords } }
      let s := if s.closed a then s else (s.memRead a 3 0).1
      s.scrub n

/-- MARKDONE is set and MRMARK raised once no marked entry is left (R203). -/
def State.markCheck (s : State) : State :=
  if s.memc.wbuf.any (fun e => e.marked) ∨ s.fb Reg.MEMC_MRSTAT Reg.MEMC_MRSTAT_MARKDONE then s
  else (s.sf Reg.MEMC_MRSTAT Reg.MEMC_MRSTAT_MARKDONE 1).raise 0x013

/-- The entry at position `i` of the write buffer is the oldest of its bank (R200). -/
def mrOldest (l : List MrEnt) (i : Nat) : Bool :=
  match l[i]? with
  | some e => (l.take i).all (fun x => mrBank x.addr != mrBank e.addr)
  | none => false

/-- A buffered MRAM write ends (R200–R203): written, or failed at its third verify, when the word holds its old value or reads as
uncorrectable (a free value decides). -/
def State.mrWrite (s : State) (i : Nat) (ok : Bool) : State :=
  let l := s.memc.wbuf
  match l[i]? with
  | none => s
  | some e =>
    if mrOldest l i then
      let b := l.eraseIdx i
      let s := ({ s with memc := { s.memc with wbuf := b } }).sf Reg.MEMC_MRSTAT Reg.MEMC_MRSTAT_PEND b.length
      let s :=
        if ok then s.setCell e.addr (.good e.val)
        else
          let (s, f) := s.draw
          let s := if f.getLsbD 0 then s.setCell e.addr .bad else s
          ((s.incW Reg.MEMC_MRFAIL).wr Reg.MEMC_MRFADDR (w24 e.addr)).raise 0x014
      if e.marked then s.markCheck else s
    else s

/-- A write to MEMC_MRMARK (R203). -/
def State.mrMark (s : State) : State :=
  let s := s.sf Reg.MEMC_MRSTAT Reg.MEMC_MRSTAT_MARKDONE 0
  ({ s with memc := { s.memc with wbuf := s.memc.wbuf.map (fun (e : MrEnt) => { e with marked := true }) } }).markCheck

/-- The plan level in force of domain `d` (R505): 0–7 clusters, 8 spine. -/
def State.planLevel (s : State) (d : Nat) : Nat := s.fl (Reg.PWR_PLn d) Reg.PWR_PLn_EFF

/-- The admission limit of a spine plan level, in accesses per µs (R225). -/
def admLimit : Nat → Nat
  | 0 => 2400
  | 1 => 3440
  | 2 => 4480
  | 3 => 5680
  | 4 => 6880
  | 5 => 8080
  | 6 => 9120
  | _ => 10240

/-- The guaranteed floor of a spine plan level, in M accesses per second (R225). -/
def memFloor : Nat → Nat
  | 0 => 3000
  | 1 => 4300
  | 2 => 5600
  | 3 => 7100
  | 4 => 8600
  | 5 => 10100
  | 6 => 11400
  | _ => 12800

/-- A capsule's reservation entry (R226). -/
def State.resv (s : State) (cid : Nat) : Resv := SMap.get Resv.none s.memc.resv cid

/-- A capsule's reservation entry set. -/
def State.setResv (s : State) (cid : Nat) (r : Resv) : State :=
  { s with memc := { s.memc with resv := SMap.set Resv.none s.memc.resv cid r } }

/-- A request for a reservation (R226), decided at once; the flag says that it was admitted or released. Capsule ID 0 ignores CLASS: 0 is kept
and shown for it (log entry 40: DESIGN CHOICE). -/
def State.resvRequest (s : State) (cid rate cls : Nat) : State × Bool :=
  let r := s.resv cid
  let sum := s.fl Reg.MEMC_RSUM Reg.MEMC_RSUM_SUM
  let old := if r.adm && !r.dem then r.rate else 0
  let need := sum - old + rate
  let lim := admLimit (s.planLevel 8)
  let cls := if cid = 0 then 0 else cls
  if rate = 0 then
    (((s.setResv cid { r with adm := false, dem := false, tokens := 0 }).sf Reg.MEMC_RSUM Reg.MEMC_RSUM_SUM (sum - old)).wr
      Reg.MEMC_RSTAT 0x400000, true)
  else if need ≤ lim then
    (((s.setResv cid { r with rate := rate, cls := cls, adm := true, dem := false }).sf Reg.MEMC_RSUM Reg.MEMC_RSUM_SUM need).wr
      Reg.MEMC_RSTAT 0x400000, true)
  else (s.wr Reg.MEMC_RSTAT (w24 (2 ^ 23 + min (need - lim) 0x3FFF)), false)

/-- MEMC_RENT as it reads for the capsule of MEMC_RSEL (R230). -/
def State.rentWord (s : State) : Word :=
  let r := s.resv (s.fl Reg.MEMC_RSEL Reg.MEMC_RSEL_CID)
  w24 (b2n r.adm * 2 ^ 23 + b2n r.dem * 2 ^ 22 + r.cls * 2 ^ 14 + r.rate)

/-- Of two candidates for demotion, the one R227 takes first: lower CLASS (the keeper's entry above class 7), then larger RATE, then higher
capsule ID. -/
def demoteFirst (a b : Nat × Resv) : Bool :=
  let cl := fun (x : Nat × Resv) => if x.1 = 0 then 8 else x.2.cls
  if cl a ≠ cl b then decide (cl a < cl b) else if a.2.rate ≠ b.2.rate then decide (b.2.rate < a.2.rate) else decide (b.1 < a.1)

/-- Demotion (R227): entries are demoted until the sum of the guaranteed rates fits `lim`; each is logged with the plan level `pl`. -/
def State.demote (s : State) (lim pl : Nat) : Nat → State
  | 0 => s
  | n + 1 =>
    let sum := s.fl Reg.MEMC_RSUM Reg.MEMC_RSUM_SUM
    if sum ≤ lim then s
    else
      let held := s.memc.resv.filter (fun p => p.2.adm && !p.2.dem)
      match held.foldl (fun b x => match b with
          | some y => if demoteFirst x y then some x else some y
          | none => some x) none with
      | none => s
      | some (c, r) =>
        let i := s.fl Reg.MEMC_DEMHEAD Reg.MEMC_DEMHEAD_HEAD
        let s := s.setResv c { r with dem := true, tokens := 0 }
        let s := s.sf Reg.MEMC_RSUM Reg.MEMC_RSUM_SUM (sum - r.rate)
        let s := s.wr (Reg.MEMC_DEMLOGi i) (w24 (2 ^ 23 + pl * 2 ^ 20 + r.cls * 2 ^ 14 + c))
        let s := s.sf Reg.MEMC_DEMHEAD Reg.MEMC_DEMHEAD_HEAD ((i + 1) % 16)
        (s.incW Reg.MEMC_DEMCNT).demote lim pl n

/-- The demotions a fall of the spine to plan level `pl` needs (R227, R228); OVERCOMMIT is raised if there was one. -/
def State.demoteFor (s : State) (pl : Nat) : State :=
  let lim := admLimit pl
  if s.fl Reg.MEMC_RSUM Reg.MEMC_RSUM_SUM ≤ lim then s else (s.demote lim pl 1024).raise 0x012

/-- A translation-cache entry that fails its parity check on lookup is invalidated and counted (R220). -/
def State.tcUpset (s : State) (k va : Nat) : State :=
  let c := (s.th k).bind.cid
  let x := s.en (k / 4)
  match x.tcLookup c va with
  | none => s
  | some e => (s.setEn (k / 4) { x with tc := x.tc.filter (fun p => p.2 != some e) }).incW Reg.MEMC_TCPCNT

/-- R198. The scrubber reads the next words of memory, SCRUB of them for one microsecond, and corrects or logs errors; it is stopped while
SCRUB is 0 or TPLL has not locked. -/
def execScrubStep (s : State) : Out :=
  .next (if s.time.locked then s.scrub (s.fl Reg.MEMC_CTL Reg.MEMC_CTL_SCRUB) else s)

/-- R200. The buffered MRAM write at position `i` completes in its bank, verified (`ok`) or failed for the third time (R202). -/
def execMramWordWrite (i : Fin 16) (ok : Bool) (s : State) : Out := .next (s.mrWrite i ok)

/-- R203. A write to MEMC_MRMARK marks the buffered entries and clears MARKDONE. -/
def execMrmark (s : State) : Out := .next (s.taking 1 s.mrMark)

/-- R215. A translation-cache miss of thread `k` walks the capsule's tables for virtual address `va`, filling the cache or raising the walk
fault on the thread's next instruction. `upset` says that the entry it would have hit fails its parity check (R220). -/
def execTableWalk (k : Fin 512) (kind : AccKind) (va : BitVec 24) (upset : Bool) (s : State) : Out :=
  let s1 := if upset then s.tcUpset k va.toNat else s
  let x := s1.translate k kind va.toNat
  .next (match x.2 with
    | .ok _ => x.1
    | .error f => if x.1.isReady k then x.1.faultIns k (x.1.nextLen k) f else x.1)

/-- R226. A write to MEMC_RENT requests, changes or releases a reservation for the capsule of MEMC_RSEL, decided at once. -/
def execReservationRequest (v : BitVec 24) (s : State) : Out :=
  .next (s.taking 1 (s.resvRequest (s.fl Reg.MEMC_RSEL Reg.MEMC_RSEL_CID) (getF v Reg.MEMC_RENT_RATE) (getF v Reg.MEMC_RENT_CLASS)).1)

/-- At a 1 µs boundary of device time that the ticks have reached, every admitted reservation's token count is set to its RATE (R222). -/
def State.tokenRefill (s : State) : State :=
  if s.memc.due then
    { s with memc := { s.memc with
        due := false
        resv := s.memc.resv.map (fun p => if p.2.adm && !p.2.dem then (p.1, { p.2 with tokens := p.2.rate }) else p) } }
  else s

/-- R222. At a 1 µs boundary of device time every reservation's token count is set to its RATE: the boundary that the ticks have reached,
once. -/
def execTokenRefill (s : State) : Out := .next s.tokenRefill

/-- R223. The best-effort request at place `i` of engine `e`'s spine interface has waited PROMOTE_T bank cycles at its global SRAM bank: it is
promoted for one access, entering the bank's arrival order at this moment (R221), and counted. -/
def execMemcPromotion (e : Fin 128) (i : Fin 4) (s : State) : Out :=
  .next (match (s.en e).spine[i.val]? with
    | none => s
    | some a =>
      if region a.pa = .glob ∧ a.ord = none ∧ s.sent e a then
        (({ s with fresh := s.fresh + 1 }).mapEn e (fun x =>
          { x with spine := x.spine.map (fun (b : Access) => if b.id = a.id then { b with ord := some s.fresh } else b) })).incW Reg.MEMC_PROMOCNT
      else s)

/-- R224. A 1 µs window in which bank `b` exceeded 80 % reserved load is counted, the bank recorded and HOTBANK raised. -/
def execHotbank (b : Fin 32) (s : State) : Out :=
  .next (((s.incW Reg.MEMC_HOTCNT).wr Reg.MEMC_HOTBANK (w24 b)).raise 0x015)

end Sys2Proof.Machine
end

