-- ==== Sys2Proof/Machine/Bezel.lean ====
section
/-!
DEFINITION. The bezel (R231–R266): descriptors, the lifecycle commands, beat budgets, placement epochs, the probe and the keeper switch.
-/

namespace Sys2Proof.Machine

/-- The bits of descriptor word `w` that the keeper writes (R237). -/
def descMask (w : Nat) : Word :=
  if w = 0 then 0x000FC0
  else if w = 1 ∨ w = 3 ∨ w = 8 then 0xFFFFFF
  else if w = 2 then 0x0FFFFF
  else if w = 4 then 0x003FFF
  else if w = 5 then 0x00FFFF
  else if w = 9 then 0x0000FF
  else if w = 10 ∨ w = 11 then 0x8FFFFF
  else if 12 ≤ w ∧ w ≤ 15 then 0xE03FFF
  else if w = 16 then 0x8001FF
  else if 24 ≤ w ∧ w ≤ 31 then 0xBF00FF
  else 0

/-- The bits of descriptor word `w` that the bezel writes (R237). -/
def descRo (w : Nat) : Word :=
  if w = 0 then 0xFF0000
  else if w = 6 ∨ w = 7 ∨ w = 17 then 0xFFFFFF
  else if w = 18 then 0x000007
  else 0

/-- Word `w` of the live descriptor of `c` set. -/
def State.setDesc (s : State) (c w : Nat) (v : Word) : State := s.mapCap c (fun x => { x with live := SMap.set 0 x.live w v })

/-- A field of word 0 of the live descriptor. -/
def State.setDesc0 (s : State) (c : Nat) (f : Fld) (n : Nat) : State := s.setDesc c 0 (setF (s.desc c 0) f n)

/-- STATE of capsule `c` (R246). -/
def State.setCapState (s : State) (c n : Nat) : State := s.setDesc0 c ⟨23, 21⟩ n

/-- BZ_Dw as it reads for capsule `c` (R237, R266): the staging copy with the live values of the fields the bezel writes. -/
def State.descWord (s : State) (c w : Nat) : Word :=
  let live := if w = 0 then setF (s.desc c 0) ⟨23, 21⟩ (s.capState c) else s.desc c w
  (SMap.get 0 (s.cap c).stag w &&& descMask w) ||| (live &&& descRo w)

/-- A write to BZ_Dw (R237). -/
def State.descWrite (s : State) (c w : Nat) (v : Word) : State :=
  s.mapCap c (fun x => { x with stag := SMap.set 0 x.stag w (v &&& descMask w) })

/-- The threads that are bound to capsule `c` or hold its ID in XST.PCID of a level entry (R251); a thread that is OFF is neither. -/
def State.boundThreads (s : State) (c : Nat) : Nat :=
  (s.thr.filter (fun p => decide (p.2.mode ≠ .off) && ((!p.2.bind.prv && decide (p.2.bind.cid = c)) ||
    p.2.levels.any (fun l => !l.xst.getLsbD 23 && decide (getBits l.xst 22 13 = c))))).length

/-- Threads bound to capsule `c` at capsule privilege begin to be held; each is logged (R235, R265). -/
def State.holdAll (s : State) (c : Nat) : State :=
  ((s.thr.filter (fun p => !p.2.bind.prv && decide (p.2.bind.cid = c))).map (fun p => p.1)).foldl (fun s k => s.holdLog k) s

/-- A period boundary or REFILL of capsule `c` (R255): the beats of the period are recorded, every allotment cancelled, REM set. -/
def State.refill (s : State) (c : Nat) : State :=
  let s := s.mapCap c (fun x =>
    { x with last := x.used, used := 0, rem := (s.desc c 3).toNat * 64, waitc := 0, heldEv := false, due := false })
  ((s.thr.filter (fun p => decide (p.2.alCid = c) && decide (p.2.al ≠ 0))).map (fun p => p.1)).foldl
    (fun s k => s.mapTh k (fun t => { t with al := 0 })) s

/-- The epoch of capsule `c` advances modulo 16, and its endpoints learn it (R258). -/
def State.bumpEpoch (s : State) (c : Nat) : State := (s.setDesc0 c ⟨19, 16⟩ (s.epoch c + 1)).epDeliver c

/-- Every descriptor field of `c` but EPOCH is cleared in both copies, and `c` is EMPTY (R242, R251). -/
def State.emptyCap (s : State) (c : Nat) : State :=
  let e := s.epoch c
  (s.setCap c Capsule.empty).setDesc0 c ⟨19, 16⟩ e

/-! ### Commands -/

/-- A command completes (R247): its result, BUSY 0, CMDDONE. -/
def State.bzDone (s : State) (c r : Nat) : State := (s.wr Reg.BZ_CSTAT (w24 (r * 2 ^ 20 + c % 1024))).raise 0x018

/-- HALLMARK (R242, R245). One that names a capsule in a wrong state records FAIL = STATE; one that could start but finds a check running
completes with BADSTATE alone (log entry 21). -/
def State.bzHallmark (s : State) (c : Nat) : State :=
  let kmode := decide (c = 0) && s.fb Reg.BZ_HMSTAT Reg.BZ_HMSTAT_KMODE
  let ok := kmode || (decide (c ≠ 0) && decide (s.capState c = 0 ∨ s.capState c = 2))
  if ok = false then (s.sf Reg.BZ_HMSTAT Reg.BZ_HMSTAT_FAIL 10).bzDone c 1
  else if s.bz.check.isSome then s.bzDone c 1
  else
    let s := if kmode then s else s.setCapState c 1
    let s := (s.sf Reg.BZ_HMSTAT Reg.BZ_HMSTAT_BUSY 1).sf Reg.BZ_HMSTAT Reg.BZ_HMSTAT_CID c
    let s := { s with bz := { s.bz with check := some { cid := c, kmode := kmode, addr := (s.rd Reg.BZ_HMADDR).toNat } } }
    let s := if s.comm.job = 4 then s.inc Reg.CRYPT_STAT Reg.CRYPT_STAT_PRECNT else s
    s.bzDone c 0

/-- The hallmark check completes (R242, R245). In keeper mode the image lies wholly in slot A or B. -/
def State.hmComplete (s : State) : State :=
  match s.bz.check with
  | none => s
  | some k =>
    let inSlot := fun (n : Nat) => decide (0x400000 ≤ k.addr ∧ k.addr + n ≤ 0x500000) || decide (0x500000 ≤ k.addr ∧ k.addr + n ≤ 0x600000)
    let r : State × ImgRes :=
      if k.kmode then
        (if inSlot 3 = false then (s, { fail := 9, slot := none, ver := none, hdr := [] })
        else match s.cell (k.addr + 2) with
          | .bad => s.keeperCheck k.addr
          | .good w | .corr w _ =>
            if inSlot (max 3 (((s.buffered (k.addr + 2)).getD w).toNat)) then s.keeperCheck k.addr
            else (s, { fail := 9, slot := none, ver := none, hdr := [] }))
      else s.capCheck k.addr
    let s := r.1
    let x := r.2
    let s := { s with bz := { s.bz with check := none } }
    let s := (s.sf Reg.BZ_HMSTAT Reg.BZ_HMSTAT_BUSY 0).sf Reg.BZ_HMSTAT Reg.BZ_HMSTAT_PASS (b2n (decide (x.fail = 0)))
    let s := s.sf Reg.BZ_HMSTAT Reg.BZ_HMSTAT_FAIL x.fail
    let s := match x.slot with | some n => s.sf Reg.BZ_HMSTAT Reg.BZ_HMSTAT_KEYSLOT n | none => s
    let s := match x.ver with | some v => s.wr Reg.BZ_HMVER v | none => s
    let s := if k.kmode then s
      else if x.fail = 0 then
        let h := fun i => x.hdr.getD i 0
        ((((((s.setDesc0 k.cid ⟨20, 20⟩ 1).setDesc k.cid 6 (h 7)).setDesc k.cid 7 (h 8)).setDesc k.cid 17 (h 5)).setDesc k.cid 18
          (w24 (x.slot.getD 0))).setCapState k.cid 2)
      else s.emptyCap k.cid
    s.raise 0x019

/-- The valid grants of a staging copy, as (output, sub-envelope) (R237). -/
def stagGrants (m : SMap Word) : List (Nat × Nat) :=
  (List.range 8).filterMap (fun i => let w := SMap.get 0 m (24 + i)
    if w.getLsbD 23 then some (getBits w 21 16, getBits w 7 0) else none)

/-- The checks 1 to 5 of LOAD (R248): 0 where all pass. A strand window whose V is 0 is not checked (log entry 42). -/
def State.loadCheck (s : State) (c : Nat) : Nat :=
  let m := (s.cap c).stag
  let w := fun i => SMap.get 0 m i
  let st := s.capState c
  if st ≠ 2 ∧ st ≠ 3 ∧ st ≠ 4 then 1
  else if c = 0 then 0
  else if getBits (w 1) 6 0 ≠ 0 ∨ tableRegion (w 1).toNat = false then 2
  else if 1000000 < (w 2).toNat ∨ (w 2 ≠ 0 ∧ w 3 = 0) then 3
  else if [12, 13, 14, 15].any (fun i => (w i).getLsbD 23 && decide (511 < getBits (w i) 13 5 + getBits (w i) 4 0)) then 6
  else if s.grantsOk c (stagGrants m) = false then 5
  else 0

/-- LOAD (R248, R249). For the keeper's descriptor only the fields of R238 count. A first LOAD refills as an update of PERIOD or BUDGET does
(log entry 43). -/
def State.bzLoad (s : State) (c : Nat) : State :=
  let e := s.loadCheck c
  if e ≠ 0 then s.bzDone c e
  else
    let m := (s.cap c).stag
    let w := fun i => SMap.get 0 m i
    let rate := (w 4).toNat
    let cls := if c = 0 then 0 else getBits (w 0) 10 8
    let r := s.resv c
    let q := if rate ≠ r.rate ∨ cls ≠ r.cls ∨ !r.adm then s.resvRequest c rate cls else (s, true)
    if q.2 = false then q.1.bzDone c 4
    else
      let s := q.1
      let old := (s.cap c).live
      let s := s.mapCap c (fun x => { x with live := (List.range 32).foldl (fun l i =>
        SMap.set 0 l i ((SMap.get 0 m i &&& descMask i) ||| (SMap.get 0 old i &&& descRo i))) old })
      let s := if c = 0 then s
        else
          let s := s.setGrants c (stagGrants m)
          let s := if s.capState c = 2 then s.setCapState c 3 else s
          if SMap.get 0 old 2 ≠ w 2 ∨ SMap.get 0 old 3 ≠ w 3 then s.refill c else s.waitSettle c
      s.bzDone c 0

/-- SUSPEND, RESUME, EPOCH, RETIRE and REFILL (R247, R250, R251, R258). -/
def State.bzSuspend (s : State) (c : Nat) : State :=
  if c = 0 ∨ s.capState c ≠ 3 then s.bzDone c 1 else (((s.setCapState c 4).holdAll c).waitSettle c).bzDone c 0

/-- RESUME (R250). -/
def State.bzResume (s : State) (c : Nat) : State :=
  if c = 0 ∨ s.capState c ≠ 4 then s.bzDone c 1 else (s.setCapState c 3).bzDone c 0

/-- EPOCH (R258). -/
def State.bzEpoch (s : State) (c : Nat) : State :=
  if s.capState c ≠ 3 ∧ s.capState c ≠ 4 then s.bzDone c 1 else (s.bumpEpoch c).bzDone c 0

/-- RETIRE begins (R251): BUSY stays 1 until it completes. Threads that a SUSPEND holds already are logged again (R265, log entry 44). -/
def State.bzRetire (s : State) (c : Nat) : State :=
  let st := s.capState c
  if c = 0 ∨ (st ≠ 2 ∧ st ≠ 3 ∧ st ≠ 4) then s.bzDone c 1
  else (((s.setCapState c 5).wr Reg.BZ_CSTAT (w24 (2 ^ 23 + c))).holdAll c).waitSettle c

/-- RETIRE completes when no thread is bound to the capsule (R251). -/
def State.retireDone (s : State) : State :=
  let c := s.fl Reg.BZ_CSTAT Reg.BZ_CSTAT_CID
  if s.fb Reg.BZ_CSTAT Reg.BZ_CSTAT_BUSY && decide (s.capState c = 5) && decide (s.boundThreads c = 0) then
    let s := (((s.resvRequest c 0 0).1.setGrants c []).bumpEpoch c).emptyCap c
    (s.bzDone c 0).raise 0x01A
  else s

/-- KSWITCH (R263). -/
def State.bzKswitch (s : State) (c : Nat) : State :=
  let cur := s.fl Reg.BZ_KGEN Reg.BZ_KGEN_CUR
  let en := fun (p : Nat × Thread) => s.fb (Reg.ENG_TCTL (p.1 / 4)) (bitF (p.1 % 4)) && p.2.startPrv
  if c ≠ 0 ∨ s.fb Reg.BZ_KGEN Reg.BZ_KGEN_ARMED = false ∨ !s.thr.any (fun p => en p && decide (b2n p.2.startKg ≠ cur)) then s.bzDone c 1
  else
    let old := (s.thr.filter (fun p => en p && decide (b2n p.2.startKg = cur))).map (fun p => p.1)
    let s := s.sf Reg.BZ_KGEN Reg.BZ_KGEN_CUR (1 - cur)
    let s := old.foldl (fun s k => (s.disable k).incW Reg.BZ_KSTOPCNT) s
    ((s.sf Reg.BZ_KGEN Reg.BZ_KGEN_ARMED 0).raise 0x01E).bzDone c 0

/-- REFILL (R247, R255). -/
def State.bzRefill (s : State) (c : Nat) : State :=
  if c = 0 ∨ (s.capState c ≠ 3 ∧ s.capState c ≠ 4) then s.bzDone c 1 else (s.refill c).bzDone c 0

/-- A write to BZ_CMD that starts command `op` for capsule `c` (R247): ignored while BUSY is 1. -/
def State.bzStart (s : State) (op c : Nat) (f : State → State) : State :=
  if s.fb Reg.BZ_CSTAT Reg.BZ_CSTAT_BUSY ∨ s.resting 3 then s else f (s.wr Reg.BZ_CMD (w24 (op * 2 ^ 20 + c)))

/-- A write of `v` to BZ_CMD. Other values of OP start nothing. -/
def State.bzCmd (s : State) (v : Word) : State :=
  let c := getF v Reg.BZ_CMD_CID
  let op := getF v Reg.BZ_CMD_OP
  s.bzStart op c (fun s => match op with
    | 1 => s.bzHallmark c
    | 2 => s.bzLoad c
    | 3 => s.bzSuspend c
    | 4 => s.bzResume c
    | 5 => s.bzEpoch c
    | 6 => s.bzRetire c
    | 7 => s.bzKswitch c
    | 8 => s.bzRefill c
    | _ => s)

/-! ### Budgets -/

/-- Capsule `c` has a budget (R253). -/
def State.hasBudget (s : State) (c : Nat) : Bool := decide (getBits (s.desc c 2) 19 0 ≠ 0)

/-- A chunk of beats moves to the allotment of thread `k` (R253). -/
def State.budgetChunk (s : State) (k : Nat) : State :=
  let t := s.th k
  let c := t.bind.cid
  if t.bind.prv || t.mode = .off || !s.hasBudget c || decide (64 < t.al) then s
  else
    let n := min 1024 (s.cap c).rem
    (s.mapCap c (fun x => { x with rem := x.rem - n })).setTh k { t with al := t.al + n, alCid := c }

/-- Thread `k`'s allotment and its capsule's remainder are 0 (R254): BUDGET at its next issue, or a hold, also of a thread that waits by
design, of which the period's first raises HELD. -/
def State.budgetOut (s : State) (k : Nat) : State :=
  let t := s.th k
  let c := t.bind.cid
  if t.bind.prv || decide (t.mode = .off ∨ t.mode = .stopping) || !s.hasBudget c || decide (t.al ≠ 0) ||
      decide ((s.cap c).rem ≠ 0) || decide (s.capState c ≠ 3) || decide (getBits (s.desc c 0) 10 8 < s.shedFloor) then s
  else if (s.desc c 0).getLsbD 11 then
    (if (s.cap c).heldEv then s else (s.mapCap c (fun x => { x with heldEv := true })).raise 0x01B)
  else if t.mode ≠ .run ∨ t.halt ≠ 0 then s
  else (s.signalExc k .budget (w24 c)).arrive (k / 4) 4

/-- The waiting counter of capsule `c` has reached a WAITT that is not 0 (R256). -/
def State.promote (s : State) (c : Nat) : State :=
  let w := getBits (s.desc c 5) 15 0
  if w = 0 ∨ (s.cap c).waitc < w ∨ s.heldOut c = false then s
  else
    let s := s.mapCap c (fun x => { x with rem := x.rem + 1024, waitc := 0, promo := min 0xFFFFFF (x.promo + 1) })
    (s.incW Reg.BZ_PROMOCNT).raise 0x01C

/-- The waiting counters at a 1 µs boundary of device time (R256); one that has reached WAITT waits there for its promotion, and a capsule at
its period boundary starts again. -/
def State.waitCount (s : State) : State :=
  (s.bz.caps.filter (fun p => decide (getBits (SMap.get 0 p.2.live 2) 19 0 ≠ 0) && !p.2.due)).foldl (fun s p =>
    let w := getBits (SMap.get 0 p.2.live 5) 15 0
    let held := s.heldOut p.1
    s.mapCap p.1 (fun x => { x with waitc := if held then min (if w = 0 then 0xFFFF else w) (x.waitc + 1) else 0 })) s

/-- A period boundary of capsule `c` that device time has reached (R255). -/
def State.periodBoundary (s : State) (c : Nat) : State := if (s.cap c).due then s.refill c else s

/-- A write of a virtual address to BZ_PRVA walks the tables of BZ_PRCID (R261). The engine number that the error log gives the reader is a
free value. -/
def State.probe (s : State) (va : Word) : State :=
  let s := s.wr Reg.BZ_PRVA va
  let c := s.fl Reg.BZ_PRCID Reg.BZ_PRCID_CID
  let fail := fun (s : State) (code lvl : Nat) => s.wr Reg.BZ_PRSTAT (w24 (code * 2 ^ 18 + lvl * 2 ^ 16))
  if c = 0 ∨ (s.capState c ≠ 3 ∧ s.capState c ≠ 4) then fail s 5 0
  else
    let (s, f) := s.draw
    match s.walk c va.toNat (f.toNat % 128) with
    | (s, .fault k lvl _) => fail s k.code lvl
    | (s, .entry e) =>
      (s.wr Reg.BZ_PRSTAT (w24 e.perms)).wr Reg.BZ_PRPA (w24 (e.base + va.toNat % (if e.block then 0x20000 else 0x400)))

/-- BZ_TBINDk as it reads (R233, R266). -/
def State.tbind (s : State) (k : Nat) : Word :=
  let b := (s.th k).bind
  w24 (b2n b.prv * 2 ^ 23 + b2n b.kg * 2 ^ 22 + b.tep % 16 * 2 ^ 18 + s.holdOf k * 2 ^ 15 + b.cid)

/-- A write to BZ_TSTARTk (R266): CID is 0 where PRV is 1, and a write with PRV 0 and CID 0 is ignored. -/
def State.tstartWrite (s : State) (k : Nat) (v : Word) : State :=
  let a := Reg.BZ_TSTARTk k
  if v.getLsbD 23 then s.wr a (v &&& 0xC00000)
  else if getBits v 9 0 = 0 then s
  else s.wr a (v &&& 0xC003FF)

/-- BZ_SELFID as thread `k` reads it (R266). -/
def State.selfId (s : State) (k : Nat) : Word :=
  let b := (s.th k).bind
  w24 (b2n b.prv * 2 ^ 23 + b.tep % 16 * 2 ^ 10 + b.cid)

/-- BZ_SELFREM as thread `k` reads it (R266). -/
def State.selfRem (s : State) (k : Nat) : Word :=
  let b := (s.th k).bind
  if b.prv || !s.hasBudget b.cid then 0 else w24 (min 0xFFFFFF ((s.cap b.cid).rem / 64))

/-! ### The commands' meanings -/

/-- R242. HALLMARK c checks the capsule or keeper image at BZ_HMADDR. -/
def execHallmark (c : Fin 1024) (s : State) : Out := .next (s.bzStart 1 c (fun s => s.bzHallmark c))

/-- R242. The hallmark check completes, recording PASS or FAIL and raising HMDONE. -/
def execHallmarkComplete (s : State) : Out := .next s.hmComplete

/-- R248. LOAD c checks the staging copy and makes it live in one step. -/
def execLoad (c : Fin 1024) (s : State) : Out := .next (s.bzStart 2 c (fun s => s.bzLoad c))

/-- R250. SUSPEND holds every thread bound to the capsule. -/
def execSuspend (c : Fin 1024) (s : State) : Out := .next (s.bzStart 3 c (fun s => s.bzSuspend c))

/-- R250. RESUME releases the threads of a suspended capsule. -/
def execResume (c : Fin 1024) (s : State) : Out := .next (s.bzStart 4 c (fun s => s.bzResume c))

/-- R258. EPOCH increments a capsule's placement epoch and delivers it to the clasp and endpoints. -/
def execEpoch (c : Fin 1024) (s : State) : Out := .next (s.bzStart 5 c (fun s => s.bzEpoch c))

/-- R251. RETIRE puts a capsule in RETIRING and holds its threads. -/
def execRetire (c : Fin 1024) (s : State) : Out := .next (s.bzStart 6 c (fun s => s.bzRetire c))

/-- R251. When no thread holds the ID the bezel empties the capsule and raises RETIRED. -/
def execRetireComplete (s : State) : Out := .next s.retireDone

/-- R263. KSWITCH inverts the keeper generation and stops the old generation's threads. -/
def execKswitch (c : Fin 1024) (s : State) : Out := .next (s.bzStart 7 c (fun s => s.bzKswitch c))

/-- R255. REFILL cancels allotments and sets REM to the budget. -/
def execRefill (c : Fin 1024) (s : State) : Out := .next (s.bzStart 8 c (fun s => s.bzRefill c))

/-- R253. An allotment falling to 64 requests a chunk of beats from the capsule's remainder. -/
def execBudgetChunk (k : Fin 512) (s : State) : Out := .next (s.budgetChunk k)

/-- R254. AL and REM are 0: BUDGET is raised or the thread held and HELD raised. -/
def execBudgetExhausted (k : Fin 512) (s : State) : Out := .next (s.budgetOut k)

/-- R255. At a device-time multiple of PERIOD the bezel refills the capsule's budget: the boundary that the ticks have reached
(`State.periodsDue`), once. -/
def execPeriodBoundary (c : Fin 1024) (s : State) : Out := .next (s.periodBoundary c)

/-- R256. A capsule's waiting counter has reached WAITT and it receives 1,024 beats. -/
def execBudgetPromotion (c : Fin 1024) (s : State) : Out := .next (s.promote c)

/-- R261. A write to BZ_PRVA walks a capsule's tables and reports permissions and address. -/
def execProbe (v : BitVec 24) (s : State) : Out := .next (s.taking 3 (s.probe v))

end Sys2Proof.Machine
end

