-- ==== Sys2Proof/Machine/Branch.lean ====
section
/-!
DEFINITION. Compare-and-branch, jumps and calls (R107–R111).
-/

namespace Sys2Proof.Machine

/-- A short compare-and-branch of two registers (R107, R108). -/
def State.branchR (s : State) (k maj ra rb : Nat) (disp : BitVec 10) (cd : Cond) : State :=
  s.xferOp (Iss.xfer k (encB maj ra rb disp.toNat) 1 [ra, rb] false) (fun c => cd.holds (c.rdG ra) (c.rdG rb))
    (fun c => c.pc + sext10 disp) none

/-- A short compare-and-branch with a 4-bit immediate (R107, R108). -/
def State.branchI (s : State) (k maj ra : Nat) (imm : BitVec 4) (disp : BitVec 10) (cd : Cond) : State :=
  s.xferOp (Iss.xfer k (encB maj ra imm.toNat disp.toNat) 1 [ra] false) (fun c => cd.holds (c.rdG ra) (cd.imm imm))
    (fun c => c.pc + sext10 disp) none

/-- A long compare-and-branch to an absolute target (R107, R108). -/
def State.branchL (s : State) (k ra rb cond : Nat) (target : Word) (cd : Cond) : State :=
  s.xferOp (Iss.xfer k (encLB 0x3F ra rb cond) 2 [ra, rb] false) (fun c => cd.holds (c.rdG ra) (c.rdG rb)) (fun _ => target) none

/-- R107. beq branches, after its delay slot, when two registers are equal. -/
def execBeq (k : Fin 512) (ra rb : Fin 16) (disp : BitVec 10) (s : State) : Out :=
  .next (s.branchR k 0x21 ra rb disp .eq)

/-- R107. bne branches when two registers differ. -/
def execBne (k : Fin 512) (ra rb : Fin 16) (disp : BitVec 10) (s : State) : Out :=
  .next (s.branchR k 0x22 ra rb disp .ne)

/-- R107. blt branches on signed less-than. -/
def execBlt (k : Fin 512) (ra rb : Fin 16) (disp : BitVec 10) (s : State) : Out :=
  .next (s.branchR k 0x23 ra rb disp .lt)

/-- R107. bge branches on signed greater-or-equal. -/
def execBge (k : Fin 512) (ra rb : Fin 16) (disp : BitVec 10) (s : State) : Out :=
  .next (s.branchR k 0x24 ra rb disp .ge)

/-- R107. bltu branches on unsigned less-than. -/
def execBltu (k : Fin 512) (ra rb : Fin 16) (disp : BitVec 10) (s : State) : Out :=
  .next (s.branchR k 0x25 ra rb disp .ltu)

/-- R107. bgeu branches on unsigned greater-or-equal. -/
def execBgeu (k : Fin 512) (ra rb : Fin 16) (disp : BitVec 10) (s : State) : Out :=
  .next (s.branchR k 0x26 ra rb disp .geu)

/-- R107. beqi branches when a register equals a 4-bit immediate. -/
def execBeqi (k : Fin 512) (ra : Fin 16) (imm : BitVec 4) (disp : BitVec 10) (s : State) : Out :=
  .next (s.branchI k 0x27 ra imm disp .eq)

/-- R107. bnei branches when a register differs from the immediate. -/
def execBnei (k : Fin 512) (ra : Fin 16) (imm : BitVec 4) (disp : BitVec 10) (s : State) : Out :=
  .next (s.branchI k 0x28 ra imm disp .ne)

/-- R107. blti branches on signed less-than the immediate. -/
def execBlti (k : Fin 512) (ra : Fin 16) (imm : BitVec 4) (disp : BitVec 10) (s : State) : Out :=
  .next (s.branchI k 0x29 ra imm disp .lt)

/-- R107. bgei branches on signed greater-or-equal to the immediate. -/
def execBgei (k : Fin 512) (ra : Fin 16) (imm : BitVec 4) (disp : BitVec 10) (s : State) : Out :=
  .next (s.branchI k 0x2A ra imm disp .ge)

/-- R107. bltui branches on unsigned less-than the immediate. -/
def execBltui (k : Fin 512) (ra : Fin 16) (imm : BitVec 4) (disp : BitVec 10) (s : State) : Out :=
  .next (s.branchI k 0x2B ra imm disp .ltu)

/-- R107. bgeui branches on unsigned greater-or-equal to the immediate. -/
def execBgeui (k : Fin 512) (ra : Fin 16) (imm : BitVec 4) (disp : BitVec 10) (s : State) : Out :=
  .next (s.branchI k 0x2C ra imm disp .geu)

/-- R107. Long compare-and-branch with cond 0b000 branches to an absolute target on equality. -/
def execBeqLong (k : Fin 512) (ra rb : Fin 16) (target : BitVec 24) (s : State) : Out :=
  .next (s.branchL k ra rb 0 target .eq)

/-- R107. Long branch with cond 0b001 on inequality. -/
def execBneLong (k : Fin 512) (ra rb : Fin 16) (target : BitVec 24) (s : State) : Out :=
  .next (s.branchL k ra rb 1 target .ne)

/-- R107. Long branch with cond 0b010 on signed less-than. -/
def execBltLong (k : Fin 512) (ra rb : Fin 16) (target : BitVec 24) (s : State) : Out :=
  .next (s.branchL k ra rb 2 target .lt)

/-- R107. Long branch with cond 0b011 on signed greater-or-equal. -/
def execBgeLong (k : Fin 512) (ra rb : Fin 16) (target : BitVec 24) (s : State) : Out :=
  .next (s.branchL k ra rb 3 target .ge)

/-- R107. Long branch with cond 0b100 on unsigned less-than. -/
def execBltuLong (k : Fin 512) (ra rb : Fin 16) (target : BitVec 24) (s : State) : Out :=
  .next (s.branchL k ra rb 4 target .ltu)

/-- R107. Long branch with cond 0b101 on unsigned greater-or-equal. -/
def execBgeuLong (k : Fin 512) (ra rb : Fin 16) (target : BitVec 24) (s : State) : Out :=
  .next (s.branchL k ra rb 5 target .geu)

/-- R109. j jumps relative after its delay slot. -/
def execJ (k : Fin 512) (disp : BitVec 18) (s : State) : Out :=
  .next (s.xferOp (Iss.xfer k (encJ 0x2D disp.toNat) 1 [] false) (fun _ => true) (fun c => c.pc + sext18 disp) none)

/-- R110. call jumps relative and writes the link into g15 after the slot. -/
def execCall (k : Fin 512) (disp : BitVec 18) (s : State) : Out :=
  .next (s.xferOp (Iss.xfer k (encJ 0x2E disp.toNat) 1 [] false) (fun _ => true) (fun c => c.pc + sext18 disp) (some 15))

/-- R109. jr jumps to G[ra]. A nonzero rd field is ILLEGAL. -/
def execJr (k : Fin 512) (rd ra : Fin 16) (s : State) : Out :=
  .next (s.xferOp (Iss.xfer k (encX 0x2F rd ra 0x00) 1 [ra] (decide (rd ≠ 0))) (fun _ => true) (fun c => c.rdG ra) none)

/-- R109. callr jumps to G[ra] and links into G[rd]. -/
def execCallr (k : Fin 512) (rd ra : Fin 16) (s : State) : Out :=
  .next (s.xferOp (Iss.xfer k (encX 0x2F rd ra 0x01) 1 [ra] false) (fun _ => true) (fun c => c.rdG ra) (some rd))

/-- R109. jl jumps to an absolute 24-bit target. Nonzero rd or ra fields are ILLEGAL. -/
def execJl (k : Fin 512) (rd ra : Fin 16) (target : BitVec 24) (s : State) : Out :=
  .next (s.xferOp (Iss.xfer k (encL 0x3E rd ra 0x00) 2 [] (decide (rd ≠ 0) || decide (ra ≠ 0))) (fun _ => true) (fun _ => target) none)

/-- R109. calll jumps to an absolute target and links into G[rd]. A nonzero ra field is ILLEGAL. -/
def execCalll (k : Fin 512) (rd ra : Fin 16) (target : BitVec 24) (s : State) : Out :=
  .next (s.xferOp (Iss.xfer k (encL 0x3E rd ra 0x01) 2 [] (decide (ra ≠ 0))) (fun _ => true) (fun _ => target) (some rd))

end Sys2Proof.Machine
end

