-- ==== Sys2Proof/Machine/Prec.lean ====
section
/-!
DEFINITION. The precision measurement channels, the cold junction and the bandgaps (R290–R320).
-/

namespace Sys2Proof.Machine

/-! ### Windows -/

/-- A window's bookkeeping at one sample (R309, R337): after `wcnt` consecutive samples outside it the out state is entered, setting OUT, SIDE
and the range flag of register `a` and raising `ev`; after as many inside it is left. A sample on both sides, its low bound above its high one, counts as high: the
spec gives no SIDE for it (DESIGN CHOICE, log 48). -/
def State.window (s : State) (a : Nat) (fOut fSide fRange : Fld) (ev wcnt : Nat) (lo hi : Bool) (x : WinSt) : State × WinSt :=
  let w := max 1 wcnt
  let x := if lo || hi then { outs := min 255 (x.outs + 1), ins := 0 } else { outs := 0, ins := min 255 (x.ins + 1) }
  if s.fb a fOut then (if w ≤ x.ins then s.sf a fOut 0 else s, x)
  else if w ≤ x.outs then ((((s.sf a fOut 1).sf a fSide (b2n hi)).sf a fRange 1).raise ev, x)
  else (s, x)

/-! ### Bandgaps -/

/-- The state of bandgap or time-base source `k` in a status register: 2 bits at 2k. -/
def stF (k : Nat) : Fld := ⟨2 * k + 1, 2 * k⟩

/-- The codes of a ranking register in rank order: a repeated code and the code 3 are empty ranks (R427). -/
def rankOf (v : Word) : List Nat := ([getBits v 1 0, getBits v 3 2, getBits v 5 4].filter (fun k => k != 3)).eraseDups

/-- The state of bandgap `k`: 0 OK, 1 SUSPECT, 2 OUT. -/
def State.bgSt (s : State) (k : Nat) : Nat := s.fl Reg.REF_BGSTAT (stF k)

/-- The selected bandgap. -/
def State.bgSel (s : State) : Nat := s.fl Reg.REF_BGSTAT Reg.REF_BGSTAT_SEL

/-- The selected bandgap is SUSPECT or in DISAGREE (R306). -/
def State.bgDoubt (s : State) : Bool := decide (s.bgSt s.bgSel = 1) || s.fb Reg.REF_BGSTAT Reg.REF_BGSTAT_DIS

/-- Everything being converted against a doubtful bandgap is marked (R306, R336). -/
def State.bgMark (s : State) : State :=
  if s.bgDoubt then
    let m := s.meas
    { s with meas := { m with
        prec := (List.range 24).foldl (fun l n =>
          let x := SMap.get PrecSt.init l n
          if s.fb (Reg.PREC_CHnSTAT n) Reg.PREC_CHnSTAT_RUN then SMap.set PrecSt.init l n { x with sus := true } else l) m.prec
        cj := { m.cj with sus := true }
        cond := (List.range 4).foldl (fun l n =>
          let x := SMap.get InSt.init l n
          if s.fb (Reg.COND_PkCFG n) Reg.COND_PkCFG_EN then SMap.set InSt.init l n { x with sus := true } else l) m.cond
        core := (List.range 4).foldl (fun l k =>
          if s.fb (Reg.SAR_KkSTAT k) Reg.SAR_KkSTAT_BUSY then SMap.set SarSt.init l k { SMap.get SarSt.init l k with sus := true } else l)
          m.core } }
  else s

/-- A selected bandgap that is OUT is replaced by the highest-ranked OK one, else the highest-ranked SUSPECT one; DISAGREE holds the selection
(R317, R318). -/
def State.bgSelect (s : State) : State :=
  if s.bgSt s.bgSel ≠ 2 ∨ s.fb Reg.REF_BGSTAT Reg.REF_BGSTAT_DIS then s
  else
    let r := rankOf (s.rd Reg.REF_BGCTL)
    let pick := match r.find? (fun k => decide (s.bgSt k = 0)) with
      | some k => some k
      | none => r.find? (fun k => decide (s.bgSt k = 1))
    match pick with
    | some k => s.sf Reg.REF_BGSTAT Reg.REF_BGSTAT_SEL k
    | none => s

/-- A bandgap's state changes; entering SUSPECT or OUT raises its event (R320). -/
def State.setBg (s : State) (k n : Nat) : State :=
  if s.bgSt k = n then s
  else (s.sf Reg.REF_BGSTAT (stF k) n).raiseIf (decide (n ≠ 0)) (if n = 1 then 0x090 else 0x091)

/-- The bandgaps that are OUT. -/
def State.bgOuts (s : State) : Nat := ((List.range 3).filter (fun k => decide (s.bgSt k = 2))).length

/-- One bandgap's deviation `d`, in units of 20 µV, in a comparison of all three (R317). -/
def State.bgJudge (s : State) (k : Nat) (d : Int) : State :=
  let m := d.natAbs
  let r15 := if 75 < m then min 1000 (SMap.get 0 s.meas.bg15 k + 1) else 0
  let r12 := if 600 < m then min 10 (SMap.get 0 s.meas.bg12 k + 1) else 0
  let s := { s with meas := { s.meas with bg15 := SMap.set 0 s.meas.bg15 k r15, bg12 := SMap.set 0 s.meas.bg12 k r12 } }
  match s.bgSt k with
  | 0 => if 10 ≤ r12 then s.setBg k 2 else if 75 < m then s.setBg k 1 else s
  | 1 => if 10 ≤ r12 ∨ 1000 ≤ r15 then s.setBg k 2 else if m ≤ 50 then s.setBg k 0 else s
  | _ => s

/-- A comparison (R316–R318): the deviations, in units of 20 µV, and the difference of the last two where one bandgap is OUT; those two are
then no longer judged by their deviations, and their run counts stay as they stand (DESIGN CHOICE, log 47). -/
def State.bgCompare (s : State) (d0 d1 d2 : Word) (diff : Nat) : State :=
  let s := ((s.wr (Reg.REF_BGDk 0) d0).wr (Reg.REF_BGDk 1) d1).wr (Reg.REF_BGDk 2) d2
  let s := match s.bgOuts with
    | 0 => ((s.bgJudge 0 d0.toInt).bgJudge 1 d1.toInt).bgJudge 2 d2.toInt
    | 1 =>
      let dis := s.fb Reg.REF_BGSTAT Reg.REF_BGSTAT_DIS
      if 150 < diff ∧ dis = false then (s.sf Reg.REF_BGSTAT Reg.REF_BGSTAT_DIS 1).raise 0x092
      else if diff ≤ 100 then s.sf Reg.REF_BGSTAT Reg.REF_BGSTAT_DIS 0
      else s
    | _ => s
  s.bgSelect.bgMark

/-- A keeper's write to REF_BGSTAT (R317, R318, R427). -/
def State.bgWrite (s : State) (v : Word) : State :=
  let s := (List.range 3).foldl (fun s k =>
    match getF v (stF k) with
    | 0 =>
      if s.bgSt k = 2 then
        ({ s with meas := { s.meas with bg15 := SMap.set 0 s.meas.bg15 k 0, bg12 := SMap.set 0 s.meas.bg12 k 0 } }).setBg k 0
      else s
    | 2 => s.setBg k 2
    | _ => s) s
  let s := if s.bgOuts = 1 then s else s.sf Reg.REF_BGSTAT Reg.REF_BGSTAT_DIS 0
  s.bgSelect.bgMark

/-! ### Channels -/

/-- Precision channel `n`. -/
def State.prec (s : State) (n : Nat) : PrecSt := SMap.get PrecSt.init s.meas.prec n

/-- Precision channel `n` set. -/
def State.setPrec (s : State) (n : Nat) (x : PrecSt) : State :=
  { s with meas := { s.meas with prec := SMap.set PrecSt.init s.meas.prec n x } }

/-- MODE in force. -/
def PrecSt.mode (x : PrecSt) : Nat := getF x.cfg Reg.PREC_CHnCFG_MODE

/-- REFSEL in force: a bridge channel uses its excitation, 0b11 acts as 0b00 (R293, R296). -/
def PrecSt.refsel (x : PrecSt) : Nat :=
  if x.mode = 2 then 1
  else let r := getF x.cfg Reg.PREC_CHnCFG_REFSEL
    if r = 3 then 0 else r

/-- What the multiplexer of a channel connects to its amplifier (R292). -/
inductive PrecIn where
  | pins
  | short
  | halfRef
  deriving DecidableEq, Repr

/-- The input of a MUX code; 0b11 acts as 0b01 (R292). -/
def precMux (c : Nat) : PrecIn := match c with | 0 => .pins | 2 => .halfRef | _ => .short

/-- The CFG word in force on the mixed-signal die's part of channel `n` (R302, R634). -/
def State.precCfg (s : State) (n : Nat) : Word := s.arrived (Reg.PREC_CHnCFG n) (s.prec n).cfg

/-- The EXC word in force on the mixed-signal die's part of channel `n` (R302, R634). -/
def State.precExc (s : State) (n : Nat) : Word := s.arrived (Reg.PREC_CHnEXC n) (s.prec n).exc

/-- The input that channel `n` converts (R290 stage 1). -/
def State.precInput (s : State) (n : Nat) : PrecIn := precMux (getF (s.precCfg n) Reg.PREC_CHnCFG_MUX)

/-- AINN of channel `n` is held at 1.65 V (R297). -/
def State.ainnHeld (s : State) (n : Nat) : Bool := decide (getF (s.precCfg n) Reg.PREC_CHnCFG_MODE = 3)

/-- Bridge excitation output `k` gives its 3.000 V (R296). -/
def State.bexOn (s : State) (k : Nat) : Bool := (getF (s.an Reg.PREC_BEXCTL) Reg.PREC_BEXCTL_EN).testBit k

/-- The OSR of a RATE code; codes 12 to 15 act as 11 (R299). -/
def precOsr (rate : Nat) : Nat :=
  match rate with
  | 0 => 614400 | 1 => 307200 | 2 => 122880 | 3 => 102400 | 4 => 61440 | 5 => 30720
  | 6 => 15360 | 7 => 7680 | 8 => 6144 | 9 => 3072 | 10 => 1536 | _ => 768

/-- The excitation current of an IEXC code in µA (R294). -/
def iexUa (c : Nat) : Nat :=
  match c with
  | 0 => 10 | 1 => 20 | 2 => 50 | 3 => 100 | 4 => 200 | 5 => 250 | 6 => 500 | 7 => 750 | _ => 1000

/-- The current in µA that channel `n` drives out of its IEX pin; none: high-impedance (R294). It is high-impedance as soon as a cleared EN has
arrived, before the boundary at which the channel stops: R294 and R302 leave which (DESIGN CHOICE, log 49). -/
def State.precIex (s : State) (n : Nat) : Option Nat :=
  if getF (s.an (Reg.PREC_CHnCFG n)) Reg.PREC_CHnCFG_EN = 1 ∧ getF (s.an Reg.PREC_CTL) Reg.PREC_CTL_EN = 1 ∧
      getF (s.precCfg n) Reg.PREC_CHnCFG_MODE = 1 then
    some (iexUa (getF (s.precExc n) Reg.PREC_CHnEXC_IEXC))
  else none

/-- The burnout current in nA of channel `n` (R295). -/
def State.precBurn (s : State) (n : Nat) : Nat :=
  let m := getF (s.precCfg n) Reg.PREC_CHnCFG_MODE
  if m = 0 ∨ m = 3 then
    (match getF (s.precExc n) Reg.PREC_CHnEXC_BURN with | 0 => 0 | 1 => 50 | 2 => 500 | _ => 2000)
  else 0

/-- A decimator starts (R300): nothing in its window. -/
def PrecSt.fresh (x : PrecSt) (doubt : Bool) (sel : Nat) : PrecSt :=
  { x with win := [], setl := if getF x.cfg Reg.PREC_CHnCFG_FILT = 0 then 2 else 0, sus := doubt, bg := sel, off := false }

/-- The banks of channel `n` swap (R314). -/
def State.precSwap (s : State) (n : Nat) : State :=
  let a := Reg.PREC_CHnLCTL n
  let s := (s.sf a Reg.PREC_CHnLCTL_ACT (1 - s.fl a Reg.PREC_CHnLCTL_ACT)).sf a Reg.PREC_CHnLCTL_PEND 0
  (s.inc (Reg.PREC_CHnLSTAT n) Reg.PREC_CHnLSTAT_SWAPS).raise (0x180 + n)

/-- The settings written to channel `n` are applied (R302): the modulator waits EXSET × 100 µs or starts at once; a channel that is not
enabled stops. A swap that waits takes effect as the channel converts no longer (R314). -/
def State.precApply (s : State) (n : Nat) : State :=
  let cfg := s.rd (Reg.PREC_CHnCFG n)
  let exc := s.rd (Reg.PREC_CHnEXC n)
  let s := s.setPrec n (({ s.prec n with cfg := cfg, exc := exc, pend := false }).fresh s.bgDoubt s.bgSel)
  let on := getF cfg Reg.PREC_CHnCFG_EN = 1 ∧ s.fb Reg.PREC_CTL Reg.PREC_CTL_EN
  let wait := getF exc Reg.PREC_CHnEXC_EXSET ≠ 0
  let s := if s.fb (Reg.PREC_CHnLCTL n) Reg.PREC_CHnLCTL_PEND ∧ ¬ (on ∧ ¬ wait) then s.precSwap n else s
  (s.sf (Reg.PREC_CHnSTAT n) Reg.PREC_CHnSTAT_RUN (b2n (decide (on ∧ ¬ wait)))).sf (Reg.PREC_CHnSTAT n) Reg.PREC_CHnSTAT_WAIT
    (b2n (decide (on ∧ wait)))

/-- A write to PREC_CHnCFG or PREC_CHnEXC (R302): a changed restarting field restarts the channel, at its next boundary if it is
converting. -/
def State.precRestart (s : State) (n : Nat) (isExc : Bool) (v : Word) : State :=
  let a := if isExc then Reg.PREC_CHnEXC n else Reg.PREC_CHnCFG n
  let m : Word := if isExc then 0x00003F else 0xFFFF80
  let old := s.rd a
  let s := s.wr a (v &&& (if isExc then 0x00FF3F else 0xFFFFF0))
  if (old ^^^ v) &&& m = 0 then s
  else if s.fb (Reg.PREC_CHnSTAT n) Reg.PREC_CHnSTAT_RUN then s.setPrec n { s.prec n with pend := true }
  else s.precApply n

/-- The EXSET wait of channel `n` ends (R302). -/
def State.exsetEnd (s : State) (n : Nat) : State :=
  let a := Reg.PREC_CHnSTAT n
  if s.fb a Reg.PREC_CHnSTAT_WAIT then
    ((s.setPrec n ((s.prec n).fresh s.bgDoubt s.bgSel)).sf a Reg.PREC_CHnSTAT_WAIT 0).sf a Reg.PREC_CHnSTAT_RUN 1
  else s

/-- A write to PREC_SYNC (R303). A change of the selected bandgap still waits for the boundary (R319). -/
def State.precSync (s : State) (v : Word) : State :=
  (List.range 24).foldl (fun s n =>
    if v.getLsbD n && s.fb (Reg.PREC_CHnSTAT n) Reg.PREC_CHnSTAT_RUN then
      s.setPrec n ((s.prec n).fresh s.bgDoubt (s.prec n).bg)
    else s) s

/-- A write to PREC_CTL (R297, R323): EN starts or stops the channels, CJEN the cold-junction sensor. -/
def State.precCtl (s : State) (v : Word) : State :=
  let old := s.rd Reg.PREC_CTL
  let s := s.wr Reg.PREC_CTL (v &&& 0x3)
  let s := if old.getLsbD 0 = v.getLsbD 0 then s else (List.range 24).foldl (fun s n => s.precApply n) s
  if v.getLsbD 1 && !old.getLsbD 1 then
    ({ s with meas := { s.meas with cj := { CjSt.init with sus := s.bgDoubt } } }).sf Reg.PREC_CJSTAT Reg.PREC_CJSTAT_V 0
  else s

/-- A write to PREC_CHnWCFG restarts both counts; with WEN 0 the channel is not out (R309). -/
def State.precWcfg (s : State) (n : Nat) (v : Word) : State :=
  let s := (s.wr (Reg.PREC_CHnWCFG n) (v &&& 0x8000FF)).setPrec n { s.prec n with wrun := WinSt.init }
  if v.getLsbD 23 then s else s.sf (Reg.PREC_CHnSTAT n) Reg.PREC_CHnSTAT_OUT 0

/-- A write of 1 to PREC_CHnLCTL.SWAP (R314). -/
def State.swapRequest (s : State) (n : Nat) : State :=
  if s.fb (Reg.PREC_CHnLCTL n) Reg.PREC_CHnLCTL_PEND then s
  else if s.fb (Reg.PREC_CHnSTAT n) Reg.PREC_CHnSTAT_RUN then s.sf (Reg.PREC_CHnLCTL n) Reg.PREC_CHnLCTL_PEND 1
  else s.precSwap n

/-- A write to breakpoint `i` of bank `b` of channel `n` (R315). -/
def State.breakpoint (s : State) (n b i : Nat) (v : Word) : State :=
  let a := Reg.PREC_CHnLCTL n
  if s.fl a Reg.PREC_CHnLCTL_ACT = b ∨ s.fb a Reg.PREC_CHnLCTL_PEND then
    ((s.inc (Reg.PREC_CHnLSTAT n) Reg.PREC_CHnLSTAT_WREF).incW Reg.PREC_WREFCNT).raise 0x199
  else s.wr (Reg.PREC_CHnLb n b i) v

/-- The table result of R313. -/
def State.linear (s : State) (n b : Nat) (t : Int) : Int :=
  let u := (t + 0x800000).toNat
  let i := u / 65536
  let f : Int := (u % 65536 : Nat)
  let y0 := (s.rd (Reg.PREC_CHnLb n b i)).toInt
  let y1 := (s.rd (Reg.PREC_CHnLb n b (i + 1))).toInt
  satQ (y0 + ((y1 - y0) * f + 0x8000) / 0x10000)

/-- Stage 6 of R290: the compensated value, and whether the sample carries CJF and SREF of the cold junction (R298). -/
def State.coldJunction (s : State) (n : Nat) (x : PrecSt) (c : Int) : Int × Bool × Bool :=
  if x.mode = 3 ∧ s.fb (Reg.PREC_CHnCFG n) Reg.PREC_CHnCFG_CJC then
    let cj := s.meas.cj
    let tcj : Int := match cj.good with | some r => r.1.toInt | none => 102400
    let t := satQ (c + (s.rd (Reg.PREC_CHnCJ0 n)).toInt + (s.rd (Reg.PREC_CHnCJK n)).toInt * (tcj - 102400) / 2 ^ 20)
    let old := match cj.good with | some r => decide (3000000 ≤ (s.time.dt - BitVec.ofNat 48 r.2.1).toNat) | none => true
    (t, cj.bad || old, match cj.good with | some r => r.2.2 | none => false)
  else (c, false, false)

/-- The sample carries OPEN (R294–R296): `lead` is an excitation pin above its compliance limit. -/
def State.precOpen (s : State) (x : PrecSt) (r : Int) (ovl lead : Bool) : Bool :=
  (decide (x.mode = 1) && lead) ||
  (decide (x.mode = 0 ∨ x.mode = 3) && decide (getF x.exc Reg.PREC_CHnEXC_BURN ≠ 0) && ovl && decide (0 ≤ r)) ||
  (decide (x.refsel = 1) && (s.fl Reg.PREC_BEXSTAT Reg.PREC_BEXSTAT_LIMNOW).testBit (getF x.cfg Reg.PREC_CHnCFG_REFIDX))

/-- A conversion boundary of channel `n` (R290–R311): `r0` is the decimator's value before its saturation, `ovl` an overloaded modulator,
`lead` an excitation pin above its compliance limit, `age` the ticks since the first tick at least 10 ns after the boundary. -/
def State.precSample (s : State) (n : Nat) (r0 : Int) (ovl lead : Bool) (age : Nat) : State :=
  let st := Reg.PREC_CHnSTAT n
  if s.fb st Reg.PREC_CHnSTAT_RUN = false then s
  else
    let x := s.prec n
    let r := if ovl then (if r0 < 0 then -0x7FFFFF else 0x7FFFFF) else satQ r0
    let ovr := ovl || decide (r ≠ r0)
    let isOpen := s.precOpen x r0 ovl lead
    let c := satQ ((r - (s.rd (Reg.PREC_CHnOFS n)).toInt) * (s.rd (Reg.PREC_CHnGAIN n)).toNat / 2 ^ 22)
    let (t, cjf, cjs) := s.coldJunction n x c
    let s := if s.fb (Reg.PREC_CHnLCTL n) Reg.PREC_CHnLCTL_PEND then s.precSwap n else s
    let lin := s.fb (Reg.PREC_CHnCFG n) Reg.PREC_CHnCFG_LINEN
    let bank := s.fl (Reg.PREC_CHnLCTL n) Reg.PREC_CHnLCTL_ACT
    let y := if lin then s.linear n bank t else t
    let setl := decide (0 < x.setl)
    let wen := s.fb (Reg.PREC_CHnWCFG n) Reg.PREC_CHnWCFG_WEN
    let hi := wen && !setl && decide ((s.rd (Reg.PREC_CHnWHI n)).toInt < y)
    let lo := wen && !setl && decide (y < (s.rd (Reg.PREC_CHnWLO n)).toInt)
    let depth := if getF x.cfg Reg.PREC_CHnCFG_FILT = 0 then 3 else 1
    let inner := decide (x.refsel = 0)
    let win := ((x.sus, x.bg) :: x.win).take depth
    let sref := (inner && win.any (fun p => p.1)) || cjs
    let rchg := inner && win.any (fun p => decide (p.2 ≠ x.bg))
    let seq := (x.seq + 1) % 256
    let q := w24 (b2n sref * 2 ^ 23 + b2n rchg * 2 ^ 22 + b2n setl * 2 ^ 21 + b2n ovr * 2 ^ 20 + b2n isOpen * 2 ^ 19 + b2n hi * 2 ^ 18 +
      b2n lo * 2 ^ 17 + b2n lin * 2 ^ 16 + b2n (lin && decide (bank = 1)) * 2 ^ 15 + b2n cjf * 2 ^ 13 + n * 2 ^ 8 + seq)
    let stamp := w24 (s.time.dt - BitVec.ofNat 48 age).toNat
    let s := (((s.wr (Reg.PREC_CHnDATA n) (i24 y)).wr (Reg.PREC_CHnQUAL n) q).wr (Reg.PREC_CHnTIME n) stamp).wr (Reg.PREC_CHnRAW n) (i24 t)
    let s := s.wr (Reg.PREC_CHnCNT n) (s.rd (Reg.PREC_CHnCNT n) + 1)
    let s := if ovr then s.inc st Reg.PREC_CHnSTAT_OVRCNT else s
    let bad := ovr || isOpen
    let s := if bad && !x.frun then (s.sf st Reg.PREC_CHnSTAT_FAULTF 1).raise (0x168 + n) else s
    let (s, wrun) := if wen && !setl then
        s.window st Reg.PREC_CHnSTAT_OUT Reg.PREC_CHnSTAT_SIDE Reg.PREC_CHnSTAT_RANGEF (0x138 + n)
          (s.fl (Reg.PREC_CHnWCFG n) Reg.PREC_CHnWCFG_WCNT) lo hi x.wrun
      else (s, x.wrun)
    let s := s.setPrec n { x with setl := x.setl - 1, win := win, sus := s.bgDoubt, bg := s.bgSel, wrun := wrun, seq := seq, frun := bad
                                  off := false }
    let s := s.clMeas 0 n (i24 y) bad
    let ws := if s.fb (Reg.PREC_CHnCFG n) Reg.PREC_CHnCFG_PKT then
        [w24 (2 ^ 20 + n * 2 ^ 15 + seq * 2 ^ 7 + 3), i24 y, q, stamp] else [i24 y]
    let s := s.bqPush n ws (0x120 + n)
    if x.pend then s.precApply n else s

/-- The stale timer of channel `n` expires (R310, R372). -/
def State.precStale (s : State) (n : Nat) : State :=
  let x := s.prec n
  if s.fb (Reg.PREC_CHnCFG n) Reg.PREC_CHnCFG_EN && s.fb Reg.PREC_CTL Reg.PREC_CTL_EN && !x.off then
    let st := Reg.PREC_CHnSTAT n
    let s := (s.sf (Reg.PREC_CHnQUAL n) (bitF 14) 1).sf st Reg.PREC_CHnSTAT_STALEF 1
    let s := ((s.inc st Reg.PREC_CHnSTAT_STALECNT).raise (0x150 + n)).setPrec n { x with off := true }
    s.clMeas 0 n (s.rd (Reg.PREC_CHnDATA n)) true
  else s

/-- The cold-junction sensor makes a reading, in units of 2^−12 °C (R297, R298). -/
def State.cjReading (s : State) (v : Word) : State :=
  if s.fb Reg.PREC_CTL Reg.PREC_CTL_CJEN = false then s
  else
    let cj := s.meas.cj
    let s := (s.wr Reg.PREC_CJT v).sf Reg.PREC_CJSTAT Reg.PREC_CJSTAT_SREF (b2n cj.sus)
    if v.toInt < -204800 ∨ 614400 < v.toInt then
      (({ s with meas := { s.meas with cj := { cj with bad := true, sus := s.bgDoubt } } }).sf Reg.PREC_CJSTAT Reg.PREC_CJSTAT_FAIL 1).raise
        0x198
    else
      ({ s with meas := { s.meas with cj := { good := some (v, s.time.dt.toNat, cj.sus), bad := false, sus := s.bgDoubt } } }).sf
        Reg.PREC_CJSTAT Reg.PREC_CJSTAT_V 1

/-- A bridge excitation output limits its current (R296). -/
def State.bexLimit (s : State) (k : Nat) : State :=
  if s.bexOn k && !(s.fb Reg.PREC_BEXSTAT (bitF (4 + k))) then
    ((s.sf Reg.PREC_BEXSTAT (bitF (4 + k)) 1).sf Reg.PREC_BEXSTAT (bitF k) 1).raise 0x19A
  else s

/-- A write to PREC_BEXCTL (R296): an output that is off limits nothing. -/
def State.bexCtl (s : State) (v : Word) : State :=
  let s := s.wr Reg.PREC_BEXCTL (v &&& 0xF)
  (List.range 4).foldl (fun s k => if v.getLsbD k then s else s.sf Reg.PREC_BEXSTAT (bitF (4 + k)) 0) s

/-! ### Commands -/

/-- R301. At a conversion boundary a channel corrects, linearises, windows, stamps and delivers a sample. `r` is the decimator's value
before saturation, signed; `ovl` an overload during the window; `lead` the excitation pin above its compliance limit; `age` the ticks since
the one whose device time is the stamp, the first at least 10 ns after the boundary. -/
def execPrecSample (n : Fin 24) (r : BitVec 25) (ovl lead : Bool) (age : BitVec 8) (s : State) : Out :=
  .next (s.gate 7 (s.precSample n r.toInt ovl lead age.toNat))

/-- R302. A write to PREC_CHnCFG, or to PREC_CHnEXC with `isExc`, that changes a restarting field applies at the next boundary. -/
def execPrecRestart (n : Fin 24) (isExc : Bool) (v : BitVec 24) (s : State) : Out :=
  .next (s.gate 7 (s.sends (if isExc then Reg.PREC_CHnEXC n else Reg.PREC_CHnCFG n) (s.precRestart n isExc v)))

/-- R302. A channel's EXSET wait ends and its decimator restarts. -/
def execExsetWaitEnd (n : Fin 24) (s : State) : Out := .next (s.gate 7 (s.exsetEnd n))

/-- R303. A write to PREC_SYNC restarts the named decimators on one DSM cycle. -/
def execPrecSync (v : BitVec 24) (s : State) : Out := .next (s.gate 7 (s.precSync v))

/-- R314. Writing PREC_CHnLCTL.SWAP requests a linearisation bank swap. -/
def execSwapRequest (n : Fin 24) (s : State) : Out := .next (s.gate 7 (s.swapRequest n))

/-- R315. A write to breakpoint `i` of bank `b`; one of the active or pending bank is refused and counted. -/
def execPrecWref (n : Fin 24) (b : Fin 2) (i : Fin 257) (v : BitVec 24) (s : State) : Out := .next (s.gate 7 (s.breakpoint n b i v))

/-- R310. A channel's stale timer expires, setting STALE and raising PREC_STALEn. -/
def execPrecStale (n : Fin 24) (s : State) : Out := .next (s.gate 7 (s.precStale n))

/-- R297. The cold-junction sensor converts and updates PREC_CJT or flags an invalid reading. -/
def execColdJunctionReading (v : BitVec 24) (s : State) : Out := .next (s.gate 7 (s.cjReading v))

/-- R296. A bridge excitation output limits its current and raises PREC_BEXLIM. -/
def execPrecBexlim (k : Fin 4) (s : State) : Out := .next (s.gate 7 (s.bexLimit k))

/-- R296. A bridge excitation output stops limiting its current, LIMNOW clears and its ratiometric channels stop carrying OPEN. -/
def execBexLimitEnd (k : Fin 4) (s : State) : Out := .next (s.gate 7 (s.sf Reg.PREC_BEXSTAT (bitF (4 + k)) 0))

/-- R316. Every 10 ms each bandgap's deviation is measured, in units of 20 µV, and states, DISAGREE and selection updated. `diff` is the
difference of the two that remain where one is OUT. -/
def execBandgapComparison (d0 d1 d2 diff : BitVec 24) (s : State) : Out := .next (s.gate 0 (s.bgCompare d0 d1 d2 diff.toNat))

/-- R317. A keeper write to REF_BGSTAT returns a bandgap to OK or makes it OUT. -/
def execBandgapStateWrite (v : BitVec 24) (s : State) : Out := .next (s.gate 0 (s.sends Reg.REF_BGSTAT (s.bgWrite v)))

end Sys2Proof.Machine
end

