-- ==== Sys2Proof/Machine/Fast.lean ====
section
/-!
DEFINITION. The crossing converters, the synchronous samplers, the pulse inputs and the conductivity probes (R324–R350).
-/

namespace Sys2Proof.Machine

/-! ### Crossing converters -/

/-- Crossing converter `n`. -/
def State.xing (s : State) (n : Nat) : XingSt := SMap.get XingSt.init s.meas.xing n

/-- Crossing converter `n` set. -/
def State.setXing (s : State) (n : Nat) (x : XingSt) : State :=
  { s with meas := { s.meas with xing := SMap.set XingSt.init s.meas.xing n x } }

/-- Crossing converter `n` runs: XING_CTL.EN and its own EN. -/
def State.xingOn (s : State) (n : Nat) : Bool := s.fb Reg.XING_CTL Reg.XING_CTL_EN && s.fb (Reg.XING_CHnCFG n) Reg.XING_CHnCFG_EN

/-- LMAXe (R324). -/
def State.xingMax (s : State) (n : Nat) : Nat :=
  min (s.fl (Reg.XING_CHnSTEP n) Reg.XING_CHnSTEP_LMAX)
    ((65535 - s.fl (Reg.XING_CHnCFG n) Reg.XING_CHnCFG_LBASE) / max 1 (s.fl (Reg.XING_CHnSTEP n) Reg.XING_CHnSTEP_LSTEP))

/-- The level of converter `n`. -/
def State.xingL (s : State) (n : Nat) : Nat := s.fl (Reg.XING_CHnLVL n) Reg.XING_CHnLVL_LVL

/-- The thresholds of the up and the down comparator as DAC codes; none where the comparator is absent (R324, R325). -/
def State.xingThresholds (s : State) (n : Nat) : Option Nat × Option Nat :=
  let step := max 1 (s.fl (Reg.XING_CHnSTEP n) Reg.XING_CHnSTEP_LSTEP)
  let base := s.fl (Reg.XING_CHnCFG n) Reg.XING_CHnCFG_LBASE
  let h := min (s.fl (Reg.XING_CHnRATE n) Reg.XING_CHnRATE_HYST) (step - 1)
  let l := s.xingL n
  (if l < s.xingMax n then some (min 65535 (base + (l + 1) * step + h)) else none,
   if l = 0 then none else some (base + l * step - h))

/-- A report of converter `n` (R329–R331): its word, or its packet, enters the queue; where the queue is full it is discarded, LOSTCNT
counts and XING_OVFn is raised. The minimum interval counts from a report pushed, and the level last reported is the one it gave (R328). -/
def State.xingReport (s : State) (n : Nat) (dir mrg : Bool) (rk tq : Nat) (stamp : Word) : State :=
  let x := s.xing n
  let l := s.xingL n
  let w := w24 (b2n dir * 2 ^ 22 + tq * 2 ^ 20 + b2n mrg * 2 ^ 19 + b2n x.lost * 2 ^ 18 + rk * 2 ^ 16 + x.cnt % 16 * 2 ^ 12 + l)
  let ws := if s.fb (Reg.XING_CHnCFG n) Reg.XING_CHnCFG_PKT then
      [w24 (2 * 2 ^ 20 + n * 2 ^ 15 + x.cnt % 256 * 2 ^ 7 + 2), w, stamp] else [w]
  let full := s.bqFull (28 + n) ws.length
  let x := { x with held := false, cnt := (x.cnt + 1) % 256, lost := full, off := false }
  let s := s.setXing n (if full then x else { x with rep := l, at? := some s.time.dt.toNat })
  let s := if full then (s.inc (Reg.XING_CHnSTAT n) Reg.XING_CHnSTAT_LOSTCNT).raise (0x1E0 + n) else s
  s.bqPush (28 + n) ws (0x1A0 + n)

/-- The window of converter `n` (R334). -/
def State.xingWindow (s : State) (n : Nat) : State :=
  let a := Reg.XING_CHnSTAT n
  let lo := s.fl (Reg.XING_CHnWIN n) Reg.XING_CHnWIN_LWLO
  let hi := s.fl (Reg.XING_CHnWIN n) Reg.XING_CHnWIN_LWHI
  let l := s.xingL n
  if hi < lo then s.sf a Reg.XING_CHnSTAT_OUT 0
  else if lo ≤ l ∧ l ≤ hi then s.sf a Reg.XING_CHnSTAT_OUT 0
  else if s.fb a Reg.XING_CHnSTAT_OUT then s
  else ((((s.sf a Reg.XING_CHnSTAT_OUT 1).sf a Reg.XING_CHnSTAT_SIDE (b2n (decide (hi < l)))).sf a Reg.XING_CHnSTAT_RANGEF 1).raise (0x1B0 + n))

/-- A counted crossing of converter `n`, first seen `age` ticks ago (R325, R327, R328, R334, R372). -/
def State.xingCross (s : State) (n : Nat) (up : Bool) (age : Nat) : State :=
  let l := s.xingL n
  if !s.xingOn n || s.fb (Reg.XING_CHnSTAT n) Reg.XING_CHnSTAT_ACQ || !s.fb (Reg.XING_CHnLVL n) Reg.XING_CHnLVL_V ||
      (if up then decide (s.xingMax n ≤ l) else decide (l = 0)) then s
  else
    let l := if up then l + 1 else l - 1
    let tq := s.tqAt (age + 15)
    let stamp := w24 (s.dtBits 23 0) - w24 (age + 15)
    let s := s.wr (Reg.XING_CHnLVL n) (w24 (2 ^ 23 + b2n up * 2 ^ 22 + l))
    let s := (s.wr (Reg.XING_CHnTIME n) stamp).xingWindow n
    let s := s.clMeas 1 n (w24 l) (s.xing n).bad
    let x := s.xing n
    let miniv := max 25 (s.fl (Reg.XING_CHnRATE n) Reg.XING_CHnRATE_MINIV)
    let early := match x.at? with | some t0 => decide ((s.time.dt - BitVec.ofNat 48 t0).toNat < miniv) | none => false
    if x.held || early then (s.setXing n { x with held := true, tq := tq }).inc (Reg.XING_CHnSTAT n) Reg.XING_CHnSTAT_MRGCNT
    else (s.setXing n { x with tq := tq }).xingReport n up false 0 tq stamp

/-- The minimum report interval of converter `n` ends (R328). -/
def State.minivEnd (s : State) (n : Nat) : State :=
  let x := s.xing n
  if x.held = false then s
  else
    let l := s.xingL n
    let s := s.setXing n { x with held := false }
    if l = x.rep then s else s.xingReport n (decide (x.rep < l)) true 0 x.tq (s.rd (Reg.XING_CHnTIME n))

/-- Converter `n` starts to acquire its level (R326). -/
def State.xingAcquire (s : State) (n : Nat) : State :=
  if s.xingOn n then s.sf (Reg.XING_CHnSTAT n) Reg.XING_CHnSTAT_ACQ 1 else s

/-- Acquisition ends at a level (R326, R334, R372). -/
def State.acqDone (s : State) (n level : Nat) : State :=
  if s.fb (Reg.XING_CHnSTAT n) Reg.XING_CHnSTAT_ACQ = false then s
  else
    let s := s.sf (Reg.XING_CHnSTAT n) Reg.XING_CHnSTAT_ACQ 0
    let s := (s.sf (Reg.XING_CHnLVL n) Reg.XING_CHnLVL_LVL (min level (s.xingMax n))).sf (Reg.XING_CHnLVL n) Reg.XING_CHnLVL_V 1
    let s := (s.setXing n { s.xing n with bad := false }).xingWindow n
    let s := s.clMeas 1 n (w24 (s.xingL n)) false
    s.xingReport n false false 1 (s.fl Reg.TIME_STAT Reg.TIME_STAT_TQ) (w24 (s.dtBits 23 0))

/-- The quiet timer of converter `n` expires; `ok`: both comparators pass the test (R333, R372). -/
def State.xingQuiet (s : State) (n : Nat) (ok : Bool) : State :=
  if !s.xingOn n || decide (s.fl (Reg.XING_CHnTMO n) Reg.XING_CHnTMO_TMO = 0) || (s.xing n).off then s
  else
    let a := Reg.XING_CHnSTAT n
    let s := ((s.sf a Reg.XING_CHnSTAT_QUIETF 1).raise (0x1C0 + n)).setXing n { s.xing n with off := true }
    if s.fb (Reg.XING_CHnCFG n) Reg.XING_CHnCFG_HBEN = false then s
    else if ok then s.xingReport n false false 2 (s.fl Reg.TIME_STAT Reg.TIME_STAT_TQ) (w24 (s.dtBits 23 0))
    else
      let s := ((s.sf a Reg.XING_CHnSTAT_FAULTF 1).raise (0x1D0 + n)).setXing n { s.xing n with bad := true }
      (s.clMeas 1 n (w24 (s.xingL n)) true).xingAcquire n

/-- A write to XING_CTL, XING_CHnCFG or XING_CHnSTEP (R326): acquisition where a converter comes to run, where STEP is written, where LBASE
changes; a stopped converter acquires nothing. -/
def State.xingWrite (s : State) (a : Nat) (v : Word) : State :=
  let was := (List.range 16).map (fun n => s.xingOn n)
  let old := s.rd a
  let s := s.wr a (if a = Reg.XING_CTL then v &&& 1 else if a % 16 = 0 then v &&& 0xEFFFFF else v)
  (List.range 16).foldl (fun s n =>
    if !s.xingOn n then s.sf (Reg.XING_CHnSTAT n) Reg.XING_CHnSTAT_ACQ 0
    else if !was.getD n false || decide (a = Reg.XING_CHnSTEP n) || (decide (a = Reg.XING_CHnCFG n) && decide ((old ^^^ v) &&& 0xFFFF ≠ 0)) then
      s.xingAcquire n
    else s) s

/-! ### The quality word and sample packets -/

/-- The quality word of SAR, PULSE and COND (R336). -/
def qualWord (sref x ovr hi lo stale : Bool) (n seq : Nat) : Word :=
  w24 (b2n sref * 2 ^ 23 + b2n x * 2 ^ 22 + b2n ovr * 2 ^ 20 + b2n hi * 2 ^ 18 + b2n lo * 2 ^ 17 + b2n stale * 2 ^ 14 + n * 2 ^ 8 + seq)

/-- The words a sample pushes: the value, or a KIND 1 packet of source code `src` (R335). -/
def sampleWords (pkt : Bool) (src seq : Nat) (y q stamp : Word) : List Word :=
  if pkt then [w24 (2 ^ 20 + src * 2 ^ 15 + seq * 2 ^ 7 + 3), y, q, stamp] else [y]

/-- The value lies above or below a window that is enabled. -/
def hiLo (wen : Bool) (lo hi : Word) (y : Int) : Bool × Bool := (wen && decide (hi.toInt < y), wen && decide (y < lo.toInt))

/-! ### Synchronous samplers -/

/-- Sampler core `k`. -/
def State.core (s : State) (k : Nat) : SarSt := SMap.get SarSt.init s.meas.core k

/-- Sampler core `k` set. -/
def State.setCore (s : State) (k : Nat) (x : SarSt) : State :=
  { s with meas := { s.meas with core := SMap.set SarSt.init s.meas.core k x } }

/-- SAR input `n`. -/
def State.sarIn (s : State) (n : Nat) : InSt := SMap.get InSt.init s.meas.sar n

/-- SAR input `n` set. -/
def State.setSarIn (s : State) (n : Nat) (x : InSt) : State :=
  { s with meas := { s.meas with sar := SMap.set InSt.init s.meas.sar n x } }

/-- The code of an input voltage in µV (R339). -/
def sarCode (uv : Int) : Int := max (-8192) (min 8191 ((2 * (uv - 1500000) * 16384 + 3000000) / 6000000))

/-- The voltage in µV that core `k` converts in a step on IN code `i` (R339, R341, R389): a shunt amplifier's output, from the voltage `u` across
its shunt; the voltage `u` of the pin; or an internal voltage, off by `u`. -/
def State.sarVolts (s : State) (k i : Nat) (u : Int) : Int :=
  if i < 3 then (if getF (s.an (Reg.SAR_INnCFG (3 * k + i))) Reg.SAR_INnCFG_SRC = 0 then s.shuntAmp k u else u)
  else if i = 5 then 2250000 + u else 1500000 + u

/-- Core `k` is enabled. -/
def State.coreOn (s : State) (k : Nat) : Bool := s.fb Reg.SAR_CTL (bitF k)

/-- A trigger of core `k` (R341, R342, R344). -/
def State.sarTrigger (s : State) (k : Nat) : State :=
  if !s.coreOn k || decide (9 < s.fl (Reg.SAR_KkCFG k) Reg.SAR_KkCFG_TSEL) then s
  else
    let a := Reg.SAR_KkSTAT k
    let s := s.setCore k { s.core k with off := false }
    if s.fb a Reg.SAR_KkSTAT_BUSY then
      let s := ((s.inc a Reg.SAR_KkSTAT_TLOSTCNT).sf a Reg.SAR_KkSTAT_TLOSTF 1).raise (0x218 + k)
      (List.range 3).foldl (fun s i => s.setSarIn (3 * k + i) { s.sarIn (3 * k + i) with x := true }) s
    else
      ((s.setCore k { step := 0, off := false, sus := s.bgDoubt }).sf a Reg.SAR_KkSTAT_BUSY 1).sf a Reg.SAR_KkSTAT_RUNS (s.fl a Reg.SAR_KkSTAT_RUNS + 1)

/-- An input step delivers code `c`, taken `age` ticks ago (R339, R343); `sus`: a doubtful bandgap was selected meanwhile (R336). -/
def State.sarSample (s : State) (n : Nat) (c : Int) (age : Nat) (push sus : Bool) : State :=
  let x := s.sarIn n
  let cfg := Reg.SAR_INnCFG n
  let v := (c * 1024 - (s.rd (Reg.SAR_INnOFS n)).toInt) * (s.rd (Reg.SAR_INnGAIN n)).toNat / 2 ^ 22
  let w := satQ v
  let ovr := decide (c = -8192 ∨ c = 8191 ∨ w ≠ v)
  let wen := s.fb cfg Reg.SAR_INnCFG_WEN
  let (hi, lo) := hiLo wen (s.rd (Reg.SAR_INnWLO n)) (s.rd (Reg.SAR_INnWHI n)) w
  let seq := (x.seq + 1) % 256
  let q := qualWord sus x.x ovr hi lo false n seq
  let stamp := w24 (s.dtBits 23 0) - w24 age
  let s := ((s.wr (Reg.SAR_INnDATA n) (i24 w)).wr (Reg.SAR_INnQUAL n) q).wr (Reg.SAR_INnTIME n) stamp
  let st := Reg.SAR_INnSTAT n
  let s := if ovr then s.inc st Reg.SAR_INnSTAT_OVRCNT else s
  let (s, wrun) := if wen then
      s.window st Reg.SAR_INnSTAT_OUT Reg.SAR_INnSTAT_SIDE Reg.SAR_INnSTAT_RANGEF (0x20C + n) (s.fl cfg Reg.SAR_INnCFG_WCNT) lo hi x.wrun
    else (s, x.wrun)
  let s := s.setSarIn n { x with seq := seq, x := false, wrun := wrun }
  let s := s.clMeas 2 n (i24 w) ovr
  if push then s.bqPush (52 + n) (sampleWords (s.fb cfg Reg.SAR_INnCFG_PKT) 24 seq (i24 w) q stamp) (0x200 + n) else s

/-- A conversion step of core `k` completes (R341, R343); `us` are the voltages of its 2^AVG conversions (`State.sarVolts`), the first taken `age`
ticks ago. After step NSTEP the run ends, and a continuous core starts the next (R340). -/
def State.sarStep (s : State) (k : Nat) (us : List Int) (age : Nat) : State :=
  let a := Reg.SAR_KkSTAT k
  if s.fb a Reg.SAR_KkSTAT_BUSY = false then s
  else
    let j := (s.core k).step
    let avg := s.fl (Reg.SAR_KkCFG k) Reg.SAR_KkCFG_AVG
    let i := s.fl (Reg.SAR_KkSTEPj k j) Reg.SAR_KkSTEPj_IN
    let c := ((us.take (2 ^ avg)).map (fun u => sarCode (s.sarVolts k i u))).foldl (· + ·) 0 / ((2 ^ avg : Nat) : Int)
    let s := if i < 3 then s.sarSample (3 * k + i) c age (s.fb (Reg.SAR_KkSTEPj k j) Reg.SAR_KkSTEPj_PUSH) (s.core k).sus
      else s.wr (Reg.SAR_KkCHK k) (i24 (satQ (c * 1024)))
    if j < s.fl (Reg.SAR_KkCFG k) Reg.SAR_KkCFG_NSTEP then s.setCore k { s.core k with step := j + 1, sus := s.bgDoubt }
    else
      let s := (s.setCore k { s.core k with step := 0 }).sf a Reg.SAR_KkSTAT_BUSY 0
      if s.fl (Reg.SAR_KkCFG k) Reg.SAR_KkCFG_TSEL = 9 then s.sarTrigger k else s

/-- A write to SAR_SWTRIG (R340). -/
def State.sarSw (s : State) (v : Word) : State :=
  (List.range 4).foldl (fun s k =>
    if v.getLsbD k && decide (s.fl (Reg.SAR_KkCFG k) Reg.SAR_KkCFG_TSEL = 8) then s.sarTrigger k else s) s

/-- A write to SAR_CTL: a disabled core runs nothing. -/
def State.sarCtl (s : State) (v : Word) : State :=
  let s := s.wr Reg.SAR_CTL (v &&& 0xF)
  (List.range 4).foldl (fun s k =>
    if v.getLsbD k then s else (s.setCore k { s.core k with step := 0 }).sf (Reg.SAR_KkSTAT k) Reg.SAR_KkSTAT_BUSY 0) s

/-- The stale timer of core `k` expires (R338, R344, R372). -/
def State.sarStale (s : State) (k : Nat) : State :=
  if !s.coreOn k || decide (s.fl (Reg.SAR_KkCFG k) Reg.SAR_KkCFG_TMO = 0) || (s.core k).off then s
  else
    let s := ((s.sf (Reg.SAR_KkSTAT k) Reg.SAR_KkSTAT_STALEF 1).setCore k { s.core k with off := true }).raise (0x21C + k)
    (List.range 3).foldl (fun s i =>
      let n := 3 * k + i
      (s.sf (Reg.SAR_INnQUAL n) (bitF 14) 1).clMeas 2 n (s.rd (Reg.SAR_INnDATA n)) true) s

/-- A write to SAR_INnCFG restarts the window's counts; with WEN 0 the input is not out (R309, R337). -/
def State.sarInCfg (s : State) (n : Nat) (v : Word) : State :=
  let s := (s.wr (Reg.SAR_INnCFG n) (v &&& 0xE000FF)).setSarIn n { s.sarIn n with wrun := WinSt.init }
  if v.getLsbD 21 then s else s.sf (Reg.SAR_INnSTAT n) Reg.SAR_INnSTAT_OUT 0

/-- Bridge `b` reaches its trigger point A or B (R387, R340): the cores that it triggers start. -/
def State.brPoint (s : State) (b : Nat) (isB : Bool) : State :=
  let x := s.br b
  let cyc := s.fl (if isB then Reg.BR_bTRGB b else Reg.BR_bTRGA b) Reg.BR_bTRGA_CYC
  if x.count && decide (cyc < x.per) then
    (List.range 4).foldl (fun s k =>
      if s.fl (Reg.SAR_KkCFG k) Reg.SAR_KkCFG_TSEL = 2 * b + b2n isB then s.sarTrigger k else s) s
  else s

/-! ### Pulse inputs -/

/-- Pulse input `n`. -/
def State.pulse (s : State) (n : Nat) : InSt := SMap.get InSt.init s.meas.pulse n

/-- Pulse input `n` set. -/
def State.setPulse (s : State) (n : Nat) (x : InSt) : State :=
  { s with meas := { s.meas with pulse := SMap.set InSt.init s.meas.pulse n x } }

/-- The edges of pulse input `n`. -/
def State.edge (s : State) (n : Nat) : PulseSt := SMap.get PulseSt.init s.meas.edge n

/-- The edges of pulse input `n` set. -/
def State.setEdge (s : State) (n : Nat) (x : PulseSt) : State :=
  { s with meas := { s.meas with edge := SMap.set PulseSt.init s.meas.edge n x } }

/-- Pulse input `n` is enabled. -/
def State.pulseOn (s : State) (n : Nat) : Bool := s.fb (Reg.PULSE_INnCFG n) Reg.PULSE_INnCFG_EN

/-- MODE of pulse input `n`; 3 acts as 0 (R346). -/
def State.pulseMode (s : State) (n : Nat) : Nat :=
  let m := s.fl (Reg.PULSE_INnCFG n) Reg.PULSE_INnCFG_MODE
  if m = 3 then 0 else m

/-- A report of pulse input `n` (R335–R337, R346): `stale` marks the report of its stale timer. -/
def State.pulseReport (s : State) (n v : Nat) (stamp : Word) (stale : Bool) : State :=
  let x := s.pulse n
  let y := min v 0x7FFFFF
  let ovr := decide (y = 0x7FFFFF)
  let hyg := Reg.PULSE_INnHYG n
  let wen := s.fb hyg Reg.PULSE_INnHYG_WEN
  let (hi, lo) := hiLo wen (s.rd (Reg.PULSE_INnWLO n)) (s.rd (Reg.PULSE_INnWHI n)) y
  let seq := (x.seq + 1) % 256
  let q := qualWord false x.x ovr hi lo stale n seq
  let s := ((s.wr (Reg.PULSE_INnDATA n) (w24 y)).wr (Reg.PULSE_INnQUAL n) (q ||| w24 (b2n x.off * 2 ^ 14))).wr (Reg.PULSE_INnTIME n) stamp
  let st := Reg.PULSE_INnSTAT n
  let (s, wrun) := if wen then
      s.window st Reg.PULSE_INnSTAT_OUT Reg.PULSE_INnSTAT_SIDE Reg.PULSE_INnSTAT_RANGEF (0x248 + n) (s.fl hyg Reg.PULSE_INnHYG_WCNT) lo hi
        x.wrun
    else (s, x.wrun)
  let s := s.setPulse n { x with seq := seq, x := false, wrun := wrun }
  let s := s.clMeas 3 n (w24 y) (ovr || x.off)
  s.bqPush (44 + n) (sampleWords (s.fb (Reg.PULSE_INnCFG n) Reg.PULSE_INnCFG_PKT) 25 seq (w24 y) q stamp) (0x240 + n)

/-- The filtered level of pulse input `n` changes, first taken `age` ticks ago (R345–R347). -/
def State.pulseEdge (s : State) (n : Nat) (level : Bool) (age : Nat) : State :=
  if !s.pulseOn n then s
  else
    let s := (s.sf (Reg.PULSE_INnSTAT n) Reg.PULSE_INnSTAT_LEVEL (b2n level)).capSource (n + 1) (some level)
    if (s.fl (Reg.PULSE_INnCFG n) Reg.PULSE_INnCFG_EDGE).testBit (if level then 0 else 1) = false then s
    else
      let t := (s.time.dt - BitVec.ofNat 48 age).toNat
      let s := s.wr (Reg.PULSE_INnCOUNT n) (s.rd (Reg.PULSE_INnCOUNT n) + 1)
      let s := s.setPulse n { s.pulse n with off := false }
      let e := s.edge n
      let m := s.pulseMode n
      let e := if m = 1 then { e with edges := e.edges + 1 } else if m = 2 then { e with cnt := e.cnt + 1, last? := some t } else e
      if m = 1 ∧ s.fl (Reg.PULSE_INnCFG n) Reg.PULSE_INnCFG_N < e.edges then
        let v := match e.ref? with | some t0 => (BitVec.ofNat 48 t - BitVec.ofNat 48 t0).toNat | none => 0x7FFFFF
        (s.setEdge n { e with edges := 0, ref? := some t }).pulseReport n v (w24 t) false
      else s.setEdge n e

/-- A MODE 2 interval of pulse input `n` ends (R346). Where MODE 1 follows, the edge of this report is the one its first interval counts from
(DEDUCED, log 59). -/
def State.pulseInterval (s : State) (n : Nat) : State :=
  if !s.pulseOn n || decide (s.pulseMode n ≠ 2) then s
  else
    let e := s.edge n
    let t := match e.last? with | some t => t | none => s.time.dt.toNat
    (s.setEdge n { e with cnt := 0, last? := none, ref? := e.last? }).pulseReport n e.cnt (w24 t) false

/-- The stale timer of pulse input `n` expires (R338, R347, R372). The report it makes in MODE 1 is stamped with the device time of the expiry:
the spec gives it no stamp (DESIGN CHOICE, log 50). -/
def State.pulseStale (s : State) (n : Nat) : State :=
  let x := s.pulse n
  if !s.pulseOn n || decide (s.fl (Reg.PULSE_INnHYG n) Reg.PULSE_INnHYG_TMO = 0) || x.off then s
  else
    let s := (s.sf (Reg.PULSE_INnSTAT n) Reg.PULSE_INnSTAT_STALEF 1).sf (Reg.PULSE_INnQUAL n) (bitF 14) 1
    let s := ((s.raise (0x250 + n)).setPulse n { x with off := true }).clMeas 3 n (s.rd (Reg.PULSE_INnDATA n)) true
    if s.pulseMode n = 1 then
      (s.setEdge n { s.edge n with ref? := none }).pulseReport n 0x7FFFFF (w24 (s.dtBits 23 0)) true
    else s

/-- A write to PULSE_INnCFG (R346): enabling begins with no edges, a change of MODE with an empty interval. A stale timer that has expired stays
stopped until an edge (R338). -/
def State.pulseCfg (s : State) (n : Nat) (v : Word) : State :=
  let was := s.pulseOn n
  let s := if s.fl (Reg.PULSE_INnCFG n) Reg.PULSE_INnCFG_MODE = getF v Reg.PULSE_INnCFG_MODE then s
    else s.setEdge n { s.edge n with edges := 0, cnt := 0, last? := none }
  let s := s.wr (Reg.PULSE_INnCFG n) (v &&& 0xFEFFFF)
  if v.getLsbD 23 && !was then s.setEdge n PulseSt.init else s

/-- A write to PULSE_INnHYG restarts the window's counts; with WEN 0 the input is not out. -/
def State.pulseHyg (s : State) (n : Nat) (v : Word) : State :=
  let s := (s.wr (Reg.PULSE_INnHYG n) v).setPulse n { s.pulse n with wrun := WinSt.init }
  if v.getLsbD 23 then s else s.sf (Reg.PULSE_INnSTAT n) Reg.PULSE_INnSTAT_OUT 0

/-! ### Conductivity probes -/

/-- Probe `k`. -/
def State.cond (s : State) (k : Nat) : InSt := SMap.get InSt.init s.meas.cond k

/-- Probe `k` set. -/
def State.setCond (s : State) (k : Nat) (x : InSt) : State :=
  { s with meas := { s.meas with cond := SMap.set InSt.init s.meas.cond k x } }

/-- The amplitude in mV of an AMP code; 3 acts as 2 (R348). -/
def condAmp (c : Nat) : Nat := match c with | 0 => 100 | 1 => 200 | _ => 400

/-- The excitation period in DSM cycles of a FREQ code; 5 to 7 act as 4 (R348). -/
def condPeriod (c : Nat) : Nat := match c with | 0 => 6144 | 1 => 3072 | 2 => 1536 | 3 => 768 | _ => 640

/-- The square wave that drives probe `k`, as its amplitude in mV and its period in DSM cycles; none while the probe is disabled (R348). -/
def State.condDrive (s : State) (k : Nat) : Option (Nat × Nat) :=
  let c := s.an (Reg.COND_PkCFG k)
  if getF c Reg.COND_PkCFG_EN = 1 then some (condAmp (getF c Reg.COND_PkCFG_AMP), condPeriod (getF c Reg.COND_PkCFG_FREQ)) else none

/-- Full-scale conductance of a RANGE code in pS (R349). -/
def condGfs (range : Nat) : Nat := 10 ^ (7 + range)

/-- A result of probe `k`, the conductance in pS, `lim` where the drive limits its current (R348, R349). -/
def State.condResult (s : State) (k g : Nat) (lim : Bool) : State :=
  let cfg := Reg.COND_PkCFG k
  if s.fb cfg Reg.COND_PkCFG_EN = false then s
  else
    let x := s.cond k
    let gfs := condGfs (s.fl cfg Reg.COND_PkCFG_RANGE)
    let v : Int := (g * 2 ^ 23 * (s.rd (Reg.COND_PkGAIN k)).toNat / (gfs * 2 ^ 22) : Nat)
    let y := satQ v
    let ovr := decide (gfs ≤ g ∨ y ≠ v) || lim
    let hyg := Reg.COND_PkHYG k
    let wen := s.fb hyg Reg.COND_PkHYG_WEN
    let (hi, lo) := hiLo wen (s.rd (Reg.COND_PkWLO k)) (s.rd (Reg.COND_PkWHI k)) y
    let seq := (x.seq + 1) % 256
    let q := qualWord x.sus lim ovr hi lo false k seq
    let stamp := w24 (s.dtBits 23 0)
    let st := Reg.COND_PkSTAT k
    let s := ((s.wr (Reg.COND_PkDATA k) (i24 y)).wr (Reg.COND_PkQUAL k) q).wr (Reg.COND_PkTIME k) stamp
    let s := s.sf st Reg.COND_PkSTAT_LIMNOW (b2n lim)
    let s := if lim && !x.lim then (s.sf st Reg.COND_PkSTAT_FAULTF 1).raise (0x264 + k) else s
    let (s, wrun) := if wen then
        s.window st Reg.COND_PkSTAT_OUT Reg.COND_PkSTAT_SIDE Reg.COND_PkSTAT_RANGEF (0x25C + k) (s.fl hyg Reg.COND_PkHYG_WCNT) lo hi x.wrun
      else (s, x.wrun)
    let s := s.setCond k { x with seq := seq, wrun := wrun, off := false, sus := s.bgDoubt, lim := lim }
    let s := s.clMeas 4 k (i24 y) ovr
    s.bqPush (24 + k) (sampleWords (s.fb cfg Reg.COND_PkCFG_PKT) 26 seq (i24 y) q stamp) (0x258 + k)

/-- The stale timer of probe `k` expires (R338, R350, R372). -/
def State.condStale (s : State) (k : Nat) : State :=
  let x := s.cond k
  if s.fb (Reg.COND_PkCFG k) Reg.COND_PkCFG_EN && !x.off then
    let st := Reg.COND_PkSTAT k
    let s := ((s.sf st Reg.COND_PkSTAT_STALEF 1).inc st Reg.COND_PkSTAT_STALECNT).sf (Reg.COND_PkQUAL k) (bitF 14) 1
    ((s.raise (0x260 + k)).setCond k { x with off := true }).clMeas 4 k (s.rd (Reg.COND_PkDATA k)) true
  else s

/-- A write to COND_PkCFG (R348, R349): the result under way begins anew; a disabled probe limits nothing. A stale timer that has expired stays
stopped until the next result (R338). -/
def State.condCfg (s : State) (k : Nat) (v : Word) : State :=
  let s := s.wr (Reg.COND_PkCFG k) (v &&& 0xFF80FF)
  let s := s.setCond k { s.cond k with sus := s.bgDoubt }
  if v.getLsbD 23 then s
  else (s.setCond k { s.cond k with lim := false }).sf (Reg.COND_PkSTAT k) Reg.COND_PkSTAT_LIMNOW 0

/-- A write to COND_PkHYG restarts the window's counts; with WEN 0 the probe is not out. -/
def State.condHyg (s : State) (k : Nat) (v : Word) : State :=
  let s := (s.wr (Reg.COND_PkHYG k) v).setCond k { s.cond k with wrun := WinSt.init }
  if v.getLsbD 23 then s else s.sf (Reg.COND_PkSTAT k) Reg.COND_PkSTAT_OUT 0

/-! ### Commands -/

/-- R325. An input that has stayed beyond a threshold for DEB cycles, first seen `age` ticks ago, moves the level and reports or holds the
crossing. -/
def execXingCrossing (n : Fin 16) (up : Bool) (age : BitVec 8) (s : State) : Out := .next (s.gate 0 (s.xingCross n up age.toNat))

/-- R328. At the end of the minimum interval a merged report is pushed if the level changed. -/
def execMinivIntervalEnd (n : Fin 16) (s : State) : Out := .next (s.gate 0 (s.minivEnd n))

/-- R326. Enabling, a STEP write or an LBASE change starts level acquisition. -/
def execXingAcquire (n : Fin 16) (s : State) : Out := .next (s.gate 0 (s.xingAcquire n))

/-- R326. Acquisition finishes by successive halving, sets the level and pushes a report. -/
def execAcquisitionDone (n : Fin 16) (level : BitVec 12) (s : State) : Out := .next (s.gate 0 (s.acqDone n level.toNat))

/-- R333. The quiet timer expires, raising XING_QUIETn and, with HBEN, testing comparators (`ok`: both switch) and pushing a heartbeat. -/
def execXingQuiet (n : Fin 16) (ok : Bool) (s : State) : Out := .next (s.gate 0 (s.xingQuiet n ok))

/-- R341. A trigger starts a core's run of conversion steps, or is lost while running. -/
def execSarTrigger (k : Fin 4) (s : State) : Out := .next (s.gate 6 (s.sarTrigger k))

/-- R340. A write to SAR_SWTRIG triggers the named cores. -/
def execSarSwtrig (v : BitVec 24) (s : State) : Out := .next (s.gate 6 (s.sarSw v))

/-- R343. A conversion step completes, updating registers and pushing its value; `us` are the voltages in µV, signed, of its 2^AVG conversions,
the converter's own errors included, the first taken `age` ticks ago (R339, R389). -/
def execSarStepDone (k : Fin 4) (us : List (BitVec 24)) (age : BitVec 10) (s : State) : Out :=
  .next (s.gate 6 (s.sarStep k (us.map (fun u => u.toInt)) age.toNat))

/-- R344. A core's stale timer expires and SAR_STALEk is raised. -/
def execSarStale (k : Fin 4) (s : State) : Out := .next (s.gate 6 (s.sarStale k))

/-- R345. A filtered level change counts as an edge, is stamped `age` ticks back and may produce a MODE 1 report. -/
def execPulseEdge (n : Fin 8) (level : Bool) (age : BitVec 12) (s : State) : Out := .next (s.gate 0 (s.pulseEdge n level age.toNat))

/-- R345. A change too short for the filter increments GLITCH. -/
def execPulseGlitch (n : Fin 8) (s : State) : Out :=
  .next (s.gate 0 (if s.pulseOn n then
      (s.inc (Reg.PULSE_INnSTAT n) Reg.PULSE_INnSTAT_GLITCH).setPulse n { s.pulse n with x := true } else s))

/-- R346. A MODE 2 interval ends and a count report is pushed. -/
def execPulseIntervalEnd (n : Fin 8) (s : State) : Out := .next (s.gate 0 (s.pulseInterval n))

/-- R347. A pulse stale timer expires, with a stale report in MODE 1. -/
def execPulseStale (n : Fin 8) (s : State) : Out := .next (s.gate 0 (s.pulseStale n))

/-- R349. A conductivity probe completes a result over NAVG + 1 periods and delivers it: the conductance in pS, and whether the drive
limits its current. -/
def execCondResult (k : Fin 4) (g : BitVec 40) (lim : Bool) (s : State) : Out := .next (s.gate 7 (s.condResult k g.toNat lim))

/-- R350. A probe's stale timer expires and COND_STALEk is raised. -/
def execCondStale (k : Fin 4) (s : State) : Out := .next (s.gate 7 (s.condStale k))

/-- R387. A bridge's counter reaches TRGA or TRGB and fires the trigger, which a core with a stopped clock does not see (R525). -/
def execBridgeTriggerPoint (b : Fin 4) (isB : Bool) (s : State) : Out := .next (s.gate 5 (s.gate 6 (s.brPoint b isB)))

end Sys2Proof.Machine
end

