-- ==== Sys2Proof/Machine/Comm.lean ====
section
/-!
DEFINITION. The communication interfaces (R428–R456): Ethernet, CAN, UART, SPI, I²C controllers, USB, xSPI commands, the crypto engine and the
entropy source.
-/

namespace Sys2Proof.Machine

/-! ### What holds a block -/

/-- IOSC is the selected time-base source (R406). -/
def State.iosc (s : State) : Bool := decide (s.fl Reg.REF_TBSTAT Reg.REF_TBSTAT_SEL = 2)

/-- Step 3 of the shedding ladder is in force (R428). -/
def State.shed3 (s : State) : Bool := decide (3 ≤ s.fl Reg.PWR_SHSTAT Reg.PWR_SHSTAT_STEP)

/-- The Ethernet MAC is held while IOSC is selected (R428). -/
def State.ethMon (s : State) : Bool := s.iosc && s.fb Reg.ETH_CTL Reg.ETH_CTL_REFOUT

/-- The Ethernet MAC is held or shed (R428). -/
def State.ethHold (s : State) : Bool := s.ethMon || s.shed3

/-- Step 3 has stopped what began `age` ticks ago; a frame that was under way as the step came into force is completed (R428). -/
def State.shedFrom (s : State) (age : Nat) : Bool :=
  s.shed3 && (match s.comm.shedAt with | some t => decide (t ≤ s.dtLong - age) | none => true)

/-- CAN controller `c` is held in bus monitoring (R428). -/
def State.canMon (s : State) (c : Nat) : Bool := s.iosc && !s.fb (Reg.CANc_CTL c) Reg.CANc_CTL_IOSCOK

/-- CAN controller `c` has left the bus under the shedding ladder (R428). -/
def State.canShed (s : State) (c : Nat) : Bool := decide (c = 0) && s.shed3

/-- The USB device may be attached (R448). -/
def State.usbMay (s : State) : Bool := s.fb Reg.USB_STAT Reg.USB_STAT_VBUS && !s.iosc && !s.shed3

/-- The USB device asks to be attached. -/
def State.usbAsk (s : State) : Bool := s.fb Reg.USB_CTL Reg.USB_CTL_EN && s.fb Reg.USB_CTL Reg.USB_CTL_ATTACH

/-- HOLD, ATT and HELD follow the time base, the ladder and the enables (R428, R448); HELD says that an attachment asked for is prevented
(log entry 56). The device time at which step 3 comes into force is kept. -/
def State.commShow (s : State) : State :=
  let at? := if s.shed3 then (match s.comm.shedAt with | some t => some t | none => some s.dtLong) else none
  let s := { s with comm := { s.comm with shedAt := at? } }
  let s := s.sf Reg.ETH_STAT Reg.ETH_STAT_HOLD (b2n (s.fb Reg.ETH_CTL Reg.ETH_CTL_EN && s.ethHold))
  let s := (List.range 2).foldl (fun s c =>
    s.sf (Reg.CANc_STAT c) Reg.CANc_STAT_HOLD (b2n (s.fb (Reg.CANc_CTL c) Reg.CANc_CTL_EN && (s.canMon c || s.canShed c)))) s
  (s.sf Reg.USB_STAT Reg.USB_STAT_ATT (b2n (s.usbAsk && s.usbMay))).sf Reg.USB_STAT Reg.USB_STAT_HELD (b2n (s.usbAsk && !s.usbMay))

/-! ### Memory accesses of engines that are no thread -/

/-- A region a source may lie in. -/
def dmaSource (a : Nat) : Bool :=
  match region a with
  | .localMem | .cluster | .glob | .mram | .locket => true
  | _ => false

/-- Words read by a DMA engine; none where an address is no memory, its cluster is closed, or a word is uncorrectable. The reader's code in
the error log is a free value (log entry 6). Its global SRAM accesses use the reservation of capsule `own` (R222). -/
def State.dmaRead (s : State) (own : Nat) (as : List Nat) : State × Option (List Word) :=
  if as.all (fun a => dmaSource a && !s.closed a) then
    let s : State := as.foldl (fun s a => s.ownerCharge own a) s
    let (s, r) := s.draw
    s.imgWords r.toNat [] as
  else (s, none)

/-- A word written by a DMA engine; false where the address is none of the regions allowed or its cluster is closed. A global SRAM access
uses the reservation of capsule `own` (R222). -/
def State.dmaWrite (s : State) (own a : Nat) (v : Word) : State × Bool :=
  if (sramRegion a || decide (region a = .locket)) && !s.closed a then ((s.ownerCharge own a).memWrite a v, true) else (s, false)

/-- Words written at rising addresses; false at the first that fails. -/
def State.dmaPut (s : State) (own a : Nat) : List Word → State × Bool
  | [] => (s, true)
  | v :: r =>
    match s.dmaWrite own a v with
    | (s, true) => s.dmaPut own (a + 1) r
    | (s, false) => (s, false)

/-! ### Ethernet -/

/-- The communication state set. -/
def State.setComm (s : State) (f : CommSt → CommSt) : State := { s with comm := f s.comm }

/-- The capsule charged for the DMA engine's accesses (R434). -/
def State.ethOwn (s : State) : Nat := s.fl Reg.ETH_CTL Reg.ETH_CTL_OWN

/-- The address of descriptor `i` of ring `d` (R431). -/
def State.ethDesc (s : State) (d i : Nat) : Nat := 128 * s.fl (Reg.ETH_RBASEd d) Reg.ETH_RBASEd_BASE + 4 * i

/-- The index after `i` in ring `d`. -/
def State.ethIdx (s : State) (d i : Nat) : Nat := if s.fl (Reg.ETH_RBASEd d) Reg.ETH_RBASEd_N ≤ i then 0 else i + 1

/-- The transmit engine reads its next descriptor (R431): with OWN 1 the frame is read, from a buffer in SRAM (R430), and sending starts. While
the MAC is held or shed it does so when that ends (R428). -/
def State.ethNext (s : State) : State :=
  if !s.fb Reg.ETH_CTL Reg.ETH_CTL_EN || !s.fb Reg.ETH_CTL Reg.ETH_CTL_TXEN || s.comm.ethTx.isSome then s
  else if s.ethHold then s.setComm (fun c => { c with ethDue := true })
  else
    let d := s.ethDesc 0 (s.fl Reg.ETH_STAT Reg.ETH_STAT_TXIDX)
    match s.dmaRead s.ethOwn [d, d + 1] with
    | (s, some [w0, w1]) =>
      if w0.getLsbD 23 = false then s
      else
        let buf := addrs w1.toNat ((getBits w0 10 0 + 2) / 3)
        let (s, ws) := if buf.all sramRegion then s.dmaRead s.ethOwn buf else (s, none)
        (s.setComm (fun c => { c with ethTx := some { w0 := w0, words := ws.getD [], bad := ws.isNone } })).sf Reg.ETH_STAT
          Reg.ETH_STAT_TXACT 1
    | (s, _) => s

/-- The transmit engine resumes after a hold (R428). -/
def State.ethResume (s : State) : State :=
  if s.comm.ethDue && !s.ethHold && !s.resting 6 then s.gate 1 (s.setComm (fun c => { c with ethDue := false })).ethNext else s

/-- The word 0 a completed descriptor receives (R430). -/
def ethWord0 (cause tq len : Nat) : Word :=
  w24 (b2n (decide (cause ≠ 0)) * 2 ^ 21 + cause * 2 ^ 18 + tq * 2 ^ 16 + len)

/-- A descriptor is written back: words 2 and 3, then word 0 (R431, R432). -/
def State.ethBack (s : State) (d : Nat) (stamp : Pair) (w0 : Word) : State :=
  let (s, _) := s.dmaWrite s.ethOwn (d + 2) (pairLo stamp)
  let (s, _) := s.dmaWrite s.ethOwn (d + 3) (pairHi stamp)
  (s.dmaWrite s.ethOwn d w0).1

/-- The device time `age` ticks ago. -/
def State.ago (s : State) (age : Nat) : Pair := s.time.dt - BitVec.ofNat 48 age

/-- The frame being sent completes (R431), with a CAUSE of the wire (0 none). -/
def State.ethSent (s : State) (cause age : Nat) : State :=
  match s.comm.ethTx with
  | none => s
  | some x =>
    let cause := if x.bad then 4 else cause
    let i := s.fl Reg.ETH_STAT Reg.ETH_STAT_TXIDX
    let s := s.ethBack (s.ethDesc 0 i) (s.ago age) (ethWord0 cause (s.tqAt age) (getBits x.w0 10 0))
    let s := (s.setComm (fun c => { c with ethTx := none })).sf Reg.ETH_STAT Reg.ETH_STAT_TXACT 0
    let s := (s.sf Reg.ETH_STAT Reg.ETH_STAT_TXIDX (s.ethIdx 0 i)).raise 0x371
    (s.raiseIf (decide (cause ≠ 0)) 0x373).ethNext

/-- The destination of a frame is accepted (R433): its first two words hold the address. -/
def State.ethForMe (s : State) (ws : List Word) : Bool :=
  let a := ws.getD 0 0
  let b := ws.getD 1 0
  s.fb Reg.ETH_CTL Reg.ETH_CTL_PROM || (s.fb Reg.ETH_CTL Reg.ETH_CTL_BCAST && decide (a = 0xFFFFFF ∧ b = 0xFFFFFF)) ||
    decide (a = s.rd (Reg.ETH_MACw 1) ∧ b = s.rd (Reg.ETH_MACw 0))

/-- A frame arrives (R431–R433): `len` bytes with its FCS, its words without it, the state of the FCS, an RMII error. -/
def State.ethReceive (s : State) (ws : List Word) (len : Nat) (fcs err : Bool) (age : Nat) : State :=
  if !s.fb Reg.ETH_CTL Reg.ETH_CTL_EN || !s.fb Reg.ETH_CTL Reg.ETH_CTL_RXEN || s.ethMon || s.shedFrom age then s
  else if !fcs then s.inc Reg.ETH_CNT Reg.ETH_CNT_CRCERR
  else if len < 64 ∨ 1518 < len ∨ s.ethForMe ws = false then s
  else
    let i := s.fl Reg.ETH_STAT Reg.ETH_STAT_RXIDX
    let d := s.ethDesc 1 i
    match s.dmaRead s.ethOwn [d, d + 1] with
    | (s, some [w0, w1]) =>
      if w0.getLsbD 23 = false then (s.inc Reg.ETH_CNT Reg.ETH_CNT_RXDROP).raise 0x373
      else
        let (s, ok) := if (addrs w1.toNat ((len - 4 + 2) / 3)).all sramRegion then s.dmaPut s.ethOwn w1.toNat (ws.take ((len - 4 + 2) / 3)) else (s, false)
        let cause := if err then 3 else if ok then 0 else 4
        let s := s.ethBack d (s.ago age) (ethWord0 cause (s.tqAt age) (len - 4))
        ((s.sf Reg.ETH_STAT Reg.ETH_STAT_RXIDX (s.ethIdx 1 i)).raise 0x370).raiseIf (decide (cause ≠ 0)) 0x373
    | (s, _) => (s.inc Reg.ETH_CNT Reg.ETH_CNT_RXDROP).raise 0x373

/-- A write of `v` to ETH_MDC (R433): with GO 1 it starts an MDIO access, to which the PHY answers `data`; GO reads 1 while it lasts, 64 cycles
of the 2.5 MHz MDC, and a write meanwhile is ignored (log entry 57). -/
def State.mdio (s : State) (v : Word) (data : Nat) : State :=
  if s.comm.mdio.isSome then s
  else
    let s := s.wr Reg.ETH_MDC (v &&& 0xFFF000)
    if v.getLsbD 23 then { s with comm := { s.comm with mdio := some (2560, w24 (data % 65536)) } } else s

/-- A tick of the MDIO access under way, which stands still while the MAC is held or shed (R428, R433): as it ends, GO reads 0 and a read puts the
PHY's answer into ETH_MDD. -/
def State.mdioTick (s : State) : State :=
  match s.comm.mdio with
  | none => s
  | some (n, w) =>
    if s.islandRuns 1 = false ∨ s.ethHold then s
    else if 1 < n then { s with comm := { s.comm with mdio := some (n - 1, w) } }
    else
      let s := ({ s with comm := { s.comm with mdio := none } }).sf Reg.ETH_MDC Reg.ETH_MDC_GO 0
      if s.fb Reg.ETH_MDC Reg.ETH_MDC_WR then s else s.wr Reg.ETH_MDD w

/-- The link poll reads the PHY's link status (R433); a MAC that is held or shed polls nothing (R428). -/
def State.linkPoll (s : State) (up : Bool) : State :=
  if s.ethHold || !s.fb Reg.ETH_CTL Reg.ETH_CTL_EN || !s.fb Reg.ETH_CTL Reg.ETH_CTL_LPOLL || decide (s.fb Reg.ETH_STAT Reg.ETH_STAT_LINK = up) then s
  else (s.sf Reg.ETH_STAT Reg.ETH_STAT_LINK (b2n up)).raise 0x372

/-! ### CAN -/

/-- CAN controller `c`. -/
def State.can (s : State) (c : Nat) : CanSt := SMap.get CanSt.init s.comm.can c

/-- CAN controller `c` set; CANc_CNT shows its FIFOs. -/
def State.setCan (s : State) (c : Nat) (x : CanSt) : State :=
  let s := s.setComm (fun k => { k with can := SMap.set CanSt.init k.can c x })
  (s.sf (Reg.CANc_CNT c) Reg.CANc_CNT_RXN x.rx.length).sf (Reg.CANc_CNT c) Reg.CANc_CNT_TXN x.tx.length

/-- The data bytes of a DLC: ISO 11898-1's lengths above 8 in CAN FD frames only. -/
def canBytes (w : Word) : Nat :=
  let dlc := getBits w 18 15
  if w.getLsbD 22 then 0
  else if dlc ≤ 8 then dlc
  else if w.getLsbD 21 = false then 8
  else match dlc with
    | 9 => 12 | 10 => 16 | 11 => 20 | 12 => 24 | 13 => 32 | 14 => 48 | _ => 64

/-- The words of a frame that software writes (R436), from its word 0. -/
def canWords (w : Word) : Nat := 2 + (canBytes w + 2) / 3

/-- STATE of controller `c` changes (R439). -/
def State.canState (s : State) (c n : Nat) : State :=
  if s.fl (Reg.CANc_STAT c) Reg.CANc_STAT_STATE = n then s
  else (s.sf (Reg.CANc_STAT c) Reg.CANc_STAT_STATE n).raise (0x37A + 4 * c)

/-- The fault-confinement state of the two error counts (ISO 11898-1): passive at 128. -/
def State.canConfine (s : State) (c : Nat) : State :=
  if s.fl (Reg.CANc_STAT c) Reg.CANc_STAT_STATE = 2 then s
  else s.canState c (if 128 ≤ s.fl (Reg.CANc_STAT c) Reg.CANc_STAT_TEC ∨ 128 ≤ s.fl (Reg.CANc_STAT c) Reg.CANc_STAT_REC then 1 else 0)

/-- Frames leave the transmit FIFO; CANc_TX is raised when it becomes empty. -/
def State.canTx (s : State) (c : Nat) (l : List (List Word)) : State :=
  let was := (s.can c).tx
  (s.setCan c { s.can c with tx := l }).raiseIf (decide (was ≠ [] ∧ l = [])) (0x379 + 4 * c)

/-- A store to CANc_FIFO (R436, R437). -/
def State.canPush (s : State) (c : Nat) (v : Word) : State :=
  let x := s.can c
  let part := x.part ++ [v]
  let w0 := part.getD 0 0
  if part.length < canWords w0 then s.setCan c { x with part := part }
  else
    let bad := (w0.getLsbD 21 && !s.fb (Reg.CANc_CTL c) Reg.CANc_CTL_FDEN) ||
      (!w0.getLsbD 21 && (w0.getLsbD 20 || w0.getLsbD 19)) || decide (8 ≤ x.tx.length)
    if bad then ((s.setCan c { x with part := [] }).sf (Reg.CANc_STAT c) Reg.CANc_STAT_BADF 1).raise (0x37A + 4 * c)
    else s.setCan c { x with part := [], tx := x.tx ++ [part] }

/-- A load from CANc_FIFO (R429): the word, blank where nothing is held. -/
def State.canPop (s : State) (c : Nat) : State × Word :=
  let x := s.can c
  match x.rx with
  | (w :: []) :: r => (s.setCan c { x with rx := r }, w)
  | (w :: f) :: r => (s.setCan c { x with rx := f :: r }, w)
  | _ => (s, blank)

/-- The lowest filter that a frame matches (R438); none where filters are enabled and none matches. -/
def State.canFilter (s : State) (c : Nat) (w0 w1 : Word) : Option Nat :=
  let en := (List.range 32).filter (fun k => s.fb (Reg.CANc_FkCTL c k) Reg.CANc_FkCTL_EN)
  let id := getBits w0 4 0 * 2 ^ 24 + w1.toNat
  if en = [] then some 0
  else en.find? (fun k =>
    let f := s.rd (Reg.CANc_FkCTL c k)
    let fid := getF f Reg.CANc_FkCTL_ID * 2 ^ 24 + (s.rd (Reg.CANc_FkIDw c k 0)).toNat
    let msk := getF f Reg.CANc_FkCTL_MSK * 2 ^ 24 + (s.rd (Reg.CANc_FkIDw c k 1)).toNat
    decide (id &&& msk = fid &&& msk) &&
      (decide (getF f Reg.CANc_FkCTL_MIDE = 0) || decide (getF f Reg.CANc_FkCTL_IDE = getBits w0 23 23)))

/-- A frame on the bus ends at the receiver (R436, R438, R439): `err` is 0 for a good frame, else what ISO 11898-1 adds to REC. -/
def State.canReceive (s : State) (c : Nat) (f : List Word) (err age : Nat) : State :=
  let st := Reg.CANc_STAT c
  if !s.fb (Reg.CANc_CTL c) Reg.CANc_CTL_EN || (decide (c = 0) && s.shedFrom age) || decide (s.fl st Reg.CANc_STAT_STATE = 2) then s
  else if err ≠ 0 then (s.sf st Reg.CANc_STAT_REC (min 255 (s.fl st Reg.CANc_STAT_REC + err))).canConfine c
  else
    let rec0 := s.fl st Reg.CANc_STAT_REC
    let s := if rec0 = 0 then s
      else if rec0 < 128 then (s.sf st Reg.CANc_STAT_REC (rec0 - 1)).canConfine c
      else
        let (s, r) := s.draw
        (s.sf st Reg.CANc_STAT_REC (119 + r.toNat % 9)).canConfine c
    match f with
    | w0 :: w1 :: data =>
      (match s.canFilter c w0 w1 with
       | none => s
       | some k =>
         let x := s.can c
         if 32 ≤ x.rx.length then
           ((s.sf st Reg.CANc_STAT_RXOVF 1).inc (Reg.CANc_CNT c) Reg.CANc_CNT_RXDROP).raise (0x37A + 4 * c)
         else
           let w0 := setF (setF w0 ⟨14, 10⟩ k) ⟨9, 5⟩ (s.tqAt age * 8)
           let frame := [w0, w1] ++ data.take ((canBytes w0 + 2) / 3) ++ [pairLo (s.ago age)]
           (s.setCan c { x with rx := x.rx ++ [frame] }).raiseIf (decide (x.rx = [])) (0x378 + 4 * c))
    | _ => s

/-- What became of the frame at the head of the transmit FIFO: sent, arbitration lost, an error, or an error for which ISO 11898-1 leaves TEC
as it is (an error-passive transmitter that misses an acknowledge, a stuff error during arbitration). -/
inductive CanEnd where
  | sent | lost | error | excepted
  deriving DecidableEq, Repr

/-- The frame on the bus, begun `age` ticks ago, ends at the transmitter (R437, R439); a frame in progress as step 3 comes into force is
completed (R428). -/
def State.canSent (s : State) (c : Nat) (r : CanEnd) (age : Nat) : State :=
  let st := Reg.CANc_STAT c
  let x := s.can c
  if !s.fb (Reg.CANc_CTL c) Reg.CANc_CTL_EN || s.fb (Reg.CANc_CTL c) Reg.CANc_CTL_LOM || s.canMon c || (decide (c = 0) && s.shedFrom age) ||
      decide (s.fl st Reg.CANc_STAT_STATE = 2) || decide (x.tx = []) then s
  else
    let tec := s.fl st Reg.CANc_STAT_TEC
    let s := match r with
      | .sent => ((s.sf st Reg.CANc_STAT_TEC (tec - 1)).canConfine c).canTx c (x.tx.drop 1)
      | .lost | .excepted => s
      | .error =>
        if 256 ≤ tec + 8 then
          let (s, v) := s.draw
          (s.sf st Reg.CANc_STAT_TEC v.toNat).canState c 2
        else (s.sf st Reg.CANc_STAT_TEC (tec + 8)).canConfine c
    if x.abort && decide (r = .sent ∨ r = .lost) then (s.canTx c []).setCan c { s.can c with tx := [], abort := false } else s

/-- A frame has stood at the head of the FIFO for TXTO ms (R437). -/
def State.canTimeout (s : State) (c : Nat) : State :=
  let x := s.can c
  if s.fl (Reg.CANc_CTL c) Reg.CANc_CTL_TXTO = 0 ∨ x.tx = [] then s
  else
    let s := (s.sf (Reg.CANc_STAT c) Reg.CANc_STAT_TXTOF 1).inc (Reg.CANc_CNT c) Reg.CANc_CNT_TXTOCNT
    (s.canTx c (x.tx.drop 1)).raise (0x37B + 4 * c)

/-- ABORT (R437): `onBus` where a frame is on the bus now. -/
def State.canAbort (s : State) (c : Nat) (onBus : Bool) : State :=
  let x := s.can c
  if onBus && decide (x.tx ≠ []) then s.setCan c { x with abort := true } else s.canTx c []

/-- RECOVER (R439). -/
def State.canRecover (s : State) (c : Nat) : State :=
  if s.fl (Reg.CANc_STAT c) Reg.CANc_STAT_STATE = 2 then s.setCan c { s.can c with recov := true } else s

/-- The recovery sequence of controller `c` has been seen (R439). -/
def State.canRecovered (s : State) (c : Nat) : State :=
  let st := Reg.CANc_STAT c
  if s.fl st Reg.CANc_STAT_STATE = 2 ∧ (s.fb (Reg.CANc_CTL c) Reg.CANc_CTL_ABOR ∨ (s.can c).recov) then
    let s := s.setCan c { s.can c with recov := false }
    ((s.sf st Reg.CANc_STAT_TEC 0).sf st Reg.CANc_STAT_REC 0).canState c 0
  else s

/-! ### UARTs -/

/-- UART `u`. -/
def State.uart (s : State) (u : Nat) : UartSt := SMap.get UartSt.init s.comm.uart u

/-- UART `u` set; UARTu_STAT shows its FIFOs. -/
def State.setUart (s : State) (u : Nat) (x : UartSt) : State :=
  let s := s.setComm (fun k => { k with uart := SMap.set UartSt.init k.uart u x })
  let a := Reg.UARTu_STAT u
  ((s.sf a Reg.UARTu_STAT_RXN x.rx.length).sf a Reg.UARTu_STAT_TXN x.tx.length).sf a Reg.UARTu_STAT_TXIDLE (b2n (decide (x.tx = [])))

/-- The direction pin of UART `u` is active (R442). -/
def State.uartDe (s : State) (u : Nat) : Bool :=
  s.fb (Reg.UARTu_CTL u) Reg.UARTu_CTL_EN && s.fb (Reg.UARTu_CTL u) Reg.UARTu_CTL_RS485 && decide ((s.uart u).tx ≠ [])

/-- The level of the direction pin of UART `u` (R442, R611): none while it is high-impedance. -/
def State.uartPin (s : State) (u : Nat) : Option Bool :=
  if (s.uart u).de then some (s.uartDe u == s.fb (Reg.UARTu_CTL u) Reg.UARTu_CTL_DEPOL) else none

/-- A character or a break arrives (R441, R442). -/
def State.uartReceive (s : State) (u : Nat) (byte : Nat) (pe fe brk : Bool) : State :=
  let c := Reg.UARTu_CTL u
  if !s.fb c Reg.UARTu_CTL_EN || (s.uartDe u && !s.fb c Reg.UARTu_CTL_ECHO) then s
  else
    let x := s.uart u
    let st := Reg.UARTu_STAT u
    if 32 ≤ x.rx.length then (s.sf st Reg.UARTu_STAT_RXOVF 1).raise (0x382 + 4 * u)
    else
      let b := if s.fb c Reg.UARTu_CTL_D7 then byte % 128 else byte
      let item := if brk then w24 (2 ^ 10) else w24 (b2n fe * 2 ^ 9 + b2n pe * 2 ^ 8 + b)
      let s := s.setUart u { x with rx := x.rx ++ [item] }
      let s := if !brk && (pe || fe) then s.inc st Reg.UARTu_STAT_ERRCNT else s
      (s.raiseIf (decide (x.rx = [])) (0x380 + 4 * u)).raiseIf (pe || fe || brk) (0x382 + 4 * u)

/-- A store to UARTu_DATA (R429, R441). -/
def State.uartPush (s : State) (u : Nat) (v : Word) : State :=
  let x := s.uart u
  if 32 ≤ x.tx.length then (s.sf (Reg.UARTu_STAT u) Reg.UARTu_STAT_TXOVF 1).raise (0x382 + 4 * u)
  else s.setUart u { x with tx := x.tx ++ [v &&& 0x1FF] }

/-- A load from UARTu_DATA (R429). -/
def State.uartPop (s : State) (u : Nat) : State × Word :=
  let x := s.uart u
  match x.rx with
  | w :: r => (s.setUart u { x with rx := r }, w)
  | [] => (s, blank)

/-- A character has been sent (R441, R442). -/
def State.uartSent (s : State) (u : Nat) : State :=
  let x := s.uart u
  if !s.fb (Reg.UARTu_CTL u) Reg.UARTu_CTL_EN || decide (x.tx = []) then s
  else (s.setUart u { x with tx := x.tx.drop 1 }).raiseIf (decide (x.tx.length = 1)) (0x381 + 4 * u)

/-! ### SPI -/

/-- SPI controller `i`. -/
def State.spi (s : State) (i : Nat) : SpiSt := SMap.get SpiSt.init s.comm.spi i

/-- SPI controller `i` set; SPIs_STAT shows it. -/
def State.setSpi (s : State) (i : Nat) (x : SpiSt) : State :=
  let s := s.setComm (fun k => { k with spi := SMap.set SpiSt.init k.spi i x })
  let a := Reg.SPIs_STAT i
  let busy := x.cs || (decide (x.tx ≠ []) && s.fb (Reg.SPIs_CTL i) Reg.SPIs_CTL_EN)
  ((s.sf a Reg.SPIs_STAT_RXN x.rx.length).sf a Reg.SPIs_STAT_TXN x.tx.length).sf a Reg.SPIs_STAT_BUSY (b2n busy)

/-- A store to SPIs_DATA (R429, R443). -/
def State.spiPush (s : State) (i : Nat) (v : Word) : State :=
  let x := s.spi i
  if 16 ≤ x.tx.length then (s.sf (Reg.SPIs_STAT i) Reg.SPIs_STAT_TXOVF 1).raise (0x391 + 2 * i)
  else s.setSpi i { x with tx := x.tx ++ [v] }

/-- A load from SPIs_DATA (R429). -/
def State.spiPop (s : State) (i : Nat) : State × Word :=
  let x := s.spi i
  match x.rx with
  | w :: r => (s.setSpi i { x with rx := r }, w)
  | [] => (s, blank)

/-- The bits of a word of controller `i` (R443); a word has no more than 24. -/
def State.spiBits (s : State) (i : Nat) : Nat := min 24 (max 4 (s.fl (Reg.SPIs_CTL i) Reg.SPIs_CTL_BITS + 1))

/-- A word transfer completes (R443) with the bits received. -/
def State.spiDone (s : State) (i : Nat) (v : Word) : State :=
  let x := s.spi i
  if !s.fb (Reg.SPIs_CTL i) Reg.SPIs_CTL_EN || decide (x.tx = []) then s
  else
    let w := w24 (v.toNat % 2 ^ s.spiBits i)
    let tx := x.tx.drop 1
    let full := decide (16 ≤ x.rx.length)
    let hold := s.fb (Reg.SPIs_CTL i) Reg.SPIs_CTL_CSHOLD && !x.ending
    let cs := hold && (decide (tx ≠ []) || decide (s.fl (Reg.SPIs_CTL i) Reg.SPIs_CTL_STALL ≠ 0))
    let s := s.setSpi i { rx := if full then x.rx else x.rx ++ [w], tx := tx, cs := cs, ending := false }
    let s := if full then (s.sf (Reg.SPIs_STAT i) Reg.SPIs_STAT_RXOVF 1).raise (0x391 + 2 * i) else s
    s.raiseIf (decide (tx = [])) (0x390 + 2 * i)

/-- Chip select has been held with an empty FIFO for 2^STALL µs (R443). -/
def State.spiStall (s : State) (i : Nat) : State :=
  let x := s.spi i
  if x.cs && decide (x.tx = []) then
    ((s.setSpi i { x with cs := false }).sf (Reg.SPIs_STAT i) Reg.SPIs_STAT_STALLF 1).raise (0x391 + 2 * i)
  else s

/-- END (R443): chip select is released after the current word. -/
def State.spiEnd (s : State) (i : Nat) : State :=
  let x := s.spi i
  if s.fb (Reg.SPIs_CTL i) Reg.SPIs_CTL_EN && decide (x.tx ≠ []) then s.setSpi i { x with ending := true }
  else s.setSpi i { x with cs := false }

/-! ### I²C controllers -/

/-- I²C controller `c`. -/
def State.i2c (s : State) (c : Nat) : I2cSt := SMap.get I2cSt.init s.comm.i2c c

/-- I²C controller `c` set; I2Cc_STAT shows it. -/
def State.setI2c (s : State) (c : Nat) (x : I2cSt) : State :=
  let s := s.setComm (fun k => { k with i2c := SMap.set I2cSt.init k.i2c c x })
  let a := Reg.I2Cc_STAT c
  ((s.sf a Reg.I2Cc_STAT_RXN x.rx.length).sf a Reg.I2Cc_STAT_CMDN x.cmd.length).sf a Reg.I2Cc_STAT_BUSY
    (b2n (decide (x.cmd ≠ []) && s.fb (Reg.I2Cc_CTL c) Reg.I2Cc_CTL_EN))

/-- I2Cc_STAT.BUSBUSY set. -/
def State.i2cBus (s : State) (c : Nat) (b : Bool) : State := s.sf (Reg.I2Cc_STAT c) Reg.I2Cc_STAT_BUSBUSY (b2n b)

/-- A store to I2Cc_PORT (R429, R444): commands 6 and 7 have no effect. -/
def State.i2cPush (s : State) (c op byte : Nat) : State :=
  if 5 < op then s
  else
    let x := s.i2c c
    if 16 ≤ x.cmd.length then (s.sf (Reg.I2Cc_STAT c) Reg.I2Cc_STAT_CMDOVF 1).raise (0x395 + 2 * c)
    else s.setI2c c { x with cmd := x.cmd ++ [w24 (op * 256 + byte % 256)] }

/-- A load from I2Cc_PORT (R429). -/
def State.i2cPop (s : State) (c : Nat) : State × Word :=
  let x := s.i2c c
  match x.rx with
  | w :: r => (s.setI2c c { x with rx := r }, w)
  | [] => (s, blank)

/-- The command FIFO is flushed with a flag (R445). -/
def State.i2cFail (s : State) (c : Nat) (f : Fld) (busBusy : Bool) : State :=
  (((s.setI2c c { s.i2c c with cmd := [], own := false }).i2cBus c busBusy).sf (Reg.I2Cc_STAT c) f 1).raise (0x395 + 2 * c)

/-- The command at the head of the FIFO completes on the bus (R444, R445): `ack` for a byte sent, `byte` for a byte read. The STOP that
follows a missing acknowledge finds the FIFO empty. -/
def State.i2cDone (s : State) (c : Nat) (ack : Bool) (byte : Nat) : State :=
  let x := s.i2c c
  if s.fb (Reg.I2Cc_CTL c) Reg.I2Cc_CTL_EN = false then s
  else match x.cmd with
    | [] => s
    | w :: r =>
      let stop := fun (s : State) =>
        ((s.setI2c c { x with cmd := r, own := false }).i2cBus c false).raiseIf (decide (r = [])) (0x394 + 2 * c)
      match getBits w 10 8 with
      | 0 =>
        if !x.own && s.fb (Reg.I2Cc_STAT c) Reg.I2Cc_STAT_BUSBUSY then s
        else if ack then (s.setI2c c { x with cmd := r, own := true }).i2cBus c true
        else (s.i2cFail c Reg.I2Cc_STAT_NACKF false).raise (0x394 + 2 * c)
      | 1 => if ack then s.setI2c c { x with cmd := r } else (s.i2cFail c Reg.I2Cc_STAT_NACKF false).raise (0x394 + 2 * c)
      | 4 | 5 => stop s
      | _ => if 16 ≤ x.rx.length then s else s.setI2c c { x with cmd := r, rx := x.rx ++ [w24 (byte % 256)] }

/-! ### USB -/

/-- The USB device is attached. -/
def State.usbOn (s : State) : Bool := s.fb Reg.USB_STAT Reg.USB_STAT_ATT

/-- A bus reset (R448). -/
def State.usbReset (s : State) : State :=
  if !s.usbOn then s
  else
    let s := (List.range 8).foldl (fun s e => s.sf (Reg.USB_EPeCFG e) Reg.USB_EPeCFG_RDY 0) s
    let s := (s.sf Reg.USB_CTL Reg.USB_CTL_ADDR 0).sf Reg.USB_STAT Reg.USB_STAT_SUSP 0
    (s.sf Reg.USB_STAT Reg.USB_STAT_RESETF 1).raise 0x39D

/-- A start of frame of the host, each ms while the device is attached and not suspended: its number is a free value (DESIGN CHOICE, log 28). -/
def State.usbFrame (s : State) : State :=
  if s.usbOn && !s.fb Reg.USB_STAT Reg.USB_STAT_SUSP then
    let (t, f) := s.draw
    s.gate 3 (t.sf Reg.USB_STAT Reg.USB_STAT_FRAME (f.toNat % 2048))
  else s

/-- A packet is stored in buffer `e` (R449). -/
def State.usbStore (s : State) (e : Nat) (ws : List Word) (cnt : Nat) (setup : Bool) : State :=
  let s := (List.range ((min cnt 64 + 2) / 3)).foldl (fun s i => s.wr (Reg.USB_EPeBUFw e i) (ws.getD i 0)) s
  let a := Reg.USB_EPeCFG e
  let s := (s.sf a Reg.USB_EPeCFG_CNT (min cnt 64)).sf a Reg.USB_EPeCFG_TGL (1 - s.fl a Reg.USB_EPeCFG_TGL)
  ((s.sf a Reg.USB_EPeCFG_RDY 0).sf a Reg.USB_EPeCFG_SETUP (b2n setup)).raise 0x39C

/-- An OUT packet to endpoint `p` (R449): stored, or answered with STALL or NAK. -/
def State.usbOut (s : State) (p : Nat) (ws : List Word) (cnt : Nat) : State :=
  let a := Reg.USB_EPeCFG (2 * p)
  if !s.usbOn || !s.fb a Reg.USB_EPeCFG_EN || s.fb a Reg.USB_EPeCFG_STALL || !s.fb a Reg.USB_EPeCFG_RDY then s
  else s.usbStore (2 * p) ws cnt false

/-- A SETUP packet (R449). -/
def State.usbSetup (s : State) (ws : List Word) : State :=
  if !s.usbOn then s
  else
    let s := (s.sf (Reg.USB_EPeCFG 0) Reg.USB_EPeCFG_STALL 0).sf (Reg.USB_EPeCFG 1) Reg.USB_EPeCFG_STALL 0
    s.usbStore 0 ws 8 true

/-- An IN token at endpoint `p` (R449); `ack`: the packet sent is acknowledged. -/
def State.usbIn (s : State) (p : Nat) (ack : Bool) : State :=
  let a := Reg.USB_EPeCFG (2 * p + 1)
  if !s.usbOn || !s.fb a Reg.USB_EPeCFG_EN || s.fb a Reg.USB_EPeCFG_STALL || !s.fb a Reg.USB_EPeCFG_RDY || !ack then s
  else ((s.sf a Reg.USB_EPeCFG_RDY 0).sf a Reg.USB_EPeCFG_TGL (1 - s.fl a Reg.USB_EPeCFG_TGL)).raise 0x39C

/-- A write to USB_EPeCFG (R449): while RDY is 1 only EN and STALL change. -/
def State.usbEp (s : State) (e : Nat) (v : Word) : State :=
  let a := Reg.USB_EPeCFG e
  let old := s.rd a
  if s.fb a Reg.USB_EPeCFG_RDY then s.wr a ((old &&& 0x3FFFFF) ||| (v &&& 0xC00000))
  else s.wr a ((old &&& 0x020000) ||| (v &&& 0xFC007F))

/-! ### xSPI commands -/

/-- The transaction of the command in XSPI_CMD (R452): its address is XSPI_ADDR, with AHI above it where ALEN is 4 bytes, and 0 without address
bytes. -/
def State.xspiTx (s : State) : FlashTx :=
  let alen := s.fl Reg.XSPI_CMD Reg.XSPI_CMD_ALEN
  let lo := (s.rd Reg.XSPI_ADDR).toNat
  { op := s.fl Reg.XSPI_CMD Reg.XSPI_CMD_OP
    addr := if alen = 2 then s.fl Reg.XSPI_CTL Reg.XSPI_CTL_AHI * 2 ^ 24 + lo else if alen = 1 then lo else 0
    n := min 192 (s.fl Reg.XSPI_CMD Reg.XSPI_CMD_NBYTE) }

/-- The read transaction of a load at `ea` in the xSPI window (R450): flash byte address BASE × 65,536 + 3 × (EA − 0xE00000) with AHI as bits
[31:24]; three bytes for a word, six for a pair. -/
def State.windowTx (s : State) (ea : Nat) (pair : Bool) : FlashTx :=
  { op := s.fl Reg.XSPI_CTL Reg.XSPI_CTL_RDOP
    addr := s.fl Reg.XSPI_CTL Reg.XSPI_CTL_AHI * 2 ^ 24 + (s.fl Reg.XSPI_BASE Reg.XSPI_BASE_BASE * 65536 + 3 * (ea - 0xE00000)) % 2 ^ 24
    n := if pair then 6 else 3 }

/-- A write to XSPI_CMD (R452). -/
def State.xspiCmd (s : State) (v : Word) : State :=
  if s.fb Reg.XSPI_STAT Reg.XSPI_STAT_BUSY then s
  else
    let s := s.wr Reg.XSPI_CMD (v &&& 0x7CFFFF)
    if v.getLsbD 23 && s.fb Reg.XSPI_CTL Reg.XSPI_CTL_EN then
      ({ s with comm := { s.comm with flash := some s.xspiTx } }).sf Reg.XSPI_STAT Reg.XSPI_STAT_BUSY 1
    else s

/-- A flash command ends (R452): the data read enter the buffer; `tof` where the status poll reached its limit. -/
def State.xspiDone (s : State) (ws : List Word) (tof : Bool) : State :=
  if s.fb Reg.XSPI_STAT Reg.XSPI_STAT_BUSY = false ∨ (tof = true ∧ s.fb Reg.XSPI_CMD Reg.XSPI_CMD_POLL = false) then s
  else
    let n := min 192 (s.fl Reg.XSPI_CMD Reg.XSPI_CMD_NBYTE)
    let s := if s.fb Reg.XSPI_CMD Reg.XSPI_CMD_WR then s
      else (List.range ((n + 2) / 3)).foldl (fun s i => s.wr (Reg.XSPI_BUFw i) (ws.getD i 0)) s
    let s := if tof then s.sf Reg.XSPI_STAT Reg.XSPI_STAT_TOF 1 else s
    (s.sf Reg.XSPI_STAT Reg.XSPI_STAT_BUSY 0).raise 0x3A0

/-! ### The crypto engine -/

/-- The entropy source after a change of RNGEN (R456). -/
def State.rngEn (s : State) (was now : Bool) : State :=
  if now && !was then
    ((s.setComm (fun c => { c with rngN := 4 })).sf Reg.CRYPT_RNGSTAT Reg.CRYPT_RNGSTAT_FAILF 0).sf Reg.CRYPT_RNGSTAT
      Reg.CRYPT_RNGSTAT_START 1
  else if now then s else s.sf Reg.CRYPT_RNGSTAT Reg.CRYPT_RNGSTAT_START 0

/-- A write to CRYPT_OP (R453): a job starts with OP 1 to 5 while none is under way. -/
def State.cryptOp (s : State) (v : Word) : State :=
  let was := s.fb Reg.CRYPT_OP Reg.CRYPT_OP_RNGEN
  let busy := s.fb Reg.CRYPT_STAT Reg.CRYPT_STAT_BUSY
  let op := getF v Reg.CRYPT_OP_OP
  let s := s.wr Reg.CRYPT_OP (if busy then (s.rd Reg.CRYPT_OP &&& 0x7FFFFF) ||| (v &&& 0x800000) else v &&& 0x9E03FF)
  let s := s.rngEn was (v.getLsbD 23)
  if busy || decide (op = 0) || decide (5 < op) then s
  else (s.setComm (fun c => { c with job := op })).sf Reg.CRYPT_STAT Reg.CRYPT_STAT_BUSY 1

/-- A job ends (R453, R454): a memory fault, a failed authentication, or done. -/
def State.cryptEnd (s : State) (memf : Bool) (authf : Bool) : State :=
  let s := (s.setComm (fun c => { c with job := 0 })).sf Reg.CRYPT_STAT Reg.CRYPT_STAT_BUSY 0
  let s := if memf then s.sf Reg.CRYPT_STAT Reg.CRYPT_STAT_MEMF 1 else s
  let s := if authf then s.sf Reg.CRYPT_STAT Reg.CRYPT_STAT_AUTHF 1 else s
  s.raise (if memf || authf then 0x3A5 else 0x3A4)

/-- Registers `base` + i take the words of a list. -/
def State.putRegs (s : State) (base : Nat) (ws : List Word) : State :=
  (List.range ws.length).foldl (fun s i => s.wr (base + i) (ws.getD i 0)) s

/-- The words of `n` registers from `base`. -/
def State.getRegs (s : State) (base n : Nat) : List Word := (List.range n).map (fun i => s.rd (base + i))

/-- ARGw as a number. -/
def State.arg (s : State) (w : Nat) : Nat := (s.rd (Reg.CRYPT_ARGw w)).toNat

/-- The capsule charged for a job's accesses (R455). -/
def State.cryptOwn (s : State) : Nat := s.fl Reg.CRYPT_OP Reg.CRYPT_OP_OWN

/-- `n` bytes at address `a`. -/
def State.dmaBytes (s : State) (a n : Nat) : State × Option (List Nat) :=
  match s.dmaRead s.cryptOwn (addrs a ((n + 2) / 3)) with
  | (s, some ws) => (s, some ((Crypto.wordBytes ws).take n))
  | (s, none) => (s, none)

/-- The AES key (R453). -/
def State.aesKey (s : State) : List Nat :=
  (Crypto.wordBytes (s.getRegs (Reg.CRYPT_KEYw 0) 11)).take (if s.fb Reg.CRYPT_OP Reg.CRYPT_OP_KSZ then 32 else 16)

/-- A GCM job (R453, R454): additional data, then text, at ARG0; output at ARG1; `dec` where the tag is compared. -/
def State.gcmJob (s : State) (dec : Bool) : State :=
  let aadN := s.arg 3
  let n := s.arg 2
  match s.dmaBytes (s.arg 0) (aadN + n) with
  | (s, none) => s.cryptEnd true false
  | (s, some b) =>
    let iv := (Crypto.wordBytes (s.getRegs (Reg.CRYPT_PARw 0) 4)).take 12
    let aad := b.take aadN
    let txt := b.drop aadN
    let out := Crypto.gcmText s.aesKey iv txt
    let tag := Crypto.gcmTag s.aesKey iv aad (if dec then txt else out)
    let want := (Crypto.wordBytes (s.getRegs (Reg.CRYPT_PARw 4) 6)).take 16
    let pass := decide (tag = want)
    let out := if dec && !pass then List.replicate n 0 else out
    match s.dmaPut s.cryptOwn (s.arg 1) ((Crypto.packBytes out).take ((n + 2) / 3)) with
    | (s, false) => s.cryptEnd true false
    | (s, true) =>
      if dec then (s.sf Reg.CRYPT_STAT Reg.CRYPT_STAT_PASS (b2n pass)).cryptEnd false (!pass)
      else (s.putRegs (Reg.CRYPT_PARw 4) ((Crypto.packBytes tag).take 6)).cryptEnd false false

/-- The job under way ends (R453–R455); an OP 4 job waits while a hallmark check holds the unit. -/
def State.cryptDone (s : State) : State :=
  if s.comm.job = 4 ∧ s.bz.check.isSome then s
  else match s.comm.job with
  | 1 =>
    (match s.dmaBytes (s.arg 0) (s.arg 2) with
     | (s, none) => s.cryptEnd true false
     | (s, some b) => (s.putRegs (Reg.CRYPT_PARw 10) ((Crypto.packBytes (Crypto.sha256 b)).take 11)).cryptEnd false false)
  | 2 => s.gcmJob false
  | 3 => s.gcmJob true
  | 4 =>
    (match s.dmaRead s.cryptOwn (addrs (s.arg 0) 22) with
     | (s, some q) =>
       (match s.dmaRead s.cryptOwn (addrs (s.arg 1) 22) with
        | (s, some g) =>
          let dig := (Crypto.wordBytes (s.getRegs (Reg.CRYPT_PARw 10) 11)).take 32
          let (qx, qy) := Crypto.keyPair q
          let (r, t) := Crypto.keyPair g
          (s.sf Reg.CRYPT_STAT Reg.CRYPT_STAT_PASS (b2n (Crypto.ecdsaVerify dig qx qy r t))).cryptEnd false false
        | (s, none) => s.cryptEnd true false)
     | (s, none) => s.cryptEnd true false)
  | 5 => (s.putRegs (Reg.CRYPT_KEYw 0) (List.replicate 11 0)).cryptEnd false false
  | _ => s

/-- CRYPT_RNGSTAT.AVAIL shows the FIFO. -/
def State.setRng (s : State) (l : List Word) : State :=
  (s.setComm (fun c => { c with rng := l })).sf Reg.CRYPT_RNGSTAT Reg.CRYPT_RNGSTAT_AVAIL l.length

/-- `n` free words are drawn. -/
def State.draws (s : State) : Nat → State × List Word
  | 0 => (s, [])
  | n + 1 =>
    let (s, w) := s.draw
    let (s, l) := s.draws n
    (s, w :: l)

/-- A block of 1,024 noise samples (R456): the words it gives are free values; `fail` where a health test fails. -/
def State.rngBlock (s : State) (fail : Bool) : State :=
  if !s.fb Reg.CRYPT_OP Reg.CRYPT_OP_RNGEN || s.fb Reg.CRYPT_RNGSTAT Reg.CRYPT_RNGSTAT_FAILF then s
  else if fail then
    (((s.setRng []).sf Reg.CRYPT_RNGSTAT Reg.CRYPT_RNGSTAT_FAILF 1).sf Reg.CRYPT_RNGSTAT Reg.CRYPT_RNGSTAT_START 0).raise 0x3A7
  else if 0 < s.comm.rngN then
    let s := s.setComm (fun c => { c with rngN := c.rngN - 1 })
    if s.comm.rngN = 0 then s.sf Reg.CRYPT_RNGSTAT Reg.CRYPT_RNGSTAT_START 0 else s
  else
    let was := s.comm.rng
    let (s, ws) := s.draws 10
    (s.setRng ((was ++ ws).take 32)).raiseIf (decide (was = [])) 0x3A6

/-- A load from CRYPT_RNG (R456). -/
def State.rngPop (s : State) : State × Word :=
  match s.comm.rng with
  | w :: r => ((s.setRng r).sf Reg.CRYPT_RNGSTAT Reg.CRYPT_RNGSTAT_LASTV 1, w)
  | [] => ((s.sf Reg.CRYPT_RNGSTAT Reg.CRYPT_RNGSTAT_LASTV 0).inc Reg.CRYPT_RNGSTAT Reg.CRYPT_RNGSTAT_UNDER, 0)

/-! ### Commands -/

/-- A state with the word a load returned in `rdata`. -/
def withData (p : State × Word) : State := { p.1 with rdata := p.2 }

/-- R433. A received frame is filtered, stamped and written to the next receive descriptor, or dropped: its words, its length with FCS, a good
FCS, an RMII error, the ticks since its start-frame delimiter. -/
def execEthReceive (ws : List (BitVec 24)) (len : BitVec 12) (fcs err : Bool) (age : BitVec 18) (s : State) : Out :=
  .next (s.gate 1 (s.taking 6 (s.ethReceive ws len.toNat fcs err age.toNat)))

/-- R431. A transmitted frame completes and its descriptor is written back, raising ETH_TX; `cause` is the wire's CAUSE, 0 none. -/
def execEthTransmitDone (cause : BitVec 3) (age : BitVec 18) (s : State) : Out := .next (s.gate 1 (s.ethSent cause.toNat age.toNat))

/-- R431. Writing ETH_STAT.TXPOLL makes the engine read the next transmit descriptor. -/
def execTxpoll (s : State) : Out := .next (s.gate 1 (s.taking 6 (s.ethNext)))

/-- R433. Writing ETH_MDC.GO starts an MDIO read or write; `data` is what the PHY answers to a read. -/
def execMdioAccess (v : BitVec 24) (data : BitVec 16) (s : State) : Out := .next (s.gate 1 (s.taking 6 (s.mdio v data.toNat)))

/-- R433. Every 10 ms the MAC reads the PHY's link status and raises ETH_LINK on change. -/
def execLinkPoll (up : Bool) (s : State) : Out := .next (s.gate 1 (s.linkPoll up))

/-- R438. A received CAN frame is filtered and pushed to the RX FIFO or dropped; `err` is 0 or what REC rises by, `age` the ticks since its
start-of-frame sample point. -/
def execCanReceive (c : Fin 2) (f : List (BitVec 24)) (err : BitVec 4) (age : BitVec 18) (s : State) : Out :=
  .next (s.gate 2 (s.taking (7 + c) (s.canReceive c f err.toNat age.toNat)))

/-- R437. A store to CANc_FIFO pushes a transmit word, committing a frame at its last word. -/
def execCanFifoWrite (c : Fin 2) (v : BitVec 24) (s : State) : Out := .next (s.gate 2 (s.taking (7 + c) (s.canPush c v)))

/-- R429. A load from CANc_FIFO pops a received word into `rdata`. -/
def execCanFifoRead (c : Fin 2) (s : State) : Out := .next (s.gate 2 (s.taking (7 + c) (withData (s.canPop c))))

/-- R437. A frame begun `age` ticks ago is sent (`r` 0), loses arbitration (1) or fails, counting an error (2) or, by an exception of ISO
11898-1, none (3), with its state change. -/
def execCanTransmitDone (c : Fin 2) (r : Fin 4) (age : BitVec 18) (s : State) : Out :=
  .next (s.gate 2 (s.taking (7 + c) (s.canSent c
    (match r with | 0 => .sent | 1 => .lost | 2 => .error | _ => .excepted) age.toNat)))

/-- R437. A frame not sent within TXTO is removed and CANc_TXTO raised. -/
def execCanTxTimeout (c : Fin 2) (s : State) : Out := .next (s.gate 2 (s.canTimeout c))

/-- R437. Writing ABORT empties the TX FIFO after the frame on the bus (`onBus`). -/
def execCanAbort (c : Fin 2) (onBus : Bool) (s : State) : Out := .next (s.gate 2 (s.taking (7 + c) (s.canAbort c onBus)))

/-- R439. Writing RECOVER starts bus-off recovery. -/
def execCanRecover (c : Fin 2) (s : State) : Out := .next (s.gate 2 (s.taking (7 + c) (s.canRecover c)))

/-- R439. 128 occurrences of 11 recessive bits complete bus-off recovery. -/
def execCanBusOffRecovery (c : Fin 2) (s : State) : Out := .next (s.gate 2 (s.canRecovered c))

/-- R441. A received character or break is pushed with its flags. -/
def execUartReceive (u : Fin 4) (byte : BitVec 8) (pe fe brk : Bool) (s : State) : Out := .next (s.gate 2 (s.taking 9 (s.uartReceive u byte.toNat pe fe brk)))

/-- R441. The line idle for RTO bit times sets RTOF and raises UARTu_RX. -/
def execUartIdleTimeout (u : Fin 4) (s : State) : Out :=
  .next (s.gate 2 (if !s.fb (Reg.UARTu_CTL u) Reg.UARTu_CTL_EN || decide (s.fl (Reg.UARTu_CTL u) Reg.UARTu_CTL_RTO = 0) then s
    else (s.sf (Reg.UARTu_STAT u) Reg.UARTu_STAT_RTOF 1).raise (0x380 + 4 * u)))

/-- R441. A store to UARTu_DATA queues a character or a break. -/
def execUartDataWrite (u : Fin 4) (v : BitVec 24) (s : State) : Out := .next (s.gate 2 (s.taking 9 (s.uartPush u v)))

/-- R429. A load from UARTu_DATA pops a received item into `rdata`. -/
def execUartDataRead (u : Fin 4) (s : State) : Out := .next (s.gate 2 (s.taking 9 (withData (s.uartPop u))))

/-- R442. A character is sent, with DE release and UARTu_TX when the FIFO empties. -/
def execUartTransmitDone (u : Fin 4) (s : State) : Out := .next (s.gate 2 (s.uartSent u))

/-- R443. A store to SPIs_DATA queues a word to send. -/
def execSpiDataWrite (i : Fin 2) (v : BitVec 24) (s : State) : Out := .next (s.gate 4 (s.taking 10 (s.spiPush i v)))

/-- R429. A load from SPIs_DATA pops a received word into `rdata`. -/
def execSpiDataRead (i : Fin 2) (s : State) : Out := .next (s.gate 4 (s.taking 10 (withData (s.spiPop i))))

/-- R443. A word transfer completes, pushing the received bits and handling CS. -/
def execSpiWordDone (i : Fin 2) (v : BitVec 24) (s : State) : Out := .next (s.gate 4 (s.spiDone i v))

/-- R443. CS held with an empty FIFO for 2^STALL µs is released with STALLF. -/
def execSpiStallTimeout (i : Fin 2) (s : State) : Out := .next (s.gate 4 (s.spiStall i))

/-- R443. Writing END releases CS after the current word. -/
def execSpiEnd (i : Fin 2) (s : State) : Out := .next (s.gate 4 (s.taking 10 (s.spiEnd i)))

/-- R444. I²C command 0 sends START or repeated START and an address byte. -/
def execStart (c : Fin 2) (byte : BitVec 8) (s : State) : Out := .next (s.gate 2 (s.taking 10 (s.i2cPush c 0 byte.toNat)))

/-- R444. I²C command 1 sends a byte. -/
def execSend (c : Fin 2) (byte : BitVec 8) (s : State) : Out := .next (s.gate 2 (s.taking 10 (s.i2cPush c 1 byte.toNat)))

/-- R444. I²C command 2 reads a byte and acknowledges it. -/
def execReadAck (c : Fin 2) (s : State) : Out := .next (s.gate 2 (s.taking 10 (s.i2cPush c 2 0)))

/-- R444. I²C command 3 reads a byte without acknowledge. -/
def execReadNack (c : Fin 2) (s : State) : Out := .next (s.gate 2 (s.taking 10 (s.i2cPush c 3 0)))

/-- R444. I²C command 4 sends STOP. -/
def execStop (c : Fin 2) (s : State) : Out := .next (s.gate 2 (s.taking 10 (s.i2cPush c 4 0)))

/-- R444. I²C command 5 pulses SCL until SDA is high, then STOP. -/
def execI2cRecover (c : Fin 2) (s : State) : Out := .next (s.gate 2 (s.taking 10 (s.i2cPush c 5 0)))

/-- R444. An I²C controller command completes on the bus, with NACK handling. -/
def execI2cCommandDone (c : Fin 2) (ack : Bool) (byte : BitVec 8) (s : State) : Out := .next (s.gate 2 (s.i2cDone c ack byte.toNat))

/-- R444. Another controller releases the I²C bus with a STOP, and a START waiting for a free bus proceeds. -/
def execI2cBusFree (c : Fin 2) (s : State) : Out := .next (s.gate 2 (if (s.i2c c).own then s else s.i2cBus c false))

/-- R445. A lost arbitration flushes the command FIFO and raises I2Cc_ERR. -/
def execArbitrationLost (c : Fin 2) (s : State) : Out :=
  .next (s.gate 2 (if s.fb (Reg.I2Cc_CTL c) Reg.I2Cc_CTL_EN && (decide ((s.i2c c).cmd ≠ []) || (s.i2c c).own) then
      s.i2cFail c Reg.I2Cc_STAT_ARBF true else s))

/-- R445. SCL held low for SCLTO ms flushes the FIFO and releases the lines. -/
def execSclTimeout (c : Fin 2) (s : State) : Out :=
  .next (s.gate 2 (if s.fb (Reg.I2Cc_CTL c) Reg.I2Cc_CTL_EN && decide (s.fl (Reg.I2Cc_CTL c) Reg.I2Cc_CTL_SCLTO ≠ 0) then
      s.i2cFail c Reg.I2Cc_STAT_TOF false else s))

/-- R429. A load from I2Cc_PORT pops a received byte into `rdata`. -/
def execI2cPortRead (c : Fin 2) (s : State) : Out := .next (s.gate 2 (s.taking 10 (withData (s.i2cPop c))))

/-- R448. A bus reset clears ADDR and RDY bits and raises USB_BUS. -/
def execUsbBusReset (s : State) : Out := .next (s.gate 3 (s.usbReset))

/-- R448. 3 ms of bus idle sets SUSP. -/
def execUsbSuspend (s : State) : Out :=
  .next (s.gate 3 (if s.usbOn then (s.sf Reg.USB_STAT Reg.USB_STAT_SUSP 1).raise 0x39D else s))

/-- R448. Bus activity clears SUSP and sets RESUMEF. -/
def execUsbResume (s : State) : Out :=
  .next (s.gate 3 (if s.usbOn && s.fb Reg.USB_STAT Reg.USB_STAT_SUSP then
      ((s.sf Reg.USB_STAT Reg.USB_STAT_SUSP 0).sf Reg.USB_STAT Reg.USB_STAT_RESUMEF 1).raise 0x39D else s))

/-- R449. An OUT packet is stored, NAKed or STALLed. -/
def execUsbOut (p : Fin 4) (ws : List (BitVec 24)) (cnt : BitVec 7) (s : State) : Out := .next (s.gate 3 (s.taking 11 (s.usbOut p ws cnt.toNat)))

/-- R449. A SETUP packet is accepted into buffer 0. -/
def execUsbSetup (w0 w1 w2 : BitVec 24) (s : State) : Out := .next (s.gate 3 (s.taking 11 (s.usbSetup [w0, w1, w2])))

/-- R449. An IN packet is sent and, once acknowledged, RDY clears. -/
def execUsbIn (p : Fin 4) (ack : Bool) (s : State) : Out := .next (s.gate 3 (s.taking 11 (s.usbIn p ack)))

/-- R448. VBUS becomes present or absent, changing attachment. -/
def execUsbVbusChange (v : Bool) (s : State) : Out := .next (s.gate 3 ((s.sf Reg.USB_STAT Reg.USB_STAT_VBUS (b2n v)).commShow))

/-- R452. Writing XSPI_CMD.GO starts a flash command. -/
def execXspiCommand (v : BitVec 24) (s : State) : Out := .next (s.gate 4 (s.taking 12 (s.xspiCmd v)))

/-- R452. A flash command ends, after status polling, raising XSPI_DONE; `ws` are the data it read. -/
def execXspiCommandDone (ws : List (BitVec 24)) (s : State) : Out := .next (s.gate 4 (s.xspiDone ws false))

/-- R452. Status polling reaching TMO sets TOF. -/
def execXspiPollTimeout (ws : List (BitVec 24)) (s : State) : Out := .next (s.gate 4 (s.xspiDone ws true))

/-- R453. CRYPT OP 1 hashes ARG2 bytes; `v` gives the other fields of the word written to CRYPT_OP. -/
def execSha256 (v : BitVec 24) (s : State) : Out := .next (s.taking 5 (s.cryptOp (setF v Reg.CRYPT_OP_OP 1)))

/-- R453. CRYPT OP 2 encrypts with AES-GCM and writes the tag. -/
def execGcmEncrypt (v : BitVec 24) (s : State) : Out := .next (s.taking 5 (s.cryptOp (setF v Reg.CRYPT_OP_OP 2)))

/-- R454. CRYPT OP 3 decrypts and checks the tag, zeroing output on failure. -/
def execGcmDecrypt (v : BitVec 24) (s : State) : Out := .next (s.taking 5 (s.cryptOp (setF v Reg.CRYPT_OP_OP 3)))

/-- R453. CRYPT OP 4 verifies an ECDSA P-256 signature. -/
def execEcdsaVerify (v : BitVec 24) (s : State) : Out := .next (s.taking 5 (s.cryptOp (setF v Reg.CRYPT_OP_OP 4)))

/-- R453. CRYPT OP 5 clears the key registers. -/
def execClearKey (v : BitVec 24) (s : State) : Out := .next (s.taking 5 (s.cryptOp (setF v Reg.CRYPT_OP_OP 5)))

/-- R455. A crypto job ends, raising CRYPT_DONE or CRYPT_ERR. -/
def execCryptJobDone (s : State) : Out := .next s.cryptDone

/-- R456. 1,024 noise samples are conditioned and 10 words pushed into the RNG FIFO; `fail`: a health test fails. -/
def execRngBlock (fail : Bool) (s : State) : Out := .next (s.rngBlock fail)

/-- R456. A load from CRYPT_RNG pops one word into `rdata`. -/
def execRngPop (s : State) : Out := .next (s.taking 5 (withData s.rngPop))

end Sys2Proof.Machine
end

