-- ==== Sys2Proof/Machine/Port.lean ====
section
/-!
DEFINITION. The ports of Chaden Link: the characters of its ordered sets and frames (R469–R471), what waits and what has been sent on a port
(R472, R474), and the manager's beacons (R490).
-/

namespace Sys2Proof.Machine

/-! ### Characters -/

/-- The control character of code `b`; a data character is its byte. -/
def kChar (b : Nat) : Nat := 0x100 + b

/-- The ordered sets (R469): ACK and NAK name an LSEQ and its complement. -/
def ackSet (q : Nat) : List Nat := [kChar 0x7C, q, 255 - q, 0]

/-- NAK naming LSEQ `q`. -/
def nakSet (q : Nat) : List Nat := [kChar 0x9C, q, 255 - q, 0]

/-- ECHO, the delay probe. -/
def echoSet : List Nat := [kChar 0x1C, 0, 0, 0]

/-- ECHR, the reply to ECHO. -/
def echrSet : List Nat := [kChar 0x5C, 0, 0, 0]

/-- The three bytes of a word, [23:16] first (R470). -/
def wordBytes (w : Word) : List Nat := [w.toNat / 65536, w.toNat / 256 % 256, w.toNat % 256]

/-- The CRC of R471 advanced by one byte: polynomial 0x1021, no reflection. -/
def crcByte (c : BitVec 16) (b : Nat) : BitVec 16 :=
  (List.range 8).foldl (fun c _ => if c.msb then (c <<< 1) ^^^ 0x1021 else c <<< 1) (c ^^^ BitVec.ofNat 16 (b * 256))

/-- The characters of a frame (R471): SOF with its LSEQ, or BSOF for a beacon, the words, the CRC from 0xFFFF over LSEQ and words with its high
byte first, EOF. -/
def frameChars (lseq : Option Nat) (ws : List Word) : List Nat :=
  let head := match lseq with | some q => [q] | none => []
  let body := head ++ ws.flatMap wordBytes
  let crc := (body.foldl crcByte 0xFFFF).toNat
  kChar (if lseq.isSome then 0xFB else 0x3C) :: body ++ [crc / 256, crc % 256, kChar 0xFD]

/-- A frame's words: H0 (R470), then the words of its type. -/
def frame (ty dst src cid : Nat) (ws : List Word) : List Word :=
  w24 (ty * 2 ^ 20 + dst * 2 ^ 15 + src * 2 ^ 10 + cid % 1024) :: ws

/-! ### Ports -/

/-- Port `p` of the link. -/
def State.port (s : State) (p : Nat) : PortSt := SMap.get PortSt.init s.chn.port p

/-- Port `p` set. -/
def State.setPort (s : State) (p : Nat) (x : PortSt) : State :=
  { s with chn := { s.chn with port := SMap.set PortSt.init s.chn.port p x } }

/-- The device is a manager (R585). -/
def State.isManager (s : State) : Bool := s.fb Reg.SYS_STRAP Reg.SYS_STRAP_ROLE

/-- The device's own number (R475): 0 on a manager and on an unnumbered worker. -/
def State.ownNum (s : State) : Nat := s.fl Reg.CHN_STAT Reg.CHN_STAT_NUM

/-- A worker's upstream port. -/
def State.upPort (s : State) : Nat := s.fl Reg.CHN_STAT Reg.CHN_STAT_UP

/-- Port `p` is LINKED (R468). -/
def State.linked (s : State) (p : Nat) : Bool := s.fb (Reg.CHN_PpSTAT p) Reg.CHN_PpSTAT_LINK

/-- Port `p` carries frames: it is LINKED, the link is enabled and its island runs. -/
def State.carries (s : State) (p : Nat) : Bool := s.linked p && s.fb Reg.CHN_CTL Reg.CHN_CTL_EN && s.islandRuns 8

/-- Frames that wait start while fewer than 16 are unacknowledged (R472), relayed frames before the device's own (R474). -/
def PortSt.pump (x : PortSt) : Nat → PortSt
  | 0 => x
  | n + 1 =>
    if 16 ≤ x.unack.length then x
    else
      let start := fun (x : PortSt) (f : List Word) =>
        { x with unack := x.unack ++ [(x.txSeq, f, 1)], txSeq := (x.txSeq + 1) % 256, last := frameChars (some x.txSeq) f }
      match x.relay, x.queue with
      | f :: r, _ => PortSt.pump (start { x with relay := r } f) n
      | [], f :: r => PortSt.pump (start { x with queue := r } f) n
      | [], [] => x

/-- The frames that wait at a port. -/
def PortSt.waits (x : PortSt) : Nat := x.relay.length + x.queue.length

/-- A frame of the device's own is sent on port `p`; a port that carries none drops it. -/
def State.chnSend (s : State) (p : Nat) (f : List Word) : State :=
  if s.carries p then
    let x := s.port p
    s.setPort p (PortSt.pump { x with queue := x.queue ++ [f] } (x.waits + 1))
  else s

/-- A frame that came in on the other port is relayed on port `p` (R474). -/
def State.chnRelay (s : State) (p : Nat) (f : List Word) : State :=
  if s.carries p then
    let x := s.port p
    s.setPort p (PortSt.pump { x with relay := x.relay ++ [f] } (x.waits + 1))
  else s

/-- An ordered set or a beacon is sent on port `p` (R469, R490). -/
def State.chnSet (s : State) (p : Nat) (cs : List Nat) : State :=
  if s.linked p then s.setPort p { s.port p with last := cs } else s

/-! ### Beacons -/

/-- The characters of a beacon (R490): device time `t`, CORR, and the manager's TQ. -/
def beaconChars (t : Pair) (corr : Word) (tq : Nat) : List Nat := frameChars none (frame 9 0 0 0 [pairLo t, pairHi t, corr, w24 (tq * 2 ^ 22)])

/-- The beacon of a tick on which DT has become a multiple of 10,000 (R490): a manager with BEN and a locked TPLL sends it on each linked port,
and its departure is a capture input (R495). Its command does it, or at the latest the next tick as it begins. -/
def State.beaconSend (s : State) : State :=
  if s.chn.beacon = false then s
  else
    let s := { s with chn := { s.chn with beacon := false } }
    if s.islandRuns 8 ∧ s.isManager ∧ s.time.locked ∧ s.fb Reg.CHN_CTL Reg.CHN_CTL_BEN ∧ s.fb Reg.CHN_CTL Reg.CHN_CTL_EN then
      let b := beaconChars s.time.dt 0 s.tq
      let s := (s.chnSet 0 b).chnSet 1 b
      if s.linked 0 ∨ s.linked 1 then s.capSeen 19 none else s
    else s

end Sys2Proof.Machine
end

