-- ==== Sys2Proof/Machine/Watch.lean ====
section
/-!
DEFINITION. The watches that count 1 µs boundaries of device time: the stall watch of the threads (R556) and the checkpoint deadlines of the
shadow pairs (R563).
-/

namespace Sys2Proof.Machine

/-- At least `n` µs have passed since tick `t`. -/
def State.waited (s : State) (t n : Nat) : Bool := decide (t + 100 * n ≤ s.time.ticks)

/-! ### The stall watch -/

/-- The address STALL reports (R182): that of the access the thread waits on, else XPC. -/
def State.stallAddr (s : State) (k : Nat) : Word :=
  let t := s.th k
  match t.infl with
  | h :: _ =>
    (match (s.en (k / 4)).spine.find? (fun a => a.id == h.id) with
     | some a => a.va
     | none => match h.snap.slot with | some sl => sl.xferAt | none => h.snap.pc)
  | [] => match t.ctx.slot with | some sl => sl.xferAt | none => t.ctx.pc

/-- STALL_T of a thread's engine. -/
def State.stallT (s : State) (k : Nat) : Nat := s.fl (Reg.ENG_STALL (k / 4)) Reg.ENG_STALL_STALL_T

/-- Thread `k` is watched (R556): its engine's STALL_T is not 0, TPLL has locked, the device is not in DOZE, the thread is READY or WAIT and not
in ROM code (R638), and the bezel does not hold it. -/
def State.stallWatched (s : State) (k : Nat) : Bool :=
  let t := s.th k
  decide (s.stallT k ≠ 0) && s.time.locked && decide (s.pwr.state = 0) && (decide (t.mode = .run) || decide (t.mode = .sync)) &&
    decide (t.halt = 0) && decide (s.holdOf k = 0) && !t.rom

/-- A tick of the stall watch (R556); `us`: it is a 1 µs boundary. At the first boundary STALL_T µs after a thread's last commit, or after its
entry into a watched condition, STALL is due. -/
def State.stallTick (s : State) (us : Bool) : State :=
  { s with thr := s.thr.map (fun p =>
      if p.2.mode = .off then p
      else if s.stallWatched p.1 then
        (p.1, { p.2 with stall := p.2.stall || (us && !p.2.stalled && s.waited p.2.watch (s.stallT p.1)) })
      else (p.1, { p.2 with watch := s.time.ticks, stall := false })) }

/-- Thread `k` takes the STALL that is due (R556): source 3, FLT_CNT2 and the fault log record it. The count goes on at the next commit. -/
def State.stallTake (s : State) (k : Nat) : State :=
  if (s.th k).stall ∧ s.stallWatched k then
    let s := s.mapTh k (fun t => { t with stall := false, stalled := true })
    let a := s.stallAddr k
    (((s.arrive (k / 4) 3).incW Reg.FLT_CNT2).faultLog 2 k 0 a).signalExc k .stall a
  else s

/-- R556. A watched thread that has made no progress for STALL_T µs takes STALL; without the command it does so as the next tick begins. -/
def execStall (k : Fin 512) (s : State) : Out := .next (s.stallTake k)

/-! ### Checkpoint deadlines -/

/-- Pair `n` is armed. -/
def State.pairArmed (s : State) (n : Nat) : Bool := s.fb (Reg.SP_nCTL n) Reg.SP_nCTL_ARMED

/-- CKDL of pair `n`. -/
def State.ckdl (s : State) (n : Nat) : Nat := s.fl (Reg.SP_nDL n) Reg.SP_nDL_CKDL

/-- A 1 µs boundary of the deadline watches (R563), which stand still in DOZE: a deadline whose time has run out expires. -/
def State.ckTick (s : State) : State :=
  if s.pwr.state ≠ 0 then s
  else s.armedPairs.foldl (fun s n =>
    match SMap.get none s.flt.ckAt n with
    | some t =>
      if s.ckdl n ≠ 0 ∧ s.waited t (s.ckdl n) then
        { s with flt := { s.flt with ckAt := SMap.set none s.flt.ckAt n none, ckDue := n :: s.flt.ckDue } }
      else s
    | none => s) s

/-- The expired deadline of pair `n` is reported (R563): CKMISS is logged with the SEQ of the last complete checkpoint, and the pair is
triggered where TRIG says so (R562). -/
def State.ckMiss (s : State) (n : Nat) : State :=
  if n ∈ s.flt.ckDue then
    let s := { s with flt := { s.flt with ckDue := s.flt.ckDue.filter (fun m => decide (m ≠ n)) } }
    let u := s.fl (Reg.SP_nCAP n) Reg.SP_nCAP_UNIT
    let s := s.faultLog 8 (s.fl (Reg.SP_nCTL n) Reg.SP_nCTL_PRI) n (w24 (s.fl (Reg.STR_CKuSTAT u) Reg.STR_CKuSTAT_SEQ))
    if (s.fl (Reg.SP_nCAP n) Reg.SP_nCAP_TRIG).testBit 6 then s.trigger n 6 else s
  else s

/-- R563. A pair's checkpoint deadline has expired, logging CKMISS and triggering; without the command this is done as the next tick begins. -/
def execCkmiss (n : Fin 32) (s : State) : Out := .next (s.ckMiss n)

end Sys2Proof.Machine
end

