-- ==== Sys2Proof/Machine/Time.lean ====
section
/-!
DEFINITION. Device time, the time base and its sources, slewing, and the timer channels (R403–R424).
-/

namespace Sys2Proof.Machine

/-! ### Time-stamp quality and slewing -/

/-- The state of time-base source `k`: 0 OK, 1 WATCH, 2 OUT, 3 ABSENT. -/
def State.tbSt (s : State) (k : Nat) : Nat := s.fl Reg.REF_TBSTAT (stF k)

/-- The selected time-base source. -/
def State.tbSel (s : State) : Nat := s.fl Reg.REF_TBSTAT Reg.REF_TBSTAT_SEL

/-- The device is a worker that follows the manager's beacons (R492). -/
def State.follows (s : State) : Bool := !s.fb Reg.SYS_STRAP Reg.SYS_STRAP_ROLE && s.fb Reg.CHN_TCTL Reg.CHN_TCTL_FOLLOW

/-- The time-stamp quality a following worker's link gives (R494). -/
def State.followTq (s : State) : Nat :=
  let v := s.rd Reg.CHN_TSTAT
  if s.chn.locked = false then 3
  else if getF v Reg.CHN_TSTAT_BLOST = 1 ∨ getF v Reg.CHN_TSTAT_AHEAD = 1 then 2
  else if getF v Reg.CHN_TSTAT_LOCK = 0 then 1 else 0

/-- TIME_STAT.SLEWING and TQ follow the time base (R412, R414). -/
def State.tqShow (s : State) : State :=
  let slew := decide (s.rd Reg.TIME_SLEWREM ≠ 0)
  let tq := if s.time.valid = false then 3
    else if s.tbSel = 2 ∨ s.fb Reg.REF_TBSTAT Reg.REF_TBSTAT_HOLDOVER ∨ s.tbSt s.tbSel = 2 then 2
    else if s.tbSt s.tbSel = 1 ∨ slew then 1 else 0
  let tq := if s.follows then max tq (max s.followTq (s.fl Reg.CHN_TSTAT Reg.CHN_TSTAT_BTQ)) else tq
  (s.sf Reg.TIME_STAT Reg.TIME_STAT_SLEWING (b2n slew)).tqSet tq

/-- Ticks are added to SLEWREM (R412); on a worker that follows, the link owns SLEWREM and the addition is discarded (R492). -/
def State.slewAdd (s : State) (n : Int) : State :=
  if s.follows then s
  else (s.wr Reg.TIME_SLEWREM (i24 (satQ ((s.rd Reg.TIME_SLEWREM).toInt + n)))).tqShow

/-! ### Ticks -/

/-- Going from device time `old` to `now`, both before the wrap, a multiple of `p` ticks is reached or passed (R255, R408). -/
def crossed (old now p : Nat) : Bool :=
  decide (p ≠ 0) && decide (old < now) && (decide (2 ^ 48 ≤ now) || decide (now / p ≠ old / p))

/-- Device time advances by `adv`; DTX counts the wrap (R403), and the assay the time of the hour (R572). -/
def State.dtAdd (s : State) (adv : Nat) : State :=
  let now := s.time.dt.toNat + adv
  { s with time := { s.time with dt := BitVec.ofNat 48 now, dtx := if 2 ^ 48 ≤ now then s.time.dtx + 1 else s.time.dtx }
           sys := { s.sys with hour := s.sys.hour + adv } }

/-- Capsules whose period boundary lies between two device times have one boundary due (R255, R404). -/
def State.periodsDue (s : State) (old now : Nat) : State :=
  { s with bz := { s.bz with caps := s.bz.caps.map (fun p =>
      if decide (p.1 ≠ 0) && crossed old now (100 * getBits (SMap.get 0 p.2.live 2) 19 0) then (p.1, { p.2 with due := true }) else p) } }

/-- What a tick owes the one before is done as it begins: matches of the timer channels (R416), period boundaries (R255), promotions (R256),
the tokens of a new µs (R222), the beacon of a multiple of 100 µs (R490), stalls (R556) and missed checkpoint deadlines (R563). Their commands do the same earlier, so that each happens once. -/
def State.settleTick (s : State) : State :=
  let s : State := s.tcs.foldl (fun s n => s.tcSettle n) s
  let s : State := (s.bz.caps.map (fun p => p.1)).foldl (fun s c => (s.periodBoundary c).promote c) s
  let s : State := ((s.thr.filter (fun p => p.2.stall)).map (fun p => p.1)).foldl (fun s k => s.stallTake k) s
  let s : State := s.flt.ckDue.foldl (fun s n => s.ckMiss n) s
  s.tokenRefill.beaconSend

/-- A TB tick on which DT advances by `adv` (R403, R412, R415): the timer channels that run count; a window ends where DT reaches a multiple
of 1 s (R408), at each 10 µs the coil currents are shown (R391), and at each µs the bezel counts the capsules that wait (R256) and the stall and
deadline watches are judged (R556, R563). -/
def State.tbTick (s : State) (adv : Nat) : State :=
  let old := s.time.dt.toNat
  let now := old + adv
  let s := s.dtAdd adv
  let s := { s with
    time := { s.time with ticks := s.time.ticks + 1 }
    chn := { s.chn with beacon := decide (s.time.dt.toNat % 10000 = 0) } }
  let s : State := s.tcs.foldl (fun s n => s.tcTick n) s
  let s := if crossed old now 100000000 then { s with time := { s.time with winDue := true } } else s
  let s := s.periodsDue old now
  let s := if crossed old now 1000 then s.solMon else s
  let s := if crossed old now 100000 then s.usbFrame else s
  let us := crossed old now 100
  let s := s.stallTick us
  if us then ({ s with memc := { s.memc with due := true } }).waitCount.ckTick else s

/-- The ticks from one slew adjustment to the next (R412, R426): SLEWI × 100 with SLEWI between 10 and 1,000; 1,000 on a worker that follows
(R492). -/
def State.slewEvery (s : State) : Nat :=
  if s.follows then 1000 else min 1000 (max 10 (s.fl Reg.TIME_SLEWCFG Reg.TIME_SLEWCFG_SLEWI)) * 100

/-- The next tick is adjusted (R412). -/
def State.slewDue (s : State) : Bool := decide (s.rd Reg.TIME_SLEWREM ≠ 0) && decide (s.slewEvery ≤ s.time.slewAt + 1)

/-- One TB tick: DT advances by 1, or on an adjusted tick by 2 or 0 (R403, R412). -/
def State.tbStep (s : State) : State :=
  if s.islandRuns 0 = false then s
  else
    let s := s.settleTick.zcTick
    let r := (s.rd Reg.TIME_SLEWREM).toInt
    if s.slewDue then
      let s := { s with time := { s.time with slewAt := 0 } }
      if 0 < r then ((s.wr Reg.TIME_SLEWREM (i24 (r - 1))).tbTick 2).tqShow
      else ((s.wr Reg.TIME_SLEWREM (i24 (r + 1))).tbTick 0).tqShow
    else
      { s with time := { s.time with slewAt := if r = 0 then 0 else s.time.slewAt + 1 } }.tbTick 1

/-- Every post-EOI window that is open is one beat shorter (R175; log entry 3: a tick passes at least one beat of an engine that issues nothing). -/
def State.eoiTick (s : State) : State :=
  ((s.thr.filter (fun p => decide (p.2.postEoi ≠ 0))).map (fun p => p.1)).foldl (fun s k =>
    s.mapTh k (fun t => { t with postEoi := t.postEoi - 1 })) s

/-- A tick of TB on which nothing is commanded (log entry 2); an MDIO access goes on (R433), and the transmit engine
resumes where a hold has ended (R428). -/
def State.tick (s : State) : State := s.eoiTick.tbStep.mdioTick.ethResume

/-! ### Time-base sources -/

/-- The out count of source `k`. -/
def ocF (k : Nat) : Fld := ⟨2 * k + 9, 2 * k + 8⟩

/-- The tolerance of a source in units of 0.01 ppm (R406). -/
def tbTol (k : Nat) : Nat := if k = 2 then 1000000 else 5000

/-- The nominal frequency of source `k` in MHz (R406). -/
def State.tbNom (s : State) (k : Nat) : Nat := if k = 1 ∧ getF s.time.tbctl Reg.REF_TBCTL_EXTF = 0 then 10 else 25

/-- The offset of a source with `ck` cycles in a window, of nominal frequency `fk`, against a reference with `cj` cycles of `fj`, in units of
0.01 ppm with a resolution of 0.04 ppm (R408). -/
def tbOffset (ck fk cj fj : Nat) : Word :=
  let d : Int := (cj * fk : Nat)
  let n : Int := 25000000 * ((ck * fj : Nat) - d)
  i24 (satQ (4 * ((2 * n + d).fdiv (2 * d))))

/-- The source that may be selected: the highest-ranked that is OK or WATCH (R410) and not one that a keeper has returned since the last
window end (R411). -/
def State.tbPick (s : State) : Option Nat := (rankOf s.time.tbctl).find? (fun k => decide (s.tbSt k ≤ 1) && !s.time.late.contains k)

/-- TPLL takes source `k` and is in holdover no more (R410); the event says that the selected source changes (R425). -/
def State.tbSwitch (s : State) (k : Nat) : State :=
  let ch := decide (s.tbSel ≠ k)
  let s := (s.sf Reg.REF_TBSTAT Reg.REF_TBSTAT_SEL k).sf Reg.REF_TBSTAT Reg.REF_TBSTAT_HOLDOVER 0
  (s.raiseIf ch 0x082).commShow.tqShow

/-- Step 2 of R410 for a selected source that is OUT or ABSENT: a switch, or holdover where an absent one has no successor. -/
def State.tbReplace (s : State) : State :=
  let st := s.tbSt s.tbSel
  if st < 2 then s
  else match s.tbPick with
    | some k => s.tbSwitch k
    | none =>
      if st = 3 ∧ s.fb Reg.REF_TBSTAT Reg.REF_TBSTAT_HOLDOVER = false then
        ((s.sf Reg.REF_TBSTAT Reg.REF_TBSTAT_HOLDOVER 1).raise 0x084).tqShow
      else s

/-- Source `k` becomes ABSENT (R407, R409, R410). -/
def State.tbAbsent (s : State) (k : Nat) : State :=
  if s.tbSt k = 3 then s
  else
    let s := ((s.sf Reg.REF_TBSTAT (stF k) 3).sf Reg.REF_TBSTAT (ocF k) 0).raise 0x083
    let s := { s with time := { s.time with okWin := SMap.set 0 s.time.okWin k 0, sum := SMap.set 0 s.time.sum k 0 } }
    (if s.tbSel = k then s.tbReplace else s).tqShow

/-- A keeper's write to REF_TBSTAT (R411): a selected source that it makes OUT is replaced; one that it returns takes part again from the next
window end. An ABSENT source stays ABSENT (R407). -/
def State.tbWrite (s : State) (v : Word) : State :=
  let was := s.tbSt s.tbSel
  let s := (List.range 3).foldl (fun s k =>
    match getF v (stF k) with
    | 0 =>
      if s.tbSt k = 2 then
        ({ s with time := { s.time with late := k :: s.time.late } }.sf Reg.REF_TBSTAT (stF k) 0).sf Reg.REF_TBSTAT (ocF k) 0
      else s
    | 2 =>
      if 2 ≤ s.tbSt k then s
      else ({ s with time := { s.time with okWin := SMap.set 0 s.time.okWin k 0 } }.sf Reg.REF_TBSTAT (stF k) 2).raise 0x081
    | _ => s) s
  (if was = 2 then s else s.tbReplace).tqShow

/-- A write to REF_TBCTL (R411): XEN and EEN act at once, the rest from the next window end. -/
def State.tbCtl (s : State) (v : Word) : State :=
  let s := s.wr Reg.REF_TBCTL (v &&& 0xF8003F)
  let s := if v.getLsbD 21 then s else s.tbAbsent 0
  if v.getLsbD 20 then s else s.tbAbsent 1

/-- The reference for source `k` (R408): the highest-ranked other source that was present for the whole window, as `seen` says, and is not
OUT. -/
def State.tbRef (s : State) (seen : BitVec 3) (k : Nat) : Option Nat :=
  (rankOf s.time.tbctl).find? (fun j => decide (j ≠ k) && decide (s.tbSt j ≤ 1) && seen.getLsbD j)

/-- Source `k` is evaluated at a window end against its reference, from the cycles that each source has shown (R408, R409). -/
def State.tbEval (s : State) (seen : BitVec 3) (cyc : Nat → Nat) (k : Nat) : State :=
  if s.tbSt k = 3 then s
  else match s.tbRef seen k with
    | none => s.sf Reg.REF_TBSTAT Reg.REF_TBSTAT_NOREF 1
    | some j =>
      let o := tbOffset (cyc k) (s.tbNom k) (cyc j) (s.tbNom j)
      let s := s.wr (Reg.REF_OFSk k) o
      let t := max (tbTol k) (tbTol j)
      let m := o.toInt.natAbs
      let oc := if t < m then min 3 (s.fl Reg.REF_TBSTAT (ocF k) + 1) else 0
      let s := s.sf Reg.REF_TBSTAT (ocF k) oc
      let add := fun (s : State) (x : Int) => { s with time := { s.time with sum := SMap.set 0 s.time.sum k x } }
      let sum := SMap.get 0 s.time.sum k + o.toInt
      match s.tbSt k with
      | 0 =>
        if oc = 3 then ((add s sum).sf Reg.REF_TBSTAT (stF k) 2).raise 0x081
        else if 7 * t < 10 * m then ((add s o.toInt).sf Reg.REF_TBSTAT (stF k) 1).raise 0x080
        else add s 0
      | 1 =>
        if oc = 3 then ((add s sum).sf Reg.REF_TBSTAT (stF k) 2).raise 0x081
        else if 10 * m ≤ 6 * t then (add s 0).sf Reg.REF_TBSTAT (stF k) 0
        else add s sum
      | _ => s

/-- The windows each source has been OK are counted (R410). -/
def State.tbCount (s : State) : State :=
  { s with time := { s.time with okWin := (List.range 3).foldl (fun l k =>
      SMap.set 0 l k (if s.tbSt k = 0 then min 2 (SMap.get 0 l k + 1) else 0)) s.time.okWin } }

/-- Selection at a window end (R410, R413): holdover ends where a source is eligible; a selected source just judged OUT is replaced, with
the correction of AUTOCOR, and stays selected where none is eligible; AUTORET returns to a higher rank that has been OK for two windows. -/
def State.tbSelect (s : State) (wasOut : Bool) : State :=
  let sel := s.tbSel
  if s.fb Reg.REF_TBSTAT Reg.REF_TBSTAT_HOLDOVER then
    match s.tbPick with
    | some k => s.tbSwitch k
    | none => s
  else if s.tbSt sel = 2 ∧ wasOut = false then
    let s1 := s.tbReplace
    if s1.tbSel ≠ sel ∧ s.time.tbctl.getLsbD 23 then s1.slewAdd (-(SMap.get 0 s.time.sum sel)) else s1
  else if s.time.tbctl.getLsbD 22 then
    match ((rankOf s.time.tbctl).takeWhile (fun k => k != sel)).find? (fun k => decide (2 ≤ SMap.get 0 s.time.okWin k)) with
    | some k => s.tbSwitch k
    | none => s
  else s

/-- Source `k` is enabled (R406). -/
def State.tbEnabled (s : State) (k : Nat) : Bool :=
  match k with
  | 0 => s.fb Reg.REF_TBCTL Reg.REF_TBCTL_XEN
  | 1 => s.fb Reg.REF_TBCTL Reg.REF_TBCTL_EEN
  | _ => true

/-- A window end that is due (R407–R414, R422, R423); a source without an estimate reads offset 0. `seen`: the sources with edges for the
whole window, `cyc` their cycles in it, `awu` the AWU period measured. -/
def State.windowEnd (s : State) (seen : BitVec 3) (cyc : Nat → Nat) (awu : Word) : State :=
  if s.islandRuns 0 = false ∨ s.time.winDue = false then s
  else
    let whole := !s.time.part
    let s := { s with time := { s.time with tbctl := s.rd Reg.REF_TBCTL, winDue := false, late := [], part := false } }
    let s := s.sf Reg.REF_TBSTAT Reg.REF_TBSTAT_NOREF 0
    let s : State := (List.range 3).foldl (fun s k => s.wr (Reg.REF_OFSk k) 0) s
    let s : State := (List.range 3).foldl (fun s k =>
      if decide (s.tbSt k = 3) && seen.getLsbD k && s.tbEnabled k then s.sf Reg.REF_TBSTAT (stF k) 0 else s) s
    let sel : Nat := s.tbSel
    let wasOut := decide (s.tbSt sel = 2)
    let s := (rankOf s.time.tbctl).foldl (fun s k => s.tbEval seen cyc k) s
    let s := s.tbCount
    let good := whole && decide (sel < 2) && decide (s.tbSt sel = 0) && !s.fb Reg.REF_TBSTAT Reg.REF_TBSTAT_HOLDOVER
    let s := { s with time := { s.time with valid := s.time.valid || good } }
    ((s.tbSelect wasOut).wr Reg.REF_AWUCAL awu).tqShow.raise 0x085

/-- TPLL first locks (R28, R403): the TB island and device time start, the islands take what waits in their from-fabric queues, and a first run
of the assay that awaits the lock starts (R575). -/
def State.tpllLock (s : State) : State :=
  if s.time.locked then s
  else
    let s := ({ s with time := { s.time with locked := true } }).sf Reg.TIME_STAT Reg.TIME_STAT_LOCK 1
    let s : State := (List.range 6).foldl (fun s q => s.fqDrain (64 + q)) s
    if s.sys.runDue then { s with sys := { s.sys with runDue := false } }.sf Reg.ASY_STAT Reg.ASY_STAT_BUSY 1 else s

/-! ### Commands -/

/-- R28. TPLL first locks after power-on, starting the TB island, device time and every function that waits for lock. -/
def execTpllLock (s : State) : Out := .next s.tpllLock

/-- R408. At each 1 s window end the time-base sources are evaluated, states updated, selection and AWUCAL made: `seen`, the sources that
showed edges for the whole window; `c0` to `c2`, the cycles of each in it; the AWU period measured. Nothing happens before a window has
ended. -/
def execWindowEnd (seen : BitVec 3) (c0 c1 c2 : BitVec 32) (awu : BitVec 24) (s : State) : Out :=
  .next (s.windowEnd seen (fun k => match k with | 0 => c0.toNat | 1 => c1.toNat | _ => c2.toNat) awu)

/-- R407. A source with no edge for 1 µs becomes ABSENT and may be switched away from or holdover entered; in PATROL and DORMANT the
time base stands still (R422). -/
def execTbAbsent (k : Fin 3) (s : State) : Out := .next (if 2 ≤ s.pwr.state then s else s.tbAbsent k)

/-- R411. A keeper write to REF_TBSTAT.STk returns a source to OK or makes it OUT. -/
def execTbStateWrite (v : BitVec 24) (s : State) : Out := .next (s.gate 0 (s.tbWrite v))

/-- R412. A write to TIME_SLEW adds ticks to SLEWREM. -/
def execTimeSlew (v : BitVec 24) (s : State) : Out := .next (s.gate 0 (s.slewAdd v.toInt))

/-- R412. Every SLEWI × 100 ticks while SLEWREM ≠ 0, DT advances by 0 or 2: the tick on which it does, where the next tick is that one. -/
def execSlewAdjustment (s : State) : Out := .next (if s.slewDue then s.tbStep else s)

/-- R415. Enabling a timer channel with STG = 0 starts it on the 4th TB tick. -/
def execTimerStart (n : Fin 64) (s : State) : Out :=
  .next (s.gate 0 (if s.fb (Reg.TCn_CFG n) Reg.TCn_CFG_EN && !s.fb (Reg.TCn_CFG n) Reg.TCn_CFG_STG && !(s.tc n).run then s.tcStart n else s))

/-- R416. A counter that has incremented to CMP in this tick sets CMPF, raises TIME_CMPn, adds INT and may clear EN. -/
def execTimerMatch (n : Fin 64) (s : State) : Out := .next (s.gate 0 (s.tcSettle n))

/-- R418. An edge, rising or falling, of the capture pin that channel `n` selects (CSEL 11 to 14) writes TCn_CAP and raises TIME_CAPn where
CEDGE selects it; the channel's other capture inputs are happenings with commands of their own, which capture as they occur (R417). -/
def execTimerCapture (n : Fin 64) (rise : Bool) (s : State) : Out :=
  .next (s.gate 0 (let c := s.fl (Reg.TCn_CFG n) Reg.TCn_CFG_CSEL
    if 11 ≤ c ∧ c ≤ 14 ∧ s.cedge n rise then s.tcCapture n else s))

/-- R417. Writing TCn_STAT.SWCAP makes a capture when CSEL = 21. -/
def execSwcap (n : Fin 64) (s : State) : Out :=
  .next (s.gate 0 (if s.fl (Reg.TCn_CFG n) Reg.TCn_CFG_CSEL = 21 then s.tcCapture n else s))

/-- R418. A load of TCn_CAP returns the capture in `rdata` and clears CAPV. -/
def execCaptureRead (who : Who) (n : Fin 64) (s : State) : Out := .next (s.gate 0 (withData (s.capRead who n)))

/-- R419. A write to TIME_GSTART releases staged channels or sets or cancels a timed start. -/
def execGstart (v : BitVec 24) (s : State) : Out := .next (s.gate 0 (s.gstart v))

/-- R419. DT reaches the GSAT target and the staged channels start together. -/
def execTimedGlobalStart (s : State) : Out := .next (s.gate 0 (s.timedStart))

end Sys2Proof.Machine
end

