-- ==== Sys2Proof/Machine/Access.lean ====
section
/-!
DEFINITION. The completion of accesses sent through the spine interface: which may complete (R74, R209), and what a thread receives
(R49, R75, R106, R182, R208).
-/

namespace Sys2Proof.Machine

/-- What an access ends in: data (none for a store), or a fault at its first or second word. -/
inductive AccOut where
  | data (d0 d1 : Word)
  | fault (c : Cause) (second : Bool)
  deriving DecidableEq, Repr

/-- The access at place `i` of the spine interface of engine `e`. -/
def State.spineAt (s : State) (e i : Nat) : Option Access := (s.en e).spine[i]?

/-- The access leaves the spine interface. -/
def State.spineDrop (s : State) (e : Nat) (a : Access) : State :=
  s.mapEn e (fun x => { x with spine := x.spine.filter (fun b => b.id != a.id) })

/-- A context after the data of access `a` has arrived. -/
def Ctx.arrived (c : Ctx) (a : Access) : AccOut → Ctx
  | .data d0 d1 => if a.kind = .store then c else c.deliver a.id a.rd d0 d1
  | .fault _ _ => c

/-- Access `a` is a store by which a thread has cleared its own EN bit: it is the thread's last committed instruction (R80). -/
def State.ownStop (s : State) (a : Access) : AccOut → Bool
  | .data _ _ => decide (a.kind = .store) && decide (ownView (.thread a.k) a.pa = Reg.ENG_TCTL (a.k / 4)) &&
      decide ((s.th a.k).mode = .stopping) && !s.fb (Reg.ENG_TCTL (a.k / 4)) (bitF (a.k % 4))
  | .fault _ _ => false

/-- The uncommitted instructions of thread `k` younger than the one with access `id` are abandoned: the first one's context comes back and their
accesses leave the spine interface (R80). -/
def State.dropYounger (s : State) (k id : Nat) : State :=
  let t := s.th k
  let keep := t.infl.takeWhile (fun i => i.id != id)
  match t.infl.drop keep.length with
  | own :: h :: r =>
    let ids := (h :: r).map (fun i => i.id)
    (s.mapEn (k / 4) (fun x => { x with spine := x.spine.filter (fun a => !(a.k == k && ids.contains a.id)) })).setTh k
      { t with ctx := h.snap, infl := keep ++ [own] }
  | _ => s

/-- An access completes (R208): its instruction takes the outcome and commits in order (R49), or meets its fault (R73), with XADDR the
address of the failing word (R182); a replay entry keeps the outcome (R75); a BUS of a store already committed is logged as LATEBUS
(R106). -/
def State.accEnd (s : State) (e : Nat) (a : Access) (o : AccOut) : State :=
  let s := s.spineDrop e a
  let t := s.th a.k
  if t.infl.any (fun i => i.id == a.id) then
    let st := match o with
      | .data _ _ => InflSt.done
      | .fault c sec => InflSt.faulted ⟨c, a.kind, 0, a.va + w24 (b2n sec)⟩
    let s := s.setTh a.k { t with
      ctx := t.ctx.arrived a o
      infl := t.infl.map (fun i => { i with snap := i.snap.arrived a o, st := if i.id = a.id then st else i.st }) }
    let s := if s.ownStop a o then s.dropYounger a.k a.id else s
    (s.commit a.k).haltCheck a.k
  else if t.replay.any (fun r => r.ac.id == a.id && decide (r.out = .wait)) then
    let out := match o with
      | .data d0 d1 => RplOut.data d0 d1
      | .fault c sec => RplOut.fault c sec
    s.setTh a.k { t with replay := t.replay.map (fun r => if r.ac.id = a.id then { r with out := out } else r) }
  else
    match o with
    | .fault .bus sec =>
      if a.kind = .store ∧ region a.pa ≠ .dev then s.faultLog 13 a.k 0 (w24 ((if sec then a.pa2 else a.pa))) else s
    | _ => s

/-- A word read for an access outside the device registers: none where it is uncorrectable. -/
def State.spineRead (s : State) (e : Nat) (kind : AccKind) (a : Nat) : State × Option Word :=
  s.memRead a (match kind with | .fetch => 1 | .xchg => 4 | _ => 0) e

/-- A best-effort request of engine `e` is served at its global SRAM bank: the turn passes on (R221). -/
def State.bankServed (s : State) (e : Nat) (a : Access) : State :=
  if region a.pa = .glob ∧ a.ord = none then
    { s with memc := { s.memc with rr := SMap.set 127 s.memc.rr (globBank a.pa) e } }
  else s

/-- An access to a memory or the locket completes (R105, R196, R197, R200, R558). A pair load whose first word is uncorrectable ends there, its
second word unread (log entry 38: DESIGN CHOICE). -/
def State.memComplete (s : State) (e : Nat) (a : Access) : State :=
  let s := s.bankServed e a
  if s.closed a.pa then s.accEnd e a (.fault .bus false)
  else if a.pair && s.closed a.pa2 then
    (match a.kind with
     | .store => (s.memWrite a.pa a.d0).accEnd e a (.fault .bus true)
     | _ => s.accEnd e a (.fault .bus true))
  else match a.kind with
    | .store =>
      if region a.pa = .mram ∧ (s.mrFull a.pa || (a.pair && (s.memWrite a.pa a.d0).mrFull a.pa2)) then s
      else
        let s := s.memWrite a.pa a.d0
        let s := if a.pair then s.memWrite a.pa2 a.d1 else s
        s.accEnd e a (.data 0 0)
    | .xchg =>
      let (s, r) := s.spineRead e .xchg a.pa
      (match r with
       | none => s.accEnd e a (.fault .ecc false)
       | some w => (s.memWrite a.pa a.d0).accEnd e a (.data w 0))
    | _ =>
      let (s, r) := s.spineRead e a.kind a.pa
      (match r with
       | none => s.accEnd e a (.fault .ecc false)
       | some w =>
         if a.pair then
           let (s, r2) := s.spineRead e a.kind a.pa2
           (match r2 with
            | none => s.accEnd e a (.fault .ecc true)
            | some w2 => s.accEnd e a (.data w w2))
         else s.accEnd e a (.data w 0))

end Sys2Proof.Machine
end

