-- ==== Sys2Proof/Machine/Chaden.lean ====
section
/-!
DEFINITION. Chaden Link (R466–R500): ports, frames, hop-by-hop delivery, enumeration, window accesses, posted writes and their failures,
events across the link, device time on the workers, rings and broken links. The far side's WR and RD stand in Far.lean.
-/

namespace Sys2Proof.Machine

/-! ### Hop-by-hop delivery -/

/-- Every unacknowledged frame that has been sent fewer than four times is sent again (R473); RETRY counts each. -/
def State.resend (s : State) (p : Nat) : State :=
  let x := s.port p
  let n := (x.unack.filter (fun f => decide (f.2.2 < 4))).length
  let r := s.fl (Reg.CHN_PpSTAT p) Reg.CHN_PpSTAT_RETRY
  (s.setPort p { x with unack := x.unack.map (fun f => (f.1, f.2.1, if f.2.2 < 4 then f.2.2 + 1 else f.2.2)) }).sf
    (Reg.CHN_PpSTAT p) Reg.CHN_PpSTAT_RETRY (min 255 (r + n))

/-- The LSEQ `q` of a frame is covered by an acknowledgement of `a` (R469): within half of the numbering. -/
def covered (q a : Nat) : Bool := decide ((a + 256 - q) % 256 < 128)

/-- Frames up to and including LSEQ `a` are acknowledged (R472). -/
def State.acked (s : State) (p a : Nat) : State :=
  let x := s.port p
  let u := x.unack.filter (fun f => !covered f.1 a)
  s.setPort p (PortSt.pump { x with unack := u } x.waits)

/-- A frame is accepted on port `p` (R472): it is acknowledged, and `body` handles it. A worker relays every frame not addressed to it alone
on its other port, and discards all when it has no number (R474, R476). `src` and `dst` are those of H0. -/
def State.accept (s : State) (p : Nat) (f : List Word) (dst src : Nat) (body : State → State) : State :=
  if s.carries p = false ∨ s.resting 13 then s
  else
    let x := s.port p
    let s := s.setPort p { x with rxSeq := (x.rxSeq + 1) % 256, nakked := false, last := ackSet x.rxSeq }
    if s.isManager then (if dst = 0 then body s else s)
    else if s.ownNum = 0 then s
    else if dst = s.ownNum then body s
    else if dst = 0 ∧ src = 0 then (body s).chnRelay (1 - p) f
    else s.chnRelay (1 - p) f

/-! ### The manager's bookkeeping -/

/-- Worker `n` is held by the manager (R476). -/
def State.heldW (s : State) (n : Nat) : Bool := decide (n ≠ 0) && s.fb (Reg.CHN_WnSTAT n) Reg.CHN_WnSTAT_HELD

/-- The manager's port that reaches worker `n`. -/
def State.portOf (s : State) (n : Nat) : Nat := s.fl (Reg.CHN_WnSTAT n) Reg.CHN_WnSTAT_PORT

/-- The workers, 1–31. -/
def workers : List Nat := (List.range 31).map (fun i => i + 1)

/-- Reads and unacknowledged writes outstanding to worker `n`. -/
def State.outTo (s : State) (n : Nat) : Nat :=
  (s.chn.wr.filter (fun w => decide (w.worker = n))).length + (s.chn.rd.filter (fun r => decide (r.worker = n))).length

/-- The counts that registers show follow the manager's tables: NOUT, OUTST and NW, which an enumeration clears as it is asked for (R475.1). -/
def State.chnShow (s : State) : State :=
  let s : State := workers.foldl (fun s n => s.sf (Reg.CHN_WnSTAT n) Reg.CHN_WnSTAT_NOUT (s.outTo n)) s
  let s := s.sf Reg.CHN_OUTST Reg.CHN_OUTST_N (s.chn.wr.length + s.chn.rd.length)
  s.sf Reg.CHN_STAT Reg.CHN_STAT_NW (if s.chn.phase = 1 then 0 else (workers.filter (fun n => s.heldW n)).length)

/-- The sequence of the posted write at place `o` of their order (R484). -/
abbrev seqOf (o : Nat) : Word := w24 o

/-- The WR frame of a posted write. -/
def PostedWr.frame (w : PostedWr) : List Word := Machine.frame 3 w.worker 0 w.cid ([w.waddr, seqOf w.ord] ++ w.data)

/-- The RD frame of a window read. -/
def WindowRd.frame (r : WindowRd) : List Word :=
  Machine.frame 4 r.worker 0 r.cid [r.waddr, w24 (b2n r.ac.pair * 2 ^ 23 + r.tag)]

/-- The event a failed posted write of capsule `cid` raises (R487). -/
def State.failEvent (s : State) (cid : Nat) : Nat :=
  if cid ≠ 0 ∧ (s.capState cid = 3 ∨ s.capState cid = 4) then
    match (List.range 8).find? (fun k => s.fb (Reg.CHN_PWFk k) Reg.CHN_PWFk_V && decide (s.fl (Reg.CHN_PWFk k) Reg.CHN_PWFk_CID = cid)) with
    | some k => 0x3B8 + k
    | none => 0x3B6
  else 0x3B6

/-- A posted write fails (R486, R487): it is no longer outstanding, the failure ring records it, its thread's failures count, its event is
raised. -/
def State.postFail (s : State) (w : PostedWr) (cause : Nat) : State :=
  let i := s.fl Reg.CHN_FLHEAD Reg.CHN_FLHEAD_HEAD
  let s := s.wr (Reg.CHN_FLAi i) (seqOf w.ord)
  let s := s.wr (Reg.CHN_FLBi i) w.waddr
  let s := s.wr (Reg.CHN_FLCi i) (w24 (2 ^ 23 + cause * 2 ^ 20 + w.worker * 2 ^ 15 + w.cid))
  let s := (s.sf Reg.CHN_FLHEAD Reg.CHN_FLHEAD_HEAD ((i + 1) % 32)).incW Reg.CHN_FLCNT
  let s := { s with chn := { s.chn with
    wr := s.chn.wr.filter (fun x => decide (x.ord ≠ w.ord))
    fails := SMap.set 0 s.chn.fails w.thread (SMap.get 0 s.chn.fails w.thread + 1) } }
  s.raise (s.failEvent w.cid)

/-- The place of an engine in a window read that the Loupe port makes. -/
def loupeEng : Nat := 128

/-- The word or the CODE (R596) with which a command of the Loupe port completes. -/
def State.lpEnd (s : State) (code : Nat) (addr data : Word) : State :=
  { s with lp := { s.lp with code := code, addr := addr, data := data } }

/-- A window read ends (R483): its access completes, or the Loupe port's command does. -/
def State.rdEnd (s : State) (r : WindowRd) (o : AccOut) : State :=
  let s := { s with chn := { s.chn with rd := s.chn.rd.filter (fun x => decide (x.tag ≠ r.tag)) } }
  if r.eng = loupeEng then
    match o with
    | .data d _ => s.lpEnd 0 r.ac.va d
    | .fault c _ => s.lpEnd (if c = .ecc then 5 else 4) r.ac.va 0
  else s.accEnd r.eng r.ac o

/-- An ENUM frame. -/
def enumFrame (n : Nat) : List Word := frame 1 0 0 0 [w24 n]

/-- Enumeration ends (R475). -/
def State.enumEnd (s : State) : State :=
  let s := { s with chn := { s.chn with phase := 0 } }
  let s := (s.sf Reg.CHN_STAT Reg.CHN_STAT_ENUMD 1).sf Reg.CHN_STAT Reg.CHN_STAT_ENUMING 0
  let s := if s.chn.more then s.sf Reg.CHN_STAT Reg.CHN_STAT_FULL 1 else s
  s.chnShow.raise 0x3B0

/-- An enumeration that waits starts once every outstanding access has ended (R475.2, R475.3): no worker is held, and ENUM(1) goes out on
port A if it is linked, else on B. -/
def State.enumGo (s : State) : State :=
  if s.chn.phase = 1 ∧ s.chn.wr = [] ∧ s.chn.rd = [] then
    let p := if s.linked 0 then 0 else 1
    let s : State := workers.foldl (fun s n => s.wr (Reg.CHN_WnSTAT n) 0) s
    let s := { s with chn := { s.chn with phase := 2, first := p, found := 0, more := false } }
    s.chnShow.chnSend p (enumFrame 1)
  else s

/-- After accesses have ended: the counts follow, and an enumeration that waits goes on. -/
def State.chnSettle (s : State) : State := s.chnShow.enumGo

/-- Workers become LOST (R498): their writes fail with LINK, their reads end with BUS, CHN_WLOST is raised for each. -/
def State.loseW (s : State) (p : Nat → Bool) : State :=
  let lost := workers.filter (fun n => s.heldW n && p n)
  let s : State := lost.foldl (fun s n =>
    let s := (s.sf (Reg.CHN_WnSTAT n) Reg.CHN_WnSTAT_HELD 0).sf (Reg.CHN_WnSTAT n) Reg.CHN_WnSTAT_LOST 1
    let s : State := (s.chn.wr.filter (fun w => decide (w.worker = n))).foldl (fun s w => s.postFail w 6) s
    let s : State := (s.chn.rd.filter (fun r => decide (r.worker = n))).foldl (fun s r => s.rdEnd r (.fault .bus false)) s
    s.raise 0x3B3) s
  s.chnSettle

/-- `x` enters a list that rises by its first parts, behind those of its own. -/
def insertBy (x : Nat × List Word) : List (Nat × List Word) → List (Nat × List Word)
  | [] => [x]
  | y :: r => if x.1 < y.1 then x :: y :: r else y :: insertBy x r

/-- The frames outstanding to the workers that `p` names, in the order in which the link accepted their accesses (R481, R496). -/
def State.outstanding (s : State) (p : Nat → Bool) : List (Nat × List Word) :=
  ((s.chn.wr.filter (fun (w : PostedWr) => p w.worker)).map (fun (w : PostedWr) => (2 * w.ord, w.frame)) ++
    (s.chn.rd.filter (fun (r : WindowRd) => p r.worker)).map (fun (r : WindowRd) => (2 * r.after + 1, r.frame))).foldl (fun l x => insertBy x l) []

/-- Step 3 and 4 of a failover (R496): every worker from number `b` outward is reached on port B, REV is set, and what is outstanding to
those workers is sent again on the new path, in the order of its acceptance. -/
def State.reverseRing (s : State) (b : Nat) : State :=
  let nw := s.fl Reg.CHN_STAT Reg.CHN_STAT_NW
  let s := { s with chn := { s.chn with breaks := [b] } }
  let s := if b ≤ nw then s.chnSend 1 (frame 10 0 0 0 [w24 (2 ^ 23 + b)]) else s
  let s : State := workers.foldl (fun s n =>
    if b ≤ n ∧ n ≤ nw then
      (s.sf (Reg.CHN_WnSTAT n) Reg.CHN_WnSTAT_PORT 1).sf (Reg.CHN_WnSTAT n) Reg.CHN_WnSTAT_HOPS (nw + 1 - n)
    else s) s
  let s := (s.sf Reg.CHN_STAT Reg.CHN_STAT_REV 1).raise 0x3B2
  (s.outstanding (fun n => decide (b ≤ n))).foldl (fun s f => s.chnSend 1 f.2) s

/-- A notice of a break at worker `j` reaches the manager on port `p` (R496, R498). -/
def State.breakNotice (s : State) (p j : Nat) : State :=
  let beyond := if p = 0 then j + 1 else j
  if s.fb Reg.CHN_STAT Reg.CHN_STAT_RING then
    if s.fb Reg.CHN_STAT Reg.CHN_STAT_REV = false then s.reverseRing beyond
    else if beyond ∈ s.chn.breaks then s
    else
      let b := match s.chn.breaks with | b :: _ => b | [] => 0
      let s := { s with chn := { s.chn with breaks := s.chn.breaks ++ [beyond] } }
      if p = 0 then s.loseW (fun n => decide (beyond ≤ n ∧ n < b)) else s.loseW (fun n => decide (b ≤ n ∧ n < beyond))
  else
    let h := s.fl (Reg.CHN_WnSTAT j) Reg.CHN_WnSTAT_HOPS
    s.loseW (fun n => decide (s.portOf n = p ∧ h < s.fl (Reg.CHN_WnSTAT n) Reg.CHN_WnSTAT_HOPS))

/-- Port `p` has gone down (R468, R473): its frames are discarded, LINKF is set, CHN_LINK is raised, and the ends of the segment act
(R496, R498): a worker names itself in a RING on its other port; the manager reverses the ring or loses the workers it reached there. -/
def State.portDown (s : State) (p : Nat) : State :=
  let x := s.port p
  let s := s.setPort p { x with unack := [], relay := [], queue := [] }
  let s := ((s.sf (Reg.CHN_PpSTAT p) Reg.CHN_PpSTAT_LINK 0).sf (Reg.CHN_PpSTAT p) Reg.CHN_PpSTAT_LINKF 1).raise 0x3B1
  if s.isManager then
    if s.fb Reg.CHN_STAT Reg.CHN_STAT_RING ∧ s.fb Reg.CHN_STAT Reg.CHN_STAT_REV = false then
      s.reverseRing (if p = 0 then 1 else s.fl Reg.CHN_STAT Reg.CHN_STAT_NW + 1)
    else s.loseW (fun n => decide (s.portOf n = p))
  else if s.ownNum ≠ 0 then s.chnSend (1 - p) (frame 10 0 s.ownNum 0 [w24 s.ownNum])
  else s

/-! ### Ports: rows -/

/-- R468. A Chaden port receives 64 valid sets and becomes LINKED; its numbering starts anew. A DEAD port must first have lost its link
(R473). -/
def execLinkUp (p : Fin 2) (s : State) : Out :=
  .next (s.gate 8 (if s.linked p ∨ (s.port p).stuck then s
    else
      let s := s.setPort p PortSt.init
      let a := Reg.CHN_PpSTAT p
      let s := (((s.sf a Reg.CHN_PpSTAT_LINK 1).sf a Reg.CHN_PpSTAT_LINKF 1).sf a Reg.CHN_PpSTAT_DEAD 0).raise 0x3B1
      if s.isManager then s.raiseIf (s.fb Reg.CHN_STAT Reg.CHN_STAT_REV) 0x3B2
      else if s.upPort = p then s.sf Reg.CHN_STAT Reg.CHN_STAT_UPLOST 0 else s))

/-- R468. A port loses valid characters or sees 16 violations and goes down; a DEAD port, which counts as down, has then lost its link
(R473). -/
def execLinkDown (p : Fin 2) (s : State) : Out :=
  .next (if s.linked p then s.portDown p else if (s.port p).stuck then s.setPort p { s.port p with stuck := false } else s)

/-- R473. A frame's fourth sending goes unacknowledged and the port goes DEAD. -/
def execPortDead (p : Fin 2) (s : State) : Out :=
  .next (if s.linked p ∧ (s.port p).unack.any (fun f => decide (f.2.2 = 4)) then
      ((s.setPort p { s.port p with stuck := true }).sf (Reg.CHN_PpSTAT p) Reg.CHN_PpSTAT_DEAD 1).portDown p
    else s)

/-- R473. 2 µs without ACK resends every unacknowledged frame. -/
def execRetransmitTimeout (p : Fin 2) (s : State) : Out := .next (if s.carries p then s.resend p else s)

/-- R472. An ACK acknowledges frames up to LSEQ. -/
def execAck (p : Fin 2) (lseq : Fin 256) (s : State) : Out := .next (if s.carries p then s.acked p lseq else s)

/-- R473. A NAK makes the sender resend from the named frame; it acknowledges every frame before it. -/
def execNak (p : Fin 2) (lseq : Fin 256) (s : State) : Out :=
  .next (if s.carries p then (s.acked p ((lseq.val + 255) % 256)).resend p else s)

/-- R472. A frame is discarded: CRCERR counts it and one NAK names the LSEQ expected; `quiet` for a frame that draws none, ending in
EOFA or a beacon. -/
def execFrameCrcFailure (p : Fin 2) (quiet : Bool) (s : State) : Out :=
  .next (if s.carries p then
      let s := s.inc (Reg.CHN_PpSTAT p) Reg.CHN_PpSTAT_CRCERR
      let x := s.port p
      if quiet ∨ x.nakked then s else s.setPort p { x with nakked := true, last := nakSet x.rxSeq }
    else s)

/-- R491. An ECHO is answered with ECHR after a fixed turnaround. -/
def execEcho (p : Fin 2) (s : State) : Out := .next (s.gate 8 (s.chnSet p echrSet))

/-- R491. An ECHR completes a delay measurement and updates CHN_TDLY: half of the round trip less the turnaround, `rt` in units of 0.5 ns. -/
def execEchr (p : Fin 2) (rt : BitVec 24) (s : State) : Out :=
  .next (s.gate 8 (if !s.isManager ∧ s.upPort = p ∧ s.chn.echo then
      ({ s with chn := { s.chn with echo := false, dlyOk := true } }).sf Reg.CHN_TDLY Reg.CHN_TDLY_DLY (min (rt.toNat / 2) 0xFFFF)
    else s))

/-- R491. Every 100 ms a worker sends ECHO upstream. -/
def execLinkDelayMeasure (s : State) : Out :=
  .next (s.gate 8 (if !s.isManager ∧ s.linked s.upPort then
      ({ s with chn := { s.chn with echo := true } }).chnSet s.upPort echoSet
    else s))

/-! ### Enumeration -/

/-- R475. Writing CHN_CTL.ENUM starts enumeration after outstanding accesses end. -/
def State.enumStart (s : State) : State :=
  if s.isManager ∧ s.fb Reg.CHN_CTL Reg.CHN_CTL_EN then
    let v := s.rd Reg.CHN_STAT
    let v := setF (setF v Reg.CHN_STAT_ENUMING 1) Reg.CHN_STAT_ENUMD 0
    let v := setF (setF (setF (setF v Reg.CHN_STAT_NW 0) Reg.CHN_STAT_RING 0) Reg.CHN_STAT_REV 0) Reg.CHN_STAT_FULL 0
    let s := s.wr Reg.CHN_STAT v
    ({ s with chn := { s.chn with phase := 1, breaks := [], more := false } }).enumGo
  else s

/-- R475. Writing CHN_CTL.ENUM starts enumeration after outstanding accesses end. -/
def execEnumerationStart (s : State) : Out := .next (s.gate 8 (s.taking 13 s.enumStart))

/-- R475. A received ENUM numbers the worker, which answers with its SYS_ID and passes the next number on; at the manager it tells of a
ring. -/
def execEnum (p : Fin 2) (n : Fin 32) (s : State) : Out :=
  .next (if s.carries p = false ∨ s.resting 13 then s
    else
      let x := s.port p
      let s := s.setPort p { x with rxSeq := (x.rxSeq + 1) % 256, nakked := false, last := ackSet x.rxSeq }
      if s.isManager then
        if s.chn.phase = 2 ∧ s.chn.first ≠ p.val then
          (({ s with chn := { s.chn with found := n.val - 1 } }).sf Reg.CHN_STAT Reg.CHN_STAT_RING 1).enumEnd
        else s
      else
        let o := 1 - p.val
        let ok := decide (s.upPort = p.val) && s.chn.dlyOk
        let v := setF (setF (setF (s.rd Reg.CHN_STAT) Reg.CHN_STAT_NUM n) Reg.CHN_STAT_UP p) Reg.CHN_STAT_UPLOST 0
        let s := ({ s with chn := { s.chn with dlyOk := ok } }).wr Reg.CHN_STAT v
        let down := s.linked o
        let more := down && decide (n.val = 31)
        let s := s.chnSend p (frame 2 0 n 0
          [s.rd Reg.SYS_ID, w24 (b2n (!down) * 2 ^ 23 + p * 2 ^ 22 + b2n more * 2 ^ 21 + n)])
        if down ∧ n.val < 31 then s.chnSend o (enumFrame (n + 1)) else s)

/-- A worker's answer gives the manager its SYS_ID and its place (R476): on port `p`, `hops` away. -/
def State.hold (s : State) (sysid : Word) (n p hops : Nat) : State :=
  ((s.wr (Reg.CHN_WnSTAT n) (w24 (2 ^ 23 + p * 2 ^ 21 + hops * 2 ^ 8))).wr (Reg.CHN_WnID n) sysid).chnShow

/-- A worker has answered the enumeration of a side (R475, R476). A ring is found by the ENUM that comes round before the answers of its
last workers do; such an answer still makes its worker held. -/
def State.enumr (s : State) (sysid : Word) (fin more : Bool) (n : Nat) : State :=
  if n = 0 then s
  else if s.chn.phase < 2 then
    if s.fb Reg.CHN_STAT Reg.CHN_STAT_RING ∧ s.chn.phase = 0 ∧ n ≤ s.chn.found ∧ s.heldW n = false ∧
        s.fb (Reg.CHN_WnSTAT n) Reg.CHN_WnSTAT_LOST = false then
      s.hold sysid n s.chn.first n
    else s
  else
    let p := if s.chn.phase = 2 then s.chn.first else 1
    let k := s.chn.found
    let hops := if s.chn.phase = 2 then n else n - k
    let s := s.hold sysid n p hops
    if more then ({ s with chn := { s.chn with more := true } }).enumEnd
    else if fin then
      if s.chn.phase = 2 ∧ s.chn.first = 0 ∧ s.linked 1 ∧ n < 31 then
        ({ s with chn := { s.chn with phase := 3, found := n } }).chnSend 1 (enumFrame (n + 1))
      else s.enumEnd
    else s

/-- R475. A received ENUMR registers a worker at the manager; END, MORE or a ring ends a side. -/
def execEnumr (p : Fin 2) (sysid : BitVec 24) (fin inport more : Bool) (n : Fin 32) (s : State) : Out :=
  .next (s.accept p (frame 2 0 n 0 [sysid, w24 (b2n fin * 2 ^ 23 + b2n inport * 2 ^ 22 + b2n more * 2 ^ 21 + n)]) 0 n (fun s =>
    s.enumr sysid fin more n))

/-- R475. 20 µs with no new ENUMR ends a side's enumeration, and with it the enumeration. -/
def execEnumerationTimeout (s : State) : Out := .next (s.gate 8 (if 2 ≤ s.chn.phase then s.enumEnd else s))

/-! ### Windows -/

/-- The window number of an address (R477). -/
def windowNo (a : Nat) : Nat := (a - 0xC00000) / 0x10000

/-- The worker address window address `a` reaches (R477). -/
def State.workerAddr (s : State) (a : Nat) : Word :=
  let off := a % 0x10000
  w24 (s.fl (Reg.CHN_WnMAPq (windowNo a) (off / 0x4000)) Reg.CHN_WnMAPq_MAP * 0x4000 + off % 0x4000)

/-- The limits of R480 leave room for an access to worker `n`. -/
def State.room (s : State) (n : Nat) : Bool := decide (s.outTo n < 32) && decide (s.chn.wr.length + s.chn.rd.length < 256)

/-- The link accepts a posted write (R484): it takes the next sequence and is sent as a WR. -/
def State.post (s : State) (a : Access) : State :=
  let n := windowNo a.pa
  let o := s.chn.count + 1
  let w : PostedWr :=
    { ord := o, worker := n, waddr := s.workerAddr a.pa, cid := a.cid, thread := a.k, data := if a.pair then [a.d0, a.d1] else [a.d0],
      acc := a.id, since := s.time.ticks }
  let s := { s with chn := { s.chn with count := o, wr := s.chn.wr ++ [w], last := SMap.set 0 s.chn.last a.k (seqOf o) } }
  s.chnShow.chnSend (s.portOf n) w.frame

/-- A window store of engine `e` is accepted and completes. -/
def State.windowWrite (s : State) (e : Nat) (a : Access) : State := (s.post a).accEnd e a (.data 0 0)

/-- A TAG that no outstanding read holds (R497). -/
def State.freeTag (s : State) : Nat :=
  match ((List.range 256).map (fun i => (s.chn.tag + i) % 256)).find? (fun t => s.chn.rd.all (fun r => decide (r.tag ≠ t))) with
  | some t => t
  | none => 0

/-- A window load is sent as an RD and waits for its RDR (R482). -/
def State.windowRead (s : State) (e : Nat) (a : Access) : State :=
  let n := windowNo a.pa
  let t := s.freeTag
  let r : WindowRd := { tag := t, worker := n, waddr := s.workerAddr a.pa, cid := a.cid, eng := e, ac := a, after := s.chn.count, since := s.time.ticks }
  let s := { s with chn := { s.chn with tag := (t + 1) % 256, rd := s.chn.rd ++ [r] } }
  s.chnShow.chnSend (s.portOf n) r.frame

/-- The Chaden access at place `i` of engine `e`'s spine interface may be taken by the link: `body` does it; one that R39 refuses, or
that meets a stopped island (R28), completes with BUS; one beyond the limits of R480 waits. -/
def State.windowOp (s : State) (e i : Nat) (store : Bool) (body : Access → State) : State :=
  match s.spineAt e i with
  | none => s
  | some a =>
    if region a.pa ≠ .chaden ∨ decide (a.kind = .store) ≠ store ∨ s.maySend e a = false ∨ s.quarantined (e / 16) ∨ s.resting 13 then s
    else if s.chn.rd.any (fun r => r.ac.id == a.id) then s
    else if (s.addrFault a.kind a.pa).isSome ∨ s.islandRuns 8 = false then s.accEnd e a (.fault .bus false)
    else if s.room (windowNo a.pa) then body a
    else s

/-- R484. A store into a Chaden window is accepted as a posted write with a sequence. -/
def execWindowWrite (e : Fin 128) (i : Fin 4) (s : State) : Out := .next (s.windowOp e i true (s.windowWrite e))

/-- R482. A load from a Chaden window sends an RD and waits for its RDR. -/
def execWindowRead (e : Fin 128) (i : Fin 4) (s : State) : Out := .next (s.windowOp e i false (s.windowRead e))

/-- R483. An RDR completes the waiting window load with data or a fault; one with no waiting load is discarded. -/
def execRdr (p : Fin 2) (src : Fin 32) (pair : Bool) (status : Fin 8) (tag : Fin 256) (d0 d1 : BitVec 24) (s : State) : Out :=
  let ws := if status.val ≠ 0 then [] else if pair then [d0, d1] else [d0]
  .next (s.accept p (frame 5 0 src 0 (w24 (b2n pair * 2 ^ 23 + status * 2 ^ 20 + tag) :: ws)) 0 src (fun s =>
    match s.chn.rd.find? (fun r => decide (r.tag = tag.val ∧ r.worker = src.val)) with
    | none => s
    | some r =>
      (s.rdEnd r (if status.val = 0 then .data d0 d1 else .fault (if status.val = 4 then .ecc else .bus) false)).chnSettle))

/-- R485. A WACK covers posted writes to a worker up to its sequence, modulo 2^24 within 2^23. -/
def execWack (p : Fin 2) (src : Fin 32) (seq : BitVec 24) (s : State) : Out :=
  .next (s.accept p (frame 6 0 src 0 [seq]) 0 src (fun s =>
    ({ s with chn := { s.chn with
        wr := s.chn.wr.filter (fun w => !(decide (w.worker = src.val) && decide ((seq - seqOf w.ord).toNat < 2 ^ 23))) } }).chnSettle))

/-- R487. A WFAIL records a failed posted write in the failure ring and raises its event. -/
def execWfail (p : Fin 2) (src : Fin 32) (seq addr : BitVec 24) (cause : Fin 8) (s : State) : Out :=
  .next (s.accept p (frame 7 0 src 0 [seq, addr, w24 cause]) 0 src (fun s =>
    match s.chn.wr.find? (fun w => decide (w.worker = src.val ∧ seqOf w.ord = seq)) with
    | none => s
    | some w => (s.postFail w cause).chnSettle))

/-- R483. No RDR within CHN_CTL.RTO µs of its acceptance, at least 1, ends the window load with BUS. -/
def execReadTimeout (tag : Fin 256) (s : State) : Out :=
  .next (match s.chn.rd.find? (fun r => decide (r.tag = tag.val) && s.waited r.since (max 1 (s.fl Reg.CHN_CTL Reg.CHN_CTL_RTO))) with
    | none => s
    | some r => (s.rdEnd r (.fault .bus false)).chnSettle)

/-- R486. No WACK or WFAIL within CHN_CTL.WTO × 100 µs of its acceptance, at least 100 µs, fails the posted write with TIMEOUT. -/
def execWriteTimeout (seq : BitVec 24) (s : State) : Out :=
  .next (match s.chn.wr.find? (fun w => decide (seqOf w.ord = seq) && s.waited w.since (100 * max 1 (s.fl Reg.CHN_CTL Reg.CHN_CTL_WTO))) with
    | none => s
    | some w => (s.postFail w 5).chnSettle)

/-- R488. A store to CHN_DRAIN made as access `id` at nesting depth `d` has been accepted: its thread enters DRAIN, at that depth. -/
def State.drainStart (s : State) (k d id : Nat) : State :=
  let t := s.th k
  if t.mode = .off ∨ t.mode = .stopping then s
  else
    let s := { s with chn := { s.chn with
      drains := { thread := k, depth := d, acc := id } :: s.chn.drains.filter (fun x => !decide (x.thread = k ∧ x.depth = d)) } }
    s.setTh k { t with mode := if t.mode = .run ∧ t.depth = d then .drain else t.mode }

/-- R488. Every posted write thread `k` issued before its drain has been covered or has failed: CHN_DRAIN takes the failures counted since
its last drain ended, and the thread leaves DRAIN. -/
def State.drainEnd (s : State) (k : Nat) : State :=
  let t := s.th k
  match s.chn.drains.find? (fun x => decide (x.thread = k ∧ x.depth = t.depth)) with
  | none => s
  | some x =>
    if s.chn.wr.any (fun w => decide (w.thread = k ∧ w.acc < x.acc)) ||
        (s.en (k / 4)).spine.any (fun a => decide (a.k = k ∧ a.id < x.acc ∧ a.kind = .store ∧ region a.pa = .chaden)) then s
    else
      let n := SMap.get 0 s.chn.fails k
      let s := { s with chn := { s.chn with
        drains := s.chn.drains.filter (fun y => !decide (y = x))
        dval := SMap.set 0 s.chn.dval k (min n 255), fails := SMap.set 0 s.chn.fails k 0 } }
      s.setTh k { t with mode := if t.mode = .drain then .run else t.mode }

/-- R488. All posted writes before the drain are covered or failed and the thread leaves DRAIN. -/
def execChnDrainComplete (k : Fin 512) (s : State) : Out := .next (s.drainEnd k)

/-! ### Events across the link -/

/-- A device event that enters the router is forwarded by the outbound entries that name it (R489). -/
def State.eventOut (s : State) (ev : Nat) : State :=
  (List.range 16).foldl (fun s k =>
    let v := s.rd (Reg.CHN_EOUTk k)
    if decide (getF v Reg.CHN_EOUTk_V = 1) && decide (getF v Reg.CHN_EOUTk_EVENT = ev) then
      let one := fun (s : State) (p dst src : Nat) =>
        let f := frame 8 dst src 0 [w24 k]
        if (s.port p).queue.contains f then s.inc Reg.CHN_EMRG Reg.CHN_EMRG_MRG else s.chnSend p f
      let d := getF v Reg.CHN_EOUTk_DST
      if s.isManager then
        if d = 0 then
          [0, 1].foldl (fun s p => if workers.any (fun n => s.heldW n && decide (s.portOf n = p)) then one s p 0 0 else s) s
        else if s.heldW d then one s (s.portOf d) d 0 else s
      else if s.ownNum ≠ 0 then one s s.upPort 0 s.ownNum
      else s
    else s) s

/-- An EVT frame's SLOT raises the event of every inbound entry that matches it (R489). -/
def State.eventIn (s : State) (src slot : Nat) : State :=
  let m := (List.range 16).filter (fun k =>
    let v := s.rd (Reg.CHN_EINk k)
    decide (getF v Reg.CHN_EINk_V = 1) && decide (getF v Reg.CHN_EINk_SRC = src) && decide (getF v Reg.CHN_EINk_SLOT = slot))
  if m = [] then s.inc Reg.CHN_EMRG Reg.CHN_EMRG_EDROP else m.foldl (fun s k => s.raise (0x3C0 + k)) s

/-- R489. A received EVT raises the matching inbound events. -/
def execEvt (p : Fin 2) (dst src : Fin 32) (slot : Fin 16) (s : State) : Out :=
  .next (s.accept p (frame 8 dst src 0 [w24 slot]) dst src (fun s => s.eventIn src slot))

/-! ### Device time on the workers -/

/-- R490. On each multiple of 100 µs of DT a manager sends a BEACON on each linked port. -/
def execBeaconSend (s : State) : Out := .next s.beaconSend

/-- CHN_TSTAT.LOCK changes (R493). -/
def State.lockSet (s : State) (b : Bool) : State :=
  if s.fb Reg.CHN_TSTAT Reg.CHN_TSTAT_LOCK = b then s
  else
    let s := s.sf Reg.CHN_TSTAT Reg.CHN_TSTAT_LOCK (b2n b)
    let s := if b then { s with chn := { s.chn with locked := true } } else s.sf Reg.CHN_TSTAT Reg.CHN_TSTAT_LOCKF 1
    s.raise 0x3B4

/-- A beacon followed with offset `o`, in units of 0.5 ns (R492–R494). -/
def State.follow (s : State) (o : Int) (tq : Nat) : State :=
  let ticks : Int := (o + 10).fdiv 20
  if o < -2000000 then
    if s.fb Reg.CHN_TSTAT Reg.CHN_TSTAT_AHEAD then s
    else ((s.sf Reg.CHN_TSTAT Reg.CHN_TSTAT_AHEAD 1).raise 0x3B5).tqShow
  else
    let s := (s.sf Reg.CHN_TSTAT Reg.CHN_TSTAT_AHEAD 0).sf Reg.CHN_TSTAT Reg.CHN_TSTAT_BLOST 0
    let s := s.sf Reg.CHN_TSTAT Reg.CHN_TSTAT_BTQ tq
    let ns : Int := o.fdiv 2
    let s := s.sf Reg.CHN_TSTAT Reg.CHN_TSTAT_OFS ((max (-32767) (min 32767 ns)) % 65536).toNat
    let good := if o.natAbs ≤ 60 then min 16 (s.chn.good + 1) else 0
    let poor := if 80 < o.natAbs then min 4 (s.chn.poor + 1) else 0
    let s := { s with chn := { s.chn with good := good, poor := poor } }
    let s :=
      if o ≤ 2000000 then s.wr Reg.TIME_SLEWREM (i24 ticks)
      else if s.fb Reg.CHN_TSTAT Reg.CHN_TSTAT_LOCK then s
      else
        let old := s.time.dt.toNat
        let s := (s.dtAdd ticks.toNat).periodsDue old (old + ticks.toNat)
        ({ s with chn := { s.chn with locked := false } }).sf Reg.CHN_TSTAT Reg.CHN_TSTAT_JUMPF 1
    let s := if good = 16 then s.lockSet true else if poor = 4 then s.lockSet false else s
    s.tqShow

/-- R492. A worker receives a beacon: it relays it with its upstream link delay and its residence `res` added to CORR (R490), and where it
follows, slews, steps or flags its device time. `t` is the stamp the beacon carries, `corr` its correction, `ago` how long before the
current tick its stamp point arrived, in units of 0.5 ns. -/
def execBeacon (p : Fin 2) (t : BitVec 48) (corr : BitVec 24) (tq : Fin 4) (ago res : BitVec 24) (s : State) : Out :=
  .next (if s.carries p = false ∨ s.resting 13 ∨ s.isManager ∨ s.ownNum = 0 ∨ s.upPort ≠ p.val then s
    else
      let dly := s.fl Reg.CHN_TDLY Reg.CHN_TDLY_DLY
      let b := beaconChars t (corr + w24 dly + res) tq
      let s1 := (s.chnSet (1 - p.val) b).capSeen 19 none
      if s.follows ∧ s.chn.dlyOk then
        s1.follow ((t - s.time.dt).toInt * 20 + corr.toNat + dly + ago.toNat) tq
      else s1)

/-- R493. 1 ms without a beacon clears LOCK and sets BLOST. -/
def execBeaconLoss (s : State) : Out :=
  .next (s.gate 8 (if s.isManager then s
    else (({ s with chn := { s.chn with good := 0, poor := 0 } }).sf Reg.CHN_TSTAT Reg.CHN_TSTAT_BLOST 1 |>.lockSet false).tqShow))

/-! ### Rings and broken links -/

/-- R496. A RING frame: at the manager a notice of a break from worker `n`; at a worker, a reversal from worker `n` outward, which makes the
port that carried it the upstream port. -/
def execRing (p : Fin 2) (rev : Bool) (n : Fin 32) (s : State) : Out :=
  let src := if rev then 0 else n.val
  .next (s.accept p (frame 10 0 src 0 [w24 (b2n rev * 2 ^ 23 + n)]) 0 src (fun s =>
    if s.isManager then (if rev then s else s.breakNotice p n)
    else if rev ∧ n.val ≤ s.ownNum then
      let same := decide (s.upPort = p.val)
      ({ s with chn := { s.chn with dlyOk := s.chn.dlyOk && same } }).sf Reg.CHN_STAT Reg.CHN_STAT_UP p
    else s))

/-- R498. A worker's upstream down for 30 µs sets UPLOST and raises CHN_WLOST. -/
def execUpstreamLost (s : State) : Out :=
  .next (s.gate 8 (if !s.isManager ∧ s.linked s.upPort = false ∧ s.fb Reg.CHN_STAT Reg.CHN_STAT_UPLOST = false then
      ((s.sf Reg.CHN_STAT Reg.CHN_STAT_UPLOST 1).raise 0x3B3).tqShow
    else s))

end Sys2Proof.Machine
end

