-- ==== Sys2Proof/Machine/Router.lean ====
section
/-!
DEFINITION. The event router (R31–R35): delivery of a device event to the sources that route it, the watches, forwarding over Chaden
(R489), and the happenings that wake the device from DOZE (R524).
-/

namespace Sys2Proof.Machine

/-- The sources that route device event `ev`, as (engine, source) (R158): RTE 1, ROUTE the event, sources 8 to 63. -/
def State.routes (s : State) (ev : Nat) : List (Nat × Nat) :=
  s.regs.filterMap (fun p =>
    let o := p.1 % 0x800
    if 0xF80000 ≤ p.1 ∧ p.1 ≤ 0xFBFFFF ∧ 0x490 ≤ o ∧ o < 0x500 ∧ o % 2 = 0 ∧ getF p.2 Reg.EVI_SsCFG_RTE = 1 ∧
        getF p.2 Reg.EVI_SsCFG_ROUTE = ev then
      some ((p.1 - 0xF80000) / 0x800, (o - 0x480) / 2)
    else none)

/-- The first occurrence of an event leaves the router. -/
def dropEv (ev : Nat) : List Nat → List Nat
  | [] => []
  | x :: r => if x = ev then r else x :: dropEv ev r

/-- Device event `ev`, which is in the router, arrives at every source that routes it; a quarantined cluster's are discarded (R558). Watches
count it (R190), and outbound entries forward it (R489). -/
def State.deliverEv (s : State) (ev : Nat) : State :=
  let s := { s with ev := { s.ev with router := dropEv ev s.ev.router } }
  let s : State := (List.range 4).foldl (fun s n =>
    let w := s.rd (Reg.EVR_WSELn n)
    if getF w Reg.EVR_WSELn_EN = 1 ∧ getF w Reg.EVR_WSELn_EVENT = ev then s.incW (Reg.EVR_WCNTn n) else s) s
  let s : State := (s.routes ev).foldl (fun s x => if s.quarantined (x.1 / 16) then s else s.arrive x.1 x.2) s
  s.eventOut ev

/-- A presented wake source of the engine of thread `k` would set the thread's EL (R165, R236). -/
def State.wakeDue (s : State) (k : Nat) : Bool :=
  (List.range 64).any (fun n =>
    let c := s.srcCfg (k / 4) n
    decide (getF c Reg.EVI_SsCFG_KIND = 1 ∧ getF c Reg.EVI_SsCFG_THR = k % 4) && s.pendB (k / 4) n && !s.maskB (k / 4) n &&
    (let b := (s.th k).baseBind; decide (n < 8) || b.1 || s.inWindow b.2 (getF c Reg.EVI_SsCFG_ROUTE)))

/-- A happening of R524 has occurred: with the events in the router delivered and the coalescing limits reached applied, some thread's EL
would be set, a waitt's target is reached, or a thread would accept a candidate. -/
def State.happening (s : State) : Bool :=
  let s : State := s.ev.router.foldl (fun s ev => s.deliverEv ev) s
  let s : State := s.eng.foldl (fun s p => p.2.srcs.foldl (fun s q =>
    let ct := s.fl (Reg.EVI_SsCOAL p.1 q.1) Reg.EVI_SsCOAL_CTIME
    if q.2.isOpen && decide (ct ≠ 0) && s.time.locked && decide (ct * 1000 ≤ (s.time.dt - q.2.t0).toNat) then s.emit p.1 q.1 else s) s) s
  s.thr.any (fun p =>
    let t := p.2
    decide (t.mode ≠ .off) &&
    (s.wakeDue p.1 ||
     (match t.mode with | .time x => s.timeReached p.1 x | _ => false) ||
     (match s.candidate p.1 with | some c => t.open && s.accepts p.1 c.2 t.levels | none => false)))

/-- R32. A device event entering the router is delivered to the pending logic of every source that routes it, counted by watches and
forwarded over Chaden. In DOZE it is held until the return (R524). -/
def execRouterDelivery (ev : Fin 1024) (s : State) : Out :=
  .next (if ev.val ∈ s.ev.router ∧ s.pwr.state = 0 then s.deliverEv ev.val else s)

end Sys2Proof.Machine
end

