-- ==== Sys2Proof/Machine/Engine.lean ====
section
/-!
DEFINITION. Starting and stopping threads (R79, R80), instruction fetch (R56, R57, R60, R63), the loop buffer's control register (R62), and
the entry of events into the router (R34, R190).
-/

namespace Sys2Proof.Machine

/-- Thread `k` starts (R79): it fetches at ENG_TnSTART under the binding of BZ_TSTARTk, with an empty loop stack, no replay entry, depth 0
and EL 0; registers and accumulators keep their contents. -/
def State.startThread (s : State) (k : Nat) : State :=
  let w := s.rd (Reg.BZ_TSTARTk k)
  let prv := decide (getF w Reg.BZ_TSTARTk_PRV = 1)
  let kg := decide (getF w Reg.BZ_TSTARTk_KG = 1)
  let cid := if prv then 0 else getF w Reg.BZ_TSTARTk_CID
  let tep := s.epoch cid
  let pc := s.rd (Reg.ENG_TnSTART (k / 4) (k % 4))
  ((s.mapTh k (fun t => { t with
    ctx := { t.ctx with loops := [], pc := pc, slot := none, pend := [], shadow := [], shPend := [] }
    el := false, mode := .run, levels := [], infl := [], replay := [], settle := false
    bind := { prv := prv, cid := cid, kg := kg, tep := tep }
    startPrv := prv, startKg := kg, rws := [], postEoi := 0, fbuf := [], restart := false, rom := false,
    watch := s.time.ticks, stall := false, stalled := false })).holdLog k).haltCheck k

/-- EN of a thread goes from 0 to 1 (R79); one that has not reached OFF restarts once it has (R80). -/
def State.enable (s : State) (k : Nat) : State :=
  let a := Reg.ENG_TCTL (k / 4)
  if s.fb a (bitF (k % 4)) then s
  else
    let s := s.sf a (bitF (k % 4)) 1
    if (s.th k).mode = .off then s.startThread k else s.mapTh k (fun t => { t with restart := true })

/-- EN of a thread goes from 1 to 0 (R80). -/
def State.disableEn (s : State) (k : Nat) : State :=
  if s.fb (Reg.ENG_TCTL (k / 4)) (bitF (k % 4)) then s.disable k else s

/-- A STOPPING thread with nothing in flight becomes OFF (R80), and starts again where EN has been set meanwhile. -/
def State.stopDone (s : State) (k : Nat) : State :=
  let t := s.th k
  if t.mode = .stopping ∧ t.infl = [] ∧ t.ctx.slot = none ∧ (s.en (k / 4)).spine.any (fun a => a.k == k) = false then
    let s := s.setTh k { t with mode := .off, halt := 0, haltReq := 0, stepping := false }
    if t.restart then s.startThread k else s
  else s

/-- A write to ENG_LBCTL (R62.4): MODE and THR are written, the loop buffer is released and DIS is cleared. -/
def State.lbctlWrite (s : State) (e : Nat) (v : Word) : State :=
  let s := (s.sf (Reg.ENG_LBCTL e) Reg.ENG_LBCTL_THR (getF v Reg.ENG_LBCTL_THR)).sf (Reg.ENG_LBCTL e) Reg.ENG_LBCTL_MODE
    (getF v Reg.ENG_LBCTL_MODE)
  (s.lbRelease e).mapEn e (fun x => { x with lb := LoopBuf.free })

/-- A write to ENG_TCTL: the priorities are written, and each EN bit that changes starts or stops its thread (R79, R80). -/
def State.tctlWrite (s : State) (e : Nat) (v : Word) : State :=
  let a := Reg.ENG_TCTL e
  let s := s.sf a ⟨15, 8⟩ (getBits v 15 8)
  (List.range 4).foldl (fun s t => if v.getLsbD t then s.enable (e * 4 + t) else s.disableEn (e * 4 + t)) s

/-- A word of the owner's loop body fills its entry of the loop buffer (R60). -/
def State.lbFill (s : State) (k : Nat) (va w : Word) : State :=
  let e := k / 4
  let b := (s.en e).lb
  if b.owner = some k ∧ b.bs ≤ va ∧ va ≤ b.be then
    s.mapEn e (fun x => { x with lb := { b with ents := SMap.set none b.ents (va - b.bs).toNat (some w) } })
  else s

/-- One word of a fetched pair: read for thread `k` at physical address `pa` (R60, R196); a word that reads goes into the fetch buffer
and, in the owner's loop body in local memory, into the loop buffer. -/
def State.fetchWord (s : State) (k : Nat) (va : Word) (pa : Nat) : State × Bool :=
  if s.closed pa then (s, false)
  else
    let (s, r) := s.memRead pa 1 (k / 4)
    match r with
    | none => (s, false)
    | some w =>
      let s := s.mapTh k (fun t => { t with fbuf := t.fbuf ++ [(va.toNat, w)] })
      (if ownLocal (k / 4) pa then s.lbFill k va w else s, true)

/-- A loop-buffer entry that fails its parity check on a hit (R69): it becomes invalid, the error is counted and recorded and source 5 is
set; the fourth failure of one entry without a release disables the buffer. -/
def State.lbParity (s : State) (k : Nat) (va : Word) : State :=
  let e := k / 4
  let b := (s.en e).lb
  let i := (va - b.bs).toNat
  if (s.lbWord k va).isSome then
    let n := SMap.get 0 b.fails i + 1
    let s := s.inc (Reg.ENG_PARCNT e) Reg.ENG_PARCNT_LB
    let s := (s.sf (Reg.ENG_PARSTAT e) Reg.ENG_PARSTAT_LB 1).sf (Reg.ENG_PARSTAT e) Reg.ENG_PARSTAT_LBENT i
    let s :=
      if 4 ≤ n then (s.lbRelease e).mapEn e (fun x => { x with lb := { LoopBuf.free with dis := true } })
      else s.mapEn e (fun x => { x with lb := { b with ents := SMap.set none b.ents i none, fails := SMap.set 0 b.fails i n } })
    s.arrive e 5
  else s

/-- The loop-buffer word that the thread's next fetch hits, if one does: its next instruction's first word, else its second (R60, R69). -/
def State.lbHit (s : State) (k : Nat) : Option Word :=
  let t := s.th k
  let hit := fun (a : Word) => (t.fbuf.all (fun p => p.1 != a.toNat)) && (s.lbWord k a).isSome
  if hit t.ctx.pc then some t.ctx.pc
  else match s.heldWord k t.ctx.pc with
    | some w => if longForm w && hit (t.ctx.pc + 1) then some (t.ctx.pc + 1) else none
    | none => none

/-- A FETCH (R56, R57, R217): the aligned pair that holds the needed word is delivered into the thread's fetch buffer. A fetch from the engine's
own local memory takes the memory port, by promotion where it has lost it in 16 consecutive beats (R55); any other takes a spine
request, of which one must be free, be it to complete with BUS (R58, R635). A fetch that fails on the needed word is a fetch-side fault of
the instruction, with the failing word's address (R182). -/
def State.fetchOp (s : State) (k : Nat) : State :=
  let e := k / 4
  let t := s.th k
  let full := decide (4 ≤ (s.en e).spine.length)
  match s.fetchNeed k with
  | none => s
  | some va =>
    let len := if va = t.ctx.pc then 1 else 2
    match s.checkAddr k .fetch va.toNat with
    | (u, .error f) => if decide (f.cause = .bus) && full then s else u.faultIns k len { f with acc := .fetch }
    | (u, .ok pa) =>
      let port := ownLocal e pa
      if !port && (full || u.bankHeld pa) then s
      else
        let u := if port && decide (16 ≤ t.lost) then u.incW (Reg.ENG_FPROMO e) else u
        let u := u.ownerCharge (u.ownCid k) pa
        let keep := if va = t.ctx.pc then [] else t.fbuf.filter (fun p => p.1 == t.ctx.pc.toNat)
        let u := u.mapTh k (fun t => { t with fbuf := keep, lost := 0 })
        let cl := u.closed pa
        let (u, ok) := u.fetchWord k va pa
        if ok then
          let odd := va.getLsbD 0
          (u.fetchWord k (if odd then va - 1 else va + 1) (if odd then pa - 1 else pa + 1)).1
        else u.faultIns k len ⟨if cl then .bus else .ecc, .fetch, 0, va⟩

/-- R34. An event raised in a clocked island completes its handshake crossing into the fabric; a repeat firing has merged with it. -/
def execIslandEventCrossing (ev : Fin 1024) (s : State) : Out :=
  .next (if ev.val ∈ s.ev.crossing then
      { s with ev := { crossing := s.ev.crossing.filter (fun x => x != ev.val), router := s.ev.router ++ [ev.val] } }
    else s)

/-- R190. A write to EVR_FORCE raises the written device event in the router as if its block had raised it. -/
def execEvrForce (v : BitVec 24) (s : State) : Out :=
  .next { s with ev := { s.ev with router := s.ev.router ++ [getF v Reg.EVR_FORCE_EVENT] } }

/-- R56. The memory port or the spine delivers one aligned pair into a thread's fetch buffer. `upset` says that a loop-buffer entry it hits
fails its parity check (R69). A thread that holds its whole next instruction fetches nothing (R61). -/
def execFetch (k : Fin 512) (upset : Bool) (s : State) : Out :=
  .next (if s.isReady k = false then s
    else match s.lbHit k with
      | some va => if upset then (s.lbParity k va).fetchOp k else s.fetchOp k
      | none => s.fetchOp k)

/-- R79. Setting a thread's ENG_TCTL.EN bit starts it at ENG_TnSTART with its binding from BZ_TSTARTk. -/
def execThreadEnable (k : Fin 512) (s : State) : Out := .next (s.enable k)

/-- R80. Clearing a thread's EN bit stops issue, abandons waits and puts the thread in STOPPING. -/
def execThreadDisable (k : Fin 512) (s : State) : Out := .next (s.disableEn k)

/-- R80. A STOPPING thread's issued instructions and accesses have finished and it becomes OFF, restarting if EN was set again. -/
def execThreadStopComplete (k : Fin 512) (s : State) : Out := .next (s.stopDone k)

/-- R62. A write to ENG_LBCTL releases the loop buffer and clears DIS. -/
def execLbctlWrite (e : Fin 128) (v : BitVec 24) (s : State) : Out := .next (s.lbctlWrite e v)

end Sys2Proof.Machine
end

