-- ==== Sys2Proof/Machine/Plan.lean ====
section
/-!
DEFINITION. Plan levels and VCORE (R21, R505, R506).
-/

namespace Sys2Proof.Machine

/-- The nine core domains (R21): clusters C0–C7, then the spine. -/
def domains : List Nat := List.range 9

/-- Level `p` of domain `d` is retired (R573). -/
def State.retired (s : State) (d p : Nat) : Bool := s.fb (Reg.ASY_MPdp d p) Reg.ASY_MPdp_RET

/-- The cap of every domain (R505): the shedding cap while step 1 is in force, and the thermal cap. -/
def State.planCap (s : State) : Nat :=
  min (if 1 ≤ s.fl Reg.PWR_SHSTAT Reg.PWR_SHSTAT_STEP then s.fl Reg.PWR_SHCFG Reg.PWR_SHCFG_ECOPL else 7)
    (s.fl Reg.ASY_THSTAT Reg.ASY_THSTAT_CAP)

/-- The level domain `d` is to have (R505): the highest unretired one not above min(REQ, CAP), else the lowest unretired one. -/
def State.planTarget (s : State) (d : Nat) : Nat :=
  let lim := min (s.fl (Reg.PWR_PLn d) Reg.PWR_PLn_REQ) s.planCap
  match (List.range 8).reverse.find? (fun p => decide (p ≤ lim) && !s.retired d p) with
  | some p => p
  | none => match (List.range 8).find? (fun p => !s.retired d p) with
    | some p => p
    | none => 0

/-- The voltage of level `p` of domain `d` in mV: nominal (R14) plus its adder. -/
def State.levelMv (s : State) (d p : Nat) : Nat := 550 + 50 * p + 5 * s.fl (Reg.ASY_MPdp d p) Reg.ASY_MPdp_ADD

/-- The level a change of domain `d` in progress leads to, if there is one (R506). -/
def State.planGoal (s : State) (d : Nat) : Option Nat := SMap.get none s.pwr.goal d

/-- The highest of the domains' voltages, quarantined clusters left out (R558), at most 0.95 V (R506). -/
def State.vcoreFor (s : State) (mv : Nat → Nat) : Nat :=
  min 950 (((domains.filter (fun d => decide (d = 8) || !s.quarantined d)).map mv).foldl max 550)

/-- The VCORE buck is set (R506): to what the levels in force need, and before a domain rises to what it rises to; to 0.55 V in DOZE (R523). It
moves until the changes in progress have ended. -/
def State.vcoreSet (s : State) : State :=
  let eff := fun d => s.levelMv d (s.planLevel d)
  let goal := fun d => match s.planGoal d with | some p => s.levelMv d p | none => eff d
  let s := s.sf Reg.PWR_VCORE Reg.PWR_VCORE_MV (if s.pwr.state = 1 then 550 else s.vcoreFor (fun d => max (eff d) (goal d)))
  s.sf Reg.PWR_VCORE Reg.PWR_VCORE_BUSY (b2n (decide (s.vcoreFor eff ≠ s.vcoreFor goal)))

/-- The caps follow, and a domain whose level is to change and that is in no change begins one, BUSY until PLAN_LEVEL_CHANGE completes it; a
change that is asked for during another waits for its end (R505, R506). -/
def State.planUpdate (s : State) : State :=
  let cap := s.planCap
  let s : State := domains.foldl (fun s d =>
    let s := s.sf (Reg.PWR_PLn d) Reg.PWR_PLn_CAP cap
    if (s.planGoal d).isSome ∨ s.planTarget d = s.planLevel d then s
    else ({ s with pwr := { s.pwr with goal := SMap.set none s.pwr.goal d (some (s.planTarget d)) } }).sf (Reg.PWR_PLn d) Reg.PWR_PLn_BUSY 1) s
  s.vcoreSet

/-- The levels that REQ, CAP and the retired levels give are in force (R14, R505), as when a die has come up: a retired level is never
entered. -/
def State.planSettle (s : State) : State :=
  (domains.foldl (fun (s : State) d => (s.sf (Reg.PWR_PLn d) Reg.PWR_PLn_EFF (s.planTarget d)).sf (Reg.PWR_PLn d) Reg.PWR_PLn_BUSY 0)
    { s with pwr := { s.pwr with goal := [] } }).planUpdate

/-- The change of domain `d` in progress completes (R506): a fall of the spine demotes first (R227); a level retired meanwhile is not entered
(R574). -/
def State.planChange (s : State) (d : Nat) : State :=
  match s.planGoal d with
  | none => s
  | some p =>
    let t := if s.retired d p then s.planTarget d else p
    let s := if d = 8 ∧ t < s.planLevel 8 then s.demoteFor t else s
    let s := { s with pwr := { s.pwr with goal := SMap.set none s.pwr.goal d none } }
    (((s.sf (Reg.PWR_PLn d) Reg.PWR_PLn_EFF t).sf (Reg.PWR_PLn d) Reg.PWR_PLn_BUSY 0).planUpdate).raise 0x046

/-- A keeper's write to PWR_PLn. -/
def State.planRequest (s : State) (d : Nat) (v : Word) : State :=
  (s.sf (Reg.PWR_PLn d) Reg.PWR_PLn_REQ (getF v Reg.PWR_PLn_REQ)).planUpdate

/-- R505. A write to PWR_PLn.REQ requests a plan level. -/
def execPlanLevelRequest (d : Fin 9) (v : BitVec 24) (s : State) : Out := .next (s.planRequest d v)

/-- R506. A domain's effective level changes, moving VCORE, and PWR_PLDONE is raised. -/
def execPlanLevelChange (d : Fin 9) (s : State) : Out := .next (s.planChange d)

end Sys2Proof.Machine
end

