-- ==== Sys2Proof/Machine/Resil.lean ====
section
/-!
DEFINITION. Fault containment: cluster faults and quarantine, readmission, shadow pairs and takeover (R553–R570), and the
assay: measurement runs, the margin plan, the record, the thermal governor (R571–R580).
-/

namespace Sys2Proof.Machine

/-! ### Quarantine -/

/-- A pair is disarmed: its trigger, if one waits, is forgotten, and its deadline watch stops. -/
def State.pairOff (s : State) (n : Nat) : State :=
  ({ s with flt := { s.flt with
    trig := SMap.set none s.flt.trig n none
    ckAt := SMap.set none s.flt.ckAt n none
    ckDue := s.flt.ckDue.filter (fun m => decide (m ≠ n)) } }).sf (Reg.SP_nCTL n) Reg.SP_nCTL_ARMED 0

/-- An arm, an armed pair or a takeover fails for reason `r` (R561). -/
def State.pairFail (s : State) (n r : Nat) : State :=
  ((s.sf (Reg.SP_nSTAT n) Reg.SP_nSTAT_FAILF 1).sf (Reg.SP_nSTAT n) Reg.SP_nSTAT_REASON r).raise 0x002

/-- A thread of a cluster that is closed is OFF (R558): nothing of it remains, its allotment returns. -/
def State.threadGone (s : State) (k : Nat) : State := (s.alReturn k).setTh k Thread.off

/-- The threads of cluster `c`. -/
def clusterThreads (c : Nat) : List Nat := (List.range 64).map (fun i => c * 64 + i)

/-- The cluster's threads that escalate on their loss (R568): enabled, started with PRV 1 and the current keeper generation. -/
def State.holdsKeeper (s : State) (c : Nat) : Bool :=
  (clusterThreads c).any (fun k => let t := s.th k
    decide (t.mode ≠ .off) && s.fb (Reg.ENG_TCTL (k / 4)) (bitF (k % 4)) && t.startPrv &&
    decide (b2n t.startKg = s.fl Reg.BZ_KGEN Reg.BZ_KGEN_CUR))

/-- A cluster fault (R557, R558): `volt` where the domain's voltage was lost. -/
def State.clusterFault (s : State) (c : Nat) (volt : Bool) : State :=
  let other := decide (s.fl Reg.FLT_STAT Reg.FLT_STAT_CLQ ≠ 0)
  let kt := s.holdsKeeper c
  let s := (s.sf Reg.FLT_STAT (bitF c) 1).inc Reg.FLT_CNT1 Reg.FLT_CNT1_CL
  let s := (s.faultLog 7 0x1FF c (w24 (b2n volt))).raise 0x003
  let s : State := s.armedPairs.foldl (fun s n =>
    let v := s.rd (Reg.SP_nCTL n)
    if getF v Reg.SP_nCTL_PRI / 64 = c then
      (if (s.fl (Reg.SP_nCAP n) Reg.SP_nCAP_TRIG).testBit 5 then s.trigger n 5 else s)
    else if getF v Reg.SP_nCTL_SHD / 64 = c then (s.pairOff n).pairFail n 2
    else s) s
  let s : State := (clusterThreads c).foldl (fun s k => s.threadGone k) s
  let s : State := (List.range 16).foldl (fun s i => s.mapEn (c * 16 + i) (fun x => { x with spine := [] })) s
  let s := s.planUpdate
  let s := if kt then s.escalate 1 Reg.FLT_CTL_KTF else s
  if other then s.escalate 3 Reg.FLT_CTL_CL2 else s

/-- R557. A cluster misses its token or loses voltage and is quarantined. The tokens run while TPLL has locked, outside DOZE. -/
def execClusterFault (c : Fin 8) (volt : Bool) (s : State) : Out :=
  .next (if s.quarantined c ∨ s.pwr.state ≠ 0 ∨ (volt = false ∧ s.time.locked = false) then s else s.clusterFault c volt)

/-- R559. A write to FLT_READMIT starts readmitting a quarantined cluster. -/
def State.readmit (s : State) (c : Nat) : State :=
  if s.quarantined c ∧ c ∉ s.flt.readm then { s with flt := { s.flt with readm := s.flt.readm ++ [c] } } else s

/-- R559. A write to FLT_READMIT starts readmitting a quarantined cluster. -/
def execReadmit (v : BitVec 24) (s : State) : Out := .next (s.readmit (getF v Reg.FLT_READMIT_CLUSTER))

/-- A domain's memory is lost (R193): every word of it is again as nothing has written it. -/
def State.memLost (s : State) (p : Nat → Bool) : State := { s with mem := s.mem.filter (fun x => !p x.1) }

/-- The engine state of cluster `c` is cleared as at power-on reset, every thread OFF; its memories are lost. -/
def State.clusterClear (s : State) (c : Nat) : State :=
  let inC := fun (a : Nat) => decide (clusterOf a = some c)
  let s := s.memLost inC
  let s := { s with
    regs := s.regs.filter (fun p => !inC p.1)
    eng := s.eng.filter (fun p => decide (p.1 / 16 ≠ c))
    thr := s.thr.filter (fun p => decide (p.1 / 64 ≠ c)) }
  if c = 0 then s.wr (Reg.ENG_TCTL 0) 0 else s

/-- Readmission of cluster `c` completes (R559). -/
def State.readmitDone (s : State) (c : Nat) : State :=
  let s := s.clusterClear c
  let s := { s with flt := { s.flt with readm := s.flt.readm.filter (fun x => decide (x ≠ c)) } }
  ((s.sf Reg.FLT_STAT (bitF c) 0).planUpdate.faultLog 12 0x1FF c 0).raise 0x004

/-- R559. Readmission completes and FLT_READMIT is raised. -/
def execReadmitComplete (c : Fin 8) (s : State) : Out := .next (if c.val ∈ s.flt.readm then s.readmitDone c else s)

/-! ### Shadow pairs -/

/-- The first of the reasons 1–3 of R561 that bars shadow `shd` of capsule `cid`. -/
def State.shadowBar (s : State) (shd cid : Nat) : Option Nat :=
  if (s.th shd).mode ≠ .off ∧ s.quarantined (shd / 64) = false then some 1
  else if s.quarantined (shd / 64) then some 2
  else if cid = 0 ∨ s.capState cid ≠ 3 then some 3
  else none

/-- The first reason of R561 that bars arming pair `n` with control word `v`. -/
def State.armBar (s : State) (n : Nat) (v : Word) : Option Nat :=
  let pri := getF v Reg.SP_nCTL_PRI
  let shd := getF v Reg.SP_nCTL_SHD
  let cap := s.rd (Reg.SP_nCAP n)
  let cid := getF cap Reg.SP_nCAP_CID
  let u := getF cap Reg.SP_nCAP_UNIT
  match s.shadowBar shd cid with
  | some r => some r
  | none =>
    let ck := s.desc cid 16
    let l := s.rd (Reg.STR_CKuCTL u)
    if pri / 64 = shd / 64 then some 4
    else if getF l Reg.STR_CKuCTL_EN = 0 ∨ ck.getLsbD 23 = false ∨ getF l Reg.STR_CKuCTL_STRAND ≠ getBits ck 8 0 then some 5
    else if s.armedPairs.any (fun m => decide (m ≠ n) &&
        (decide (s.fl (Reg.SP_nCTL m) Reg.SP_nCTL_PRI = pri) || decide (s.fl (Reg.SP_nCTL m) Reg.SP_nCTL_SHD = shd) ||
         decide (s.fl (Reg.SP_nCAP m) Reg.SP_nCAP_CID = cid))) then some 6
    else none

/-- A keeper's write to SP_nCTL (R561): EN = 1 arms the pair where every condition holds, EN = 0 disarms it. -/
def State.pairCtl (s : State) (n : Nat) (v : Word) : State :=
  let s := (s.wr (Reg.SP_nCTL n) (v &&& 0xBBFFFF)).pairOff n
  if v.getLsbD 23 then
    match s.armBar n v with
    | none => (s.ckLoad n).sf (Reg.SP_nCTL n) Reg.SP_nCTL_ARMED 1
    | some r => s.pairFail n r
  else s

/-- R561. Writing SP_nCTL.EN = 1 arms a shadow pair or sets FAILF. -/
def execPairArm (n : Fin 32) (v : BitVec 24) (s : State) : Out := .next (s.pairCtl n (setF v Reg.SP_nCTL_EN 1))

/-- R561. Writing SP_nCTL.EN = 0 disarms a pair. -/
def execPairDisarm (n : Fin 32) (v : BitVec 24) (s : State) : Out := .next (s.pairCtl n (setF v Reg.SP_nCTL_EN 0))

/-- A keeper's write to FLT_TAKE (R562). -/
def State.fltTake (s : State) (v : Word) : State :=
  let n := getF v Reg.FLT_TAKE_PAIR
  if s.pairArmed n then s.trigger n 7 else s

/-- R562. A write to FLT_TAKE triggers a pair with KEEPER. -/
def execFltTake (v : BitVec 24) (s : State) : Out := .next (s.fltTake v)

/-- The address of the payload word that is the last of landing unit `u`'s fill and stands at stage 15 of its strand. -/
def State.landLast (s : State) (u : Nat) : Option Nat :=
  match SMap.get none s.land u, s.landStrand u with
  | some f, some i =>
    if f.taken + 1 = f.len ∧ (s.strand i).atHead = true ∧ (s.strand i).items.head?.any (fun y => !y.h) = true then
      some (s.landBase u f.bank + f.taken)
    else none
  | _, _ => none

/-- Step 5 of R564: a fill whose every item has reached stage 15 completes, the last of them taken first where it still stands there; any
other fill is abandoned. -/
def State.settleUnit (s : State) (u : Nat) : State :=
  let s := if (s.landLast u).isSome then s.landPayload u else s
  match SMap.get none s.land u with
  | some f => if f.taken = f.len then s.landDone u else s.landAbandon u
  | none => s

/-- Step 6 of R564 and R565: the shadow is bound, its start address and g1–g3 written, it is enabled, and the pair is disarmed. -/
def State.shadowStart (s : State) (n code : Nat) : State :=
  let ctl := s.rd (Reg.SP_nCTL n)
  let cap := s.rd (Reg.SP_nCAP n)
  let shd := getF ctl Reg.SP_nCTL_SHD
  let cid := getF cap Reg.SP_nCAP_CID
  let st := s.rd (Reg.STR_CKuSTAT (getF cap Reg.SP_nCAP_UNIT))
  let len := if getF st Reg.STR_CKuSTAT_VALID = 1 then getF st Reg.STR_CKuSTAT_LEN else 0
  let va := if getF st Reg.STR_CKuSTAT_CUR = 1 then s.rd (Reg.SP_nVA1 n) else s.rd (Reg.SP_nVA0 n)
  let s := s.wr (Reg.BZ_TSTARTk shd) (w24 cid)
  let s := s.wr (Reg.ENG_TnSTART (shd / 4) (shd % 4)) (s.desc cid 7)
  let s := s.mapTh shd (fun t => { t with ctx := ((t.ctx.wrG 1 va).wrG 2 (w24 len)).wrG 3 (w24 (s.epoch cid)) })
  let s := s.enable shd
  let s := (s.pairOff n).sf (Reg.SP_nCTL n) Reg.SP_nCTL_EN 0
  { s with flt := { s.flt with took := SMap.set none s.flt.took n (some (code, getF st Reg.STR_CKuSTAT_SEQ, len)) } }

/-- THE TAKEOVER (R564), steps 1–6: the outputs held, the primary stopped, the epoch bumped, the landing settled, the shadow enabled. A
failed check of the shadow ends it after step 4. -/
def State.takeover (s : State) (n code : Nat) : State :=
  let ctl := s.rd (Reg.SP_nCTL n)
  let pri := getF ctl Reg.SP_nCTL_PRI
  let cap := s.rd (Reg.SP_nCAP n)
  let cid := getF cap Reg.SP_nCAP_CID
  let bar := s.shadowBar (getF ctl Reg.SP_nCTL_SHD) cid
  let s := { s with flt := { s.flt with trig := SMap.set none s.flt.trig n none } }
  let s := (s.holdSet (getF ctl Reg.SP_nCTL_HGRP)).disableEn pri
  let u := getF cap Reg.SP_nCAP_UNIT
  match bar with
  | some r =>
    let s := (s.bumpEpoch cid).faultLog 10 pri n (w24 r)
    ((s.inc Reg.FLT_CNT1 Reg.FLT_CNT1_TKF).pairFail n r).escalate 4 Reg.FLT_CTL_TKF
  | none => ((s.settleUnit u).bumpEpoch cid).shadowStart n code

/-- R564. A trigger holds the outputs, stops the primary, bumps the epoch, settles landing and starts the shadow. A trigger of a pair already
disarmed does nothing more (R579). -/
def execTakeover (n : Fin 32) (s : State) : Out :=
  .next (match SMap.get none s.flt.trig n with
    | none => s
    | some code => if s.pairArmed n then s.takeover n code else { s with flt := { s.flt with trig := SMap.set none s.flt.trig n none } })

/-- R565. The shadow issues at RESUME, TOOK is set and SP_TAKE raised. -/
def execTakeoverComplete (n : Fin 32) (s : State) : Out :=
  .next (match SMap.get none s.flt.took n with
    | none => s
    | some (code, seq, len) =>
      let s := { s with flt := { s.flt with took := SMap.set none s.flt.took n none } }
      let a := Reg.SP_nSTAT n
      let s := ((s.sf a Reg.SP_nSTAT_TOOK 1).sf a Reg.SP_nSTAT_TRIG code).sf a Reg.SP_nSTAT_SEQ seq
      let s := s.inc Reg.FLT_CNT1 Reg.FLT_CNT1_TK
      (s.faultLog 9 (s.fl (Reg.SP_nCTL n) Reg.SP_nCTL_SHD) n (w24 (code * 2 ^ 21 + seq * 2 ^ 8 + len))).raise 0x001)

/-! ### The assay -/

/-- A word of the calibration range as the assay unit reads it; an unreadable word reads 0. -/
def State.calWord (s : State) (a : Nat) : Word :=
  match s.cell a with
  | .good w | .corr w _ => w
  | .bad => 0

/-- The level index of R575. -/
abbrev lvlIdx (d p : Nat) : Nat := 8 * d + p

/-- The hours of a level's last two adder increments, the earlier first (R575). -/
def State.incHours (s : State) (i : Nat) : Nat × Nat :=
  (SMap.get 0xFFFFFF s.sys.hist (2 * i), SMap.get 0xFFFFFF s.sys.hist (2 * i + 1))

/-- An adder increment of a level is recorded at the present hour (R575). -/
def State.incRecord (s : State) (i : Nat) : State :=
  let h := (s.incHours i).2
  { s with sys := { s.sys with
    hist := SMap.set 0xFFFFFF (SMap.set 0xFFFFFF s.sys.hist (2 * i) h) (2 * i + 1) (s.rd Reg.ASY_HOURS).toNat } }

/-- The projected retirement hour of a level (R576). -/
def State.projected (s : State) (d p : Nat) : Option Nat :=
  let (h1, h2) := s.incHours (lvlIdx d p)
  if h1 = 0xFFFFFF ∨ h2 = 0xFFFFFF ∨ h2 ≤ h1 then none
  else some (min 0xFFFFFF (h2 + (10 - s.fl (Reg.ASY_MPdp d p) Reg.ASY_MPdp_ADD) * (h2 - h1)))

/-- ASY_PRJd and ASY_PRLd follow the projections (R576); ASY_PROJ is raised where any changes. -/
def State.projectShow (s : State) : State :=
  let words := fun (d : Nat) =>
    match (List.range 8).foldl (fun (b : Option (Nat × Nat)) p =>
        match s.projected d p, b with
        | some h, some (hb, pb) => if h < hb then some (h, p) else some (hb, pb)
        | some h, none => some (h, p)
        | none, b => b) none with
    | some (h, p) => (w24 h, w24 (2 ^ 23 + p))
    | none => (0xFFFFFF, 0)
  let t : State := domains.foldl (fun t d => (t.wr (Reg.ASY_PRJd d) (words d).1).wr (Reg.ASY_PRLd d) (words d).2) s
  t.raiseIf (domains.any (fun d => decide (s.rd (Reg.ASY_PRJd d) ≠ (words d).1) || decide (s.rd (Reg.ASY_PRLd d) ≠ (words d).2))) 0x09B

/-- An adder rises to `n` (R573). -/
def State.adderSet (s : State) (d p n : Nat) : State :=
  (((s.sf (Reg.ASY_MPdp d p) Reg.ASY_MPdp_ADD n).incRecord (lvlIdx d p)).raise 0x099).planUpdate

/-- A level is retired (R573). -/
def State.retire (s : State) (d p : Nat) : State := ((s.sf (Reg.ASY_MPdp d p) Reg.ASY_MPdp_RET 1).raise 0x09A).planUpdate

/-- Level `p` is the domain's lowest unretired one. -/
def State.lowestLevel (s : State) (d p : Nat) : Bool := !s.retired d p && (List.range p).all (fun q => s.retired d q)

/-- The margin of a ring in units of 0.01 % (R573), truncated toward zero; none where the calibration gives no positive required count. -/
def ringMargin (nref tc n tj : Int) : Option Int :=
  let f := 8000000 + tc * (1000 - tj)
  if nref * f ≤ 0 then none else some (Int.tdiv (10000 * (n * 8000000 - nref * f)) (nref * f))

/-- A level's margin: the smallest over its four rings; a free value where R573 gives none. -/
def State.levelMargin (s : State) (m : AsyMeas) : State × Int :=
  let one := fun (q : Nat) => ringMargin (s.calWord (0x7F0400 + 32 * m.d + 8 * q + m.p)).toNat (s.calWord (0x7F0520 + m.d)).toInt
    (m.n.getD q 0).toNat m.tj.toInt
  match (List.range 4).foldl (fun (b : Option (Option Int)) q =>
      match b, one q with
      | none, r => some r
      | some none, _ => some none
      | some (some _), none => some none
      | some (some x), some y => some (some (min x y))) none with
  | some (some x) => (s, max (-32768) (min 32767 x))
  | _ => let (s, w) := s.draw; (s, (BitVec.ofNat 16 w.toNat).toInt)

/-- One measurement (R571–R573): the counts are shown; a margin below ASY_GUARD raises the adder, or at 50 mV retires the level, never the
domain's lowest. A level whose voltage exceeds VCORE, a retired level and a quarantined domain are not measured. -/
def State.asyMeasure (s : State) (m : AsyMeas) : State :=
  let d := m.d.val
  let p := m.p.val
  let a := Reg.ASY_MPdp d p
  if s.retired d p ∨ (d < 8 ∧ s.quarantined d) then s
  else if s.fl Reg.PWR_VCORE Reg.PWR_VCORE_MV < s.levelMv d p then s.sf a Reg.ASY_MPdp_SKIP 1
  else
    let s : State := (List.range 4).foldl (fun s q => s.wr (Reg.ASY_RCdq d q) (m.n.getD q 0)) s
    let s := s.sf (Reg.ASY_TJd d) Reg.ASY_TJd_TJ m.tj.toNat
    let (s, x) := s.levelMargin m
    let s := (s.sf a Reg.ASY_MPdp_MARG (x % 65536).toNat).sf a Reg.ASY_MPdp_SKIP 0
    let low := s.lowestLevel d p
    let s := if low then s.sf Reg.ASY_STAT (bitF d) 0 else s
    if x < s.fl Reg.ASY_GUARD Reg.ASY_GUARD_GUARD then
      let add := s.fl a Reg.ASY_MPdp_ADD
      if add < 10 then s.adderSet d p (add + 1)
      else if low then s.sf Reg.ASY_STAT (bitF d) 1
      else s.retire d p
    else s

/-- A plan word of the record (R575). -/
def State.planWord (s : State) (i : Nat) : Word := s.rd (Reg.ASY_MPdp (i / 8) (i % 8)) &&& 0x8F0000

/-- The words of the assay record but for its check word (R575). -/
def State.recordWord (s : State) (o : Nat) : Word :=
  if o = 0 then 0x415359
  else if o = 1 then 1
  else if o = 2 then s.sys.recSeq
  else if o = 3 then s.rd Reg.ASY_HOURS
  else if 0x10 ≤ o ∧ o < 0x58 then s.planWord (o - 0x10)
  else if 0x60 ≤ o ∧ o < 0xF0 then w24 (SMap.get 0xFFFFFF s.sys.hist (o - 0x60))
  else 0

/-- The assay record is written (R575) to the copy not written last, and marked (R203). -/
def State.recordWrite (s : State) : State :=
  let s := { s with sys := { s.sys with recSeq := s.sys.recSeq + 1, recB := !s.sys.recB } }
  let base := if s.sys.recB then 0x7FFF00 else 0x7FFE00
  let ws := (List.range 255).map (fun o => s.recordWord o)
  let sum := ws.foldl (fun x w => x + w) (0 : Word)
  let put := fun (s : State) (p : Nat × Word) => s.setCell (base + p.1) (.good p.2)
  let s : State := (ws.zipIdx.map (fun p => (p.2, p.1))).foldl put s
  (put s (255, 0 - sum)).mrMark

/-- The record copy at `base`, if its magic, format and check are good and every word reads (R575). -/
def State.recordGood (s : State) (base : Nat) : Option (List Word) :=
  let cs := (List.range 256).map (fun o => s.cell (base + o))
  if cs.any (fun c => decide (c = .bad)) then none
  else
    let ws := (List.range 256).map (fun o => s.calWord (base + o))
    if ws.getD 0 0 = 0x415359 ∧ ws.getD 1 0 = 1 ∧ ws.foldl (fun x w => x + w) (0 : Word) = 0 then some ws else none

/-- The load of the assay record (R574, R575). `plan` says that the working copy of ADD and RET is loaded too (power-on reset); at every
other restart of the fabric only the hours and the increment history are. -/
def State.recordLoad (s : State) (plan : Bool) : State :=
  let pick := match s.recordGood 0x7FFE00, s.recordGood 0x7FFF00 with
    | some a, some b => if (b.getD 2 0).toNat > (a.getD 2 0).toNat then some (b, true) else some (a, false)
    | some a, none => some (a, false)
    | none, some b => some (b, true)
    | none, none => none
  match pick with
  | some (ws, b) =>
    let s := s.wr Reg.ASY_HOURS (ws.getD 3 0)
    let s := { s with sys := { s.sys with
      recSeq := ws.getD 2 0, recB := b
      hist := (List.range 144).foldl (fun m i => SMap.set 0xFFFFFF m i (ws.getD (0x60 + i) 0).toNat) [] } }
    if plan then
      (List.range 72).foldl (fun s i => s.wr (Reg.ASY_MPdp (i / 8) (i % 8)) (ws.getD (0x10 + i) 0 &&& 0x8F0000)) s
    else s
  | none =>
    let s := { s with sys := { s.sys with hist := [], recSeq := 0, recB := true } }
    if plan then { s.sf Reg.ASY_STAT Reg.ASY_STAT_RECERR 1 with sys := { s.sys with hist := [], recSeq := 0, recB := true, runDue := true } }
    else s

/-- A run of the assay starts if none is in progress (R572). -/
def State.asyStart (s : State) : State := s.sf Reg.ASY_STAT Reg.ASY_STAT_BUSY 1

/-- The ticks of device time in an hour (R572). -/
def hourTicks : Nat := 360000000000

/-- The hour boundary itself: ASY_HOURS, the record, and with HOURLY a run, which in DOZE waits for an hour boundary in RUN (R572). -/
def State.hourTake (s : State) : State :=
  let d := (s.wr Reg.ASY_HOURS (s.rd Reg.ASY_HOURS + 1)).recordWrite
  if s.fb Reg.ASY_CTL Reg.ASY_CTL_HOURLY = true ∧ s.pwr.state = 0 then d.asyStart else d

/-- An hour of RUN and DOZE is done once its ticks have been counted (R572). -/
def State.asyHour (s : State) : State :=
  if s.sys.hour < hourTicks then s
  else { s with sys := { s.sys with hour := s.sys.hour - hourTicks } }.hourTake

/-- R572. An hour of RUN and DOZE has passed. -/
def execAssayHour (s : State) : Out := .next s.asyHour

/-- R572. Writing ASY_CTL.RUN starts an assay run. -/
def execAssayRunCommand (s : State) : Out := .next (if s.pwr.state = 0 then s.asyStart else s)

/-- The trend figures of R578 and their flags; ASY_TREND is raised where one is set. -/
def State.trends (s : State) (bg : List (BitVec 24)) (mrm : Word) (solr bst : List (BitVec 24)) : State :=
  let s : State := bg.zipIdx.foldl (fun s p => if p.2 < 3 then s.sf (Reg.ASY_BGMAXk p.2) Reg.ASY_BGMAXk_D p.1.toNat else s) s
  let s := (s.sf Reg.ASY_MRM Reg.ASY_MRM_BANK (getBits mrm 10 8)).sf Reg.ASY_MRM Reg.ASY_MRM_MARGIN (getBits mrm 7 0)
  let s : State := solr.zipIdx.foldl (fun s p => if p.2 < 16 then s.sf (Reg.ASY_SOLRc p.2) Reg.ASY_SOLRc_RON p.1.toNat else s) s
  let s : State := bst.zipIdx.foldl (fun s p => if p.2 < 12 then s.sf (Reg.ASY_BSTn p.2) Reg.ASY_BSTn_VMIN p.1.toNat else s) s
  let b := (List.range 3).any (fun k => decide (50 < s.fl (Reg.ASY_BGMAXk k) Reg.ASY_BGMAXk_D))
  let m := decide (s.fl Reg.ASY_MRM Reg.ASY_MRM_MARGIN < 20)
  let o := (List.range 16).any (fun c => decide (350 < s.fl (Reg.ASY_SOLRc c) Reg.ASY_SOLRc_RON))
  let t := (List.range 12).any (fun n => decide (s.fl (Reg.ASY_BSTn n) Reg.ASY_BSTn_VMIN < 750))
  let v := s.rd Reg.ASY_TRF ||| w24 (b2n b * 2 ^ 23 + b2n m * 2 ^ 22 + b2n o * 2 ^ 21 + b2n t * 2 ^ 20)
  (s.wr Reg.ASY_TRF v).raiseIf (b || m || o || t) 0x09D

/-- R573. An assay run completes: its measurements, in the order made, raise adders or retire levels; the levels it did not measure show
SKIP; the trend figures of the hour are recorded, the record is written where a plan word changed, and ASY_DONE is raised. -/
def execAssayRunComplete (ms : List AsyMeas) (bg : List (BitVec 24)) (mrm : BitVec 24) (solr bst : List (BitVec 24)) (s : State) : Out :=
  .next (if s.fb Reg.ASY_STAT Reg.ASY_STAT_BUSY = false then s
    else
      let plan0 := (List.range 72).map s.planWord
      let s : State := (List.range 72).foldl (fun s i =>
        if s.retired (i / 8) (i % 8) ∨ ms.any (fun m => decide (m.d.val = i / 8 ∧ m.p.val = i % 8)) then s
        else s.sf (Reg.ASY_MPdp (i / 8) (i % 8)) Reg.ASY_MPdp_SKIP 1) s
      let s : State := ms.foldl (fun s m => s.asyMeasure m) s
      let s := (s.trends bg mrm solr bst).projectShow
      let s := (s.sf Reg.ASY_STAT Reg.ASY_STAT_BUSY 0).sf Reg.ASY_STAT Reg.ASY_STAT_RECERR 0
      let s := s.incW Reg.ASY_RUNS
      let s := if plan0 = (List.range 72).map s.planWord then s else s.recordWrite
      s.raise 0x098)

/-- A keeper's write to ASY_MPdp (R573): it may raise the adder and retire the level, but for the domain's last unretired one. -/
def State.planWrite (s : State) (d p : Nat) (v : Word) : State :=
  let a := Reg.ASY_MPdp d p
  let n := min 10 (getF v Reg.ASY_MPdp_ADD)
  let s := if s.fl a Reg.ASY_MPdp_ADD < n then s.adderSet d p n else s
  let s := if v.getLsbD 23 ∧ s.retired d p = false ∧ (List.range 8).any (fun q => decide (q ≠ p) && !s.retired d q) then s.retire d p else s
  s.projectShow

/-- R573. A keeper write to ASY_MPdp raises an adder or retires a level. -/
def execAssayPlanWrite (d : Fin 9) (p : Fin 8) (v : BitVec 24) (s : State) : Out := .next (s.planWrite d p v)

/-- R577. Every 10 ms the thermal governor sets the thermal cap from TMAX; `tj` are the nine domain temperatures in units of 0.125 °C. -/
def execThermalEvaluation (tj : List (BitVec 12)) (s : State) : Out :=
  .next (if s.time.locked = false ∨ tj = [] then s
    else
      let s : State := tj.zipIdx.foldl (fun s x => if x.2 < 9 then s.sf (Reg.ASY_TJd x.2) Reg.ASY_TJd_TJ x.1.toNat else s) s
      let tmax := (tj.map (fun x => x.toInt)).foldl max (-2048)
      let c := s.rd Reg.ASY_THCFG
      let a := Reg.ASY_THSTAT
      let cap := s.fl a Reg.ASY_THSTAT_CAP
      let run := if tmax ≤ 8 * getF c Reg.ASY_THCFG_TLO then s.sys.thRun + 1 else 0
      let new :=
        if 1000 ≤ tmax then 0
        else if 8 * (getF c Reg.ASY_THCFG_THI : Int) ≤ tmax then (if getF c Reg.ASY_THCFG_FLOOR < cap then cap - 1 else cap)
        else if 10 ≤ run then min (cap + 1) 7
        else cap
      let crit := if 1000 ≤ tmax then 1 else if tmax < 8 * (getF c Reg.ASY_THCFG_THI : Int) ∧ 10 ≤ run then 0 else s.fl a Reg.ASY_THSTAT_CRIT
      let s := { s with sys := { s.sys with thRun := if 10 ≤ run then 0 else run } }
      let s := s.wr a (w24 (new * 2 ^ 21 + crit * 2 ^ 20 + (tmax % 4096).toNat))
      (s.raiseIf (decide (new ≠ cap)) 0x09C).planUpdate)

end Sys2Proof.Machine
end

