-- ==== Sys2Proof/Machine/Reset.lean ====
section
/-!
DEFINITION. Resets (R582–R586), the boot ROM (R587–R591, R638), the watchdog (R586), the fuses (R592) and service mode (R593).
-/

namespace Sys2Proof.Machine

/-! ### What a reset keeps -/

/-- A register of the fault log and its counts (R569). -/
def fltKept (a : Nat) : Bool :=
  decide (a = Reg.FLT_CTL ∨ (Reg.FLT_HEAD ≤ a ∧ a ≤ Reg.FLT_CNT2) ∨ (Reg.FLT_LAi 0 ≤ a ∧ a ≤ Reg.FLT_LCi 31))

/-- A time-base register that every reset but power-on leaves as it stands (R424). -/
def timeKept (a : Nat) : Bool :=
  decide (a = Reg.TIME_SLEWREM ∨ a = Reg.TIME_SLEWCFG ∨ a = Reg.REF_TBCTL ∨ a = Reg.REF_TBSTAT ∨ a = Reg.REF_AWUCAL ∨
    a = Reg.REF_BGCTL ∨ a = Reg.REF_BGSTAT)

/-- A register of the always-on domain: PWR, HOLD, AWU, the I²C target, the working copy of the adders (R574, R583). -/
def aonKept (a : Nat) : Bool :=
  decide ((0xF01000 ≤ a ∧ a < 0xF03000) ∨ (0xF07000 ≤ a ∧ a < 0xF08000) ∨ (0xF37800 ≤ a ∧ a < 0xF38000) ∨
    (Reg.ASY_MPdp 0 0 ≤ a ∧ a ≤ Reg.ASY_MPdp 8 7))

/-- A register of a key slot whose LOCK is 1 (R241: LOCK clears only at power-on reset, and the slot is read-only until then). -/
def State.keyLocked (s : State) (a : Nat) : Bool :=
  (List.range 8).any (fun j =>
    decide (Reg.BZ_KjKEYw j 0 ≤ a ∧ a ≤ Reg.BZ_KjMINVER j) && s.fb (Reg.BZ_KjCTL j) Reg.BZ_KjCTL_LOCK)

/-- A fuse word. -/
def fuseReg (a : Nat) : Bool := decide (Reg.SYS_FUSEw 0 ≤ a ∧ a ≤ Reg.SYS_FUSEw 33)

/-- Every block of both dies at its reset values (R583), but for the registers in `keep`, the memory words in `mem`, the always-on units
and the Loupe port. -/
def State.blocksReset (s : State) (keep mem : Nat → Bool) : State :=
  { State.reset with
    pending := s.pending, fresh := s.fresh, rdata := s.rdata
    regs := s.regs.filter (fun p => keep p.1)
    mem := s.mem.filter (fun p => mem p.1)
    comm := { CommSt.init with i2ct := s.comm.i2ct }
    sys := { s.sys with thRun := 0, fuse := none, runDue := false, hour := 0, warned := false }
    pwr := s.pwr
    lp := s.lp }

/-- The MRAM write buffer drains to the cells in order (R583). -/
def State.mrDrain (s : State) : State :=
  let s : State := s.memc.wbuf.foldl (fun s e => s.setCell e.addr (.good e.val)) s
  { s with memc := { s.memc with wbuf := [] } }

/-- Power is lost with words in the MRAM write buffer (R204): the oldest of each bank, whose write is in progress, reads as its old value,
its new one or uncorrectable, as a free value says; the others keep their old words. -/
def State.mrLost (s : State) : List Nat → List MrEnt → State
  | _, [] => s
  | busy, e :: r =>
    if mrBank e.addr ∈ busy then s.mrLost busy r
    else
      let (s, f) := s.draw
      let s := match f.toNat % 3 with
        | 0 => s
        | 1 => s.setCell e.addr (.good e.val)
        | _ => s.setCell e.addr .bad
      s.mrLost (mrBank e.addr :: busy) r

/-- A word that a store on its way may be writing as a system reset comes reads old, new or uncorrectable, as a free value says (R583). -/
def State.tornWord (s : State) (a : Nat) (v : Word) : State :=
  if region a = .localMem ∨ region a = .cluster ∨ region a = .glob then
    let (s, f) := s.draw
    match f.toNat % 3 with
    | 0 => s
    | 1 => s.setCell a (.good v)
    | _ => s.setCell a .bad
  else s

/-- The stores and exchanges on their way to memory at a system reset (R583). -/
def State.tornStores (s : State) : State :=
  (s.eng.flatMap (fun p => p.2.spine.filter (fun a => decide (a.kind = .store ∨ a.kind = .xchg)))).foldl (fun s a =>
    let s := s.tornWord a.pa a.d0
    if a.pair then s.tornWord a.pa2 a.d1 else s) s

/-- On a manager the link's registers reset to their manager values (R501). -/
def State.roleReset (s : State) : State :=
  if s.fb Reg.SYS_STRAP Reg.SYS_STRAP_ROLE then (s.wr Reg.CHN_STAT 0x800000).wr Reg.CHN_TCTL 0 else s

/-- The straps are sampled at a rising edge of RESET_N (R585): bit 3 ROLE, bit 2 SVC, bits [1:0] BOOTSEL. -/
def State.strapSample (s : State) (st : BitVec 4) : State :=
  let s := s.wr Reg.SYS_STRAP (w24 (st.toNat * 2 ^ 20))
  (s.sf Reg.SYS_SVC Reg.SYS_SVC_STRAP (b2n (st.getLsbD 2))).roleReset

/-- The actions of the ladder's steps in force reach blocks that have been reset (R519): no event, no count. -/
def State.shedAgain (s : State) : State :=
  let n := s.fl Reg.PWR_SHSTAT Reg.PWR_SHSTAT_STEP
  let s := if 1 ≤ n then s.sf Reg.BZ_SHED Reg.BZ_SHED_ACT 1 else s
  ([2, 3, 4].filter (fun k => decide (k ≤ n))).foldl (fun s k => s.clShed k) s

/-! ### The boot ROM -/

/-- T0 of engine 0 leaves the ROM for the keeper at `pc` (R587 step 7, R589): keeper privilege, KG of BZ_KGEN.CUR, g1 the slot or image
base, g2 SYS_RCAUSE, g3 SYS_BOOTSTAT, every other register 0; a HALT asked for meanwhile takes effect (R638). -/
def State.bootJump (s : State) (g1 pc ivec xvec : Word) : State :=
  let s := (s.wr (Reg.EVI_TtIVEC 0 0) (ivec &&& 0xFFFFFE)).wr (Reg.EVI_TtXVEC 0 0) (xvec &&& 0xFFFFFE)
  let kg := s.fb Reg.BZ_KGEN Reg.BZ_KGEN_CUR
  let g : SMap Word := [(1, g1), (2, s.rd Reg.SYS_RCAUSE), (3, s.rd Reg.SYS_BOOTSTAT)].foldl (fun m p => SMap.set 0 m p.1 p.2) []
  let t := { Thread.boot with watch := s.time.ticks }
  (s.setTh 0 { t with
    ctx := { t.ctx with g := g, pc := pc }
    bind := { t.bind with kg := kg, tep := s.epoch 0 }, startKg := kg
    haltReq := (s.th 0).haltReq, rom := false }).haltCheck 0

/-- T0 waits in the ROM's wfe for the Loupe port: service mode (R591, R638). -/
def State.bootWait (s : State) : State :=
  let s := s.sf Reg.SYS_SVC Reg.SYS_SVC_EN 1
  let h := (s.th 0).haltReq
  (s.setTh 0 { Thread.boot with mode := .event, halt := h }).raiseIf (decide (h ≠ 0)) 0x3F0

/-- The load sections of a keeper image are copied (R587 step 6, R588): the contents from +40 onward, in load order. -/
def State.bootLoads (s : State) (src : Nat) : List (Nat × Nat) → State
  | [] => s
  | (dst, n) :: r =>
    let s : State := (List.range n).foldl (fun s i =>
      match s.memRead (src + i) 0 0 with
      | (s, some w) => s.memWrite (dst + i) w
      | (s, none) => s) s
    s.bootLoads (src + n) r

/-- An image that passed starts (R587 steps 6 and 7): `g1` is the slot base or image base, `img` the address of its word +0. -/
def State.bootStart (s : State) (g1 img : Nat) (h : List Word) : State :=
  let s := s.bootLoads (img + 40) (keeperLoads h)
  s.bootJump (w24 g1) (h.getD 6 0) (h.getD 7 0) (h.getD 8 0)

/-- A keeper slot is checked (R588): 0 A, 1 B; its FAIL code is recorded. -/
def State.bootSlot (s : State) (b : Nat) : State × ImgRes :=
  let (s, r) := s.keeperCheck (0x400010 + b * 0x100000)
  (s.sf Reg.SYS_BOOTSTAT (if b = 0 then Reg.SYS_BOOTSTAT_FAILA else Reg.SYS_BOOTSTAT_FAILB) r.fail, r)

/-- The image of a slot that passed starts: BOOTSTAT.SLOT and the slot's protection bit are set. -/
def State.slotStart (s : State) (b : Nat) (h : List Word) : State :=
  let s := s.sf Reg.SYS_BOOTSTAT Reg.SYS_BOOTSTAT_SLOT b
  let s := s.sf Reg.MEMC_MRPROT (if b = 0 then Reg.MEMC_MRPROT_PROTA else Reg.MEMC_MRPROT_PROTB) 1
  s.bootStart (0x400000 + b * 0x100000) (0x400010 + b * 0x100000) h

/-- A service boot (R591): the image received is copied into global SRAM from 0 and checked; SVCB is set, FAILS records the code. `slot` is
2 for xSPI, 3 for USB. The flag says that it passed. -/
def State.serviceBoot (s : State) (slot : Nat) (img : List Word) : State × Bool :=
  let n := (img.getD 2 0).toNat
  let s : State := ((img.take (max 3 (min n 0x100000))).zipIdx).foldl (fun s p => s.memWrite p.2 p.1) s
  let s := s.sf Reg.SYS_BOOTSTAT Reg.SYS_BOOTSTAT_SVCB 1
  let (s, r) := s.keeperCheck 0
  let s := s.sf Reg.SYS_BOOTSTAT Reg.SYS_BOOTSTAT_FAILS r.fail
  if r.fail = 0 then ((s.sf Reg.SYS_BOOTSTAT Reg.SYS_BOOTSTAT_SLOT slot).bootStart 0 0 r.hdr, true) else (s, false)

/-- The preferred slot (R587 step 4): the one with the larger BOOTGEN, compared modulo 2^24 within 2^23; A on equality; the other one
where a BOOTGEN reads uncorrectable. -/
def State.bootPrefer (s : State) : State × Nat :=
  let (s, a) := s.memRead 0x400000 0 0
  let (s, b) := s.memRead 0x500000 0 0
  (s, match a, b with
    | some x, some y => if (y - x).toNat ≠ 0 ∧ (y - x).toNat < 2 ^ 23 then 1 else 0
    | none, some _ => 1
    | _, none => 0)

/-- The three bytes with which the ROM answers a USB service boot on EP1 IN (R591), as endpoint buffer 3 holds them (log entry 65). -/
def State.usbAnswer (s : State) : State :=
  let f := s.fl Reg.SYS_BOOTSTAT Reg.SYS_BOOTSTAT_FAILS
  (s.wr (Reg.USB_EPeBUFw 3 0) (if f = 0 then 0x4F4B00 else w24 (0x450000 + f))).sf (Reg.USB_EPeCFG 3) Reg.USB_EPeCFG_CNT 3

/-- Both slots have failed (R591). USB selects XTAL; with no image sent it leaves T0 in the ROM. -/
def State.bootFailed (s : State) (img : List Word) : State :=
  match s.fl Reg.SYS_STRAP Reg.SYS_STRAP_BOOTSEL with
  | 1 => let (s, ok) := s.serviceBoot 2 img
         if ok then s else s.bootWait
  | 2 => let s := if s.tbSel = 0 then s else s.tbSwitch 0
         if img = [] then s
         else
           let (s, ok) := s.serviceBoot 3 img
           let s := s.usbAnswer
           if ok then s else s.bootWait
  | _ => s.bootWait

/-- Steps 4 to 7 of R587, after the xSPI boot that BOOTSEL 0b11 tries first in service mode (R591). -/
def State.bootSlots (s : State) (img : List Word) : State :=
  let first := decide (s.fl Reg.SYS_STRAP Reg.SYS_STRAP_BOOTSEL = 3) && s.service
  let (s, ok) := if first then s.serviceBoot 2 img else (s, false)
  if ok then s
  else
    let (s, p) := s.bootPrefer
    let (s, r) := s.bootSlot p
    if r.fail = 0 then s.slotStart p r.hdr
    else
      let s := s.sf Reg.SYS_BOOTSTAT Reg.SYS_BOOTSTAT_FB 1
      let (s, r) := s.bootSlot (1 - p)
      if r.fail = 0 then s.slotStart (1 - p) r.hdr else s.bootFailed img

/-- The resume path (R590): SYS_KRESUME lies in the slot of BOOTSTAT.SLOT, whose header gives the vectors. -/
def State.bootResume (s : State) (img : List Word) : State :=
  let b := s.fl Reg.SYS_BOOTSTAT Reg.SYS_BOOTSTAT_SLOT
  let base := 0x400000 + b * 0x100000
  let at' := (s.rd Reg.SYS_KRESUME).toNat
  if at' ≠ 0 ∧ b ≤ 1 ∧ base ≤ at' ∧ at' < base + 0x100000 then
    let vec := fun (s : State) (a : Nat) => match s.memRead a 0 0 with
      | (s, some w) => (s, w)
      | (s, none) => s.draw
    let (s, iv) := vec s (base + 0x17)
    let (s, xv) := vec s (base + 0x18)
    let s := s.sf Reg.SYS_BOOTSTAT Reg.SYS_BOOTSTAT_RES 1
    s.bootJump (w24 base) (w24 at') iv xv
  else (s.wr Reg.SYS_BOOTSTAT 0).bootSlots img

/-! ### The resets -/

/-- Power-on reset (R582, R583): `src` is PORSRC, `vaon` says that VAON fell below the locket's retention level, `straps` and `img` what the
pins and a service host give. The lock state opens where no DKEY is programmed and the SVC strap is set (R598). -/
def State.powerOn (s : State) (src : Nat) (vaon : Bool) (straps : BitVec 4) (img : List Word) : State :=
  let s := s.mrLost [] s.memc.wbuf
  let lkv := s.sys.lkv && !vaon
  let mem := fun (a : Nat) => decide (region a = .mram) || (decide (region a = .locket) && lkv)
  let s := s.blocksReset fuseReg mem
  let s := { s with
    comm := CommSt.init, pwr := PwrSt.init, lp := LoupeSt.init
    sys := { SysSt.init with lkv := true } }
  let s := s.recordLoad true
  let s := s.strapSample straps
  let s := s.wr Reg.SYS_RCAUSE (w24 (2 ^ 23 + src * 2 ^ 14))
  let s := if lkv then s else s.sf Reg.SYS_BOOTSTAT Reg.SYS_BOOTSTAT_LKCLR 1
  let noKey := (List.range 11).all (fun i => decide (s.rd (Reg.SYS_FUSEw (22 + i)) = 0))
  let s := if noKey && straps.getLsbD 2 then s.sf Reg.SYS_DBG Reg.SYS_DBG_LSTATE 2 else s
  s.planSettle.bootSlots img

/-- A system reset (R582, R583): `cause` is its bit of SYS_RCAUSE, `bad` a bad watchdog kick, `escr` the escalation reason. Outputs are
de-energised and disarmed, the MRAM write buffer drains, an entry to a power state or a return is abandoned (R603). -/
def State.systemReset (s : State) (cause : Fld) (bad : Bool) (escr : Nat) (straps : BitVec 4) (img : List Word) : State :=
  let n := s.fl Reg.SYS_RCAUSE Reg.SYS_RCAUSE_RCNT
  let clq := s.fl Reg.FLT_STAT Reg.FLT_STAT_CLQ
  let ls := s.fl Reg.SYS_DBG Reg.SYS_DBG_LSTATE
  let lc := s.fl Reg.SYS_DBG Reg.SYS_DBG_LCID
  let o := s.tornStores.mrDrain
  let s := o.blocksReset (fun a => fuseReg a || aonKept a || fltKept a || timeKept a || o.keyLocked a) (fun _ => true)
  let s := { s with
    time := { o.time with tc := [], gpend := none }
    pwr := { o.pwr with state := 0, tgt := 0, forced := false, wake := false }
    lp := { o.lp with freeze := false } }
  let s := s.sf Reg.FLT_STAT Reg.FLT_STAT_CLQ clq
  let s := (s.sf Reg.SYS_DBG Reg.SYS_DBG_LSTATE ls).sf Reg.SYS_DBG Reg.SYS_DBG_LCID lc
  let s := (s.sf Reg.PWR_PSSTAT Reg.PWR_PSSTAT_BUSY 0).sf Reg.PWR_PSSTAT Reg.PWR_PSSTAT_PHASE 0
  let s := s.strapSample straps
  let s := (s.sf Reg.TIME_STAT Reg.TIME_STAT_LOCK (b2n s.time.locked)).tqShow
  let s := s.wr Reg.SYS_RCAUSE (setF (w24 (b2n bad * 2 ^ 17 + escr * 2 ^ 11 + satInc n 255)) cause 1)
  let s := s.recordLoad false
  let s := if s.quarantined 0 then
      ((s.readmitDone 0).wr (Reg.ENG_TCTL 0) 1).setTh 0 Thread.boot
    else s
  s.planUpdate.shedAgain.bootSlots img

/-- The watchdog counts (R586): enabled, in RUN, not held by the freeze signal. -/
def State.wdRuns (s : State) : Bool :=
  s.fb Reg.SYS_WDCTL Reg.SYS_WDCTL_EN && decide (s.pwr.state = 0) &&
  !(s.fb Reg.SYS_WDCTL Reg.SYS_WDCTL_DBGFRZ && s.frozen)

/-- The escalation reason a watchdog reset keeps (R603). -/
def State.escKept (s : State) : Nat := if s.fb Reg.FLT_STAT Reg.FLT_STAT_ESC then s.fl Reg.FLT_STAT Reg.FLT_STAT_ESCR else 0

/-- The watchdog's timeout in AWU cycles (R586). -/
def State.wdTo (s : State) : Nat := 1024 * max 1 (s.fl Reg.SYS_WDCTL Reg.SYS_WDCTL_TO)

/-- A write to SYS_WDKICK while the watchdog is enabled (R586), `n` AWU cycles into its count: any value but 0x00C35A, or a kick earlier than
MIN × 1,024, resets with WDBAD; a good kick restarts the count, which this model's commands carry. -/
def State.wdKick (s : State) (v : Word) (n : Nat) (straps : BitVec 4) (img : List Word) : State :=
  if s.fb Reg.SYS_WDCTL Reg.SYS_WDCTL_EN = false then s
  else if v ≠ 0x00C35A ∨ n < 1024 * s.fl Reg.SYS_WDCTL Reg.SYS_WDCTL_MIN then
    s.systemReset Reg.SYS_RCAUSE_WDOG true s.escKept straps img
  else { s with sys := { s.sys with warned := false } }

/-- A write to SYS_RESET (R582). -/
def State.keeperReset (s : State) (v : Word) (straps : BitVec 4) (img : List Word) : State :=
  if v = 0x5E7501 then s.systemReset Reg.SYS_RCAUSE_KCMD false 0 straps img else s

/-! ### Fuses -/

/-- A write to SYS_FUSECMD (R592). A command written while one is in progress is refused (log entry 31). -/
def State.fuseCmd (s : State) (v : Word) : State :=
  let s := s.wr Reg.SYS_FUSECMD (v &&& 0xFF803F)
  if getF v Reg.SYS_FUSECMD_KEY ≠ 0xF5 then s
  else
    let w := getF v Reg.SYS_FUSECMD_W
    let n := getBits (s.rd (Reg.SYS_FUSEw 33)) 6 0
    let shed := decide (s.fl Reg.PWR_SHSTAT Reg.PWR_SHSTAT_STEP ≠ 0)
    let busy := s.fb Reg.SYS_FUSESTAT Reg.SYS_FUSESTAT_BUSY
    let job := if getF v Reg.SYS_FUSECMD_SEP = 1 then
        (if 64 ≤ n then none else some (33, w24 (n + 1)))
      else if s.service = false ∨ 32 < w ∨ s.rd (Reg.SYS_FUSEw w) ≠ 0 then none
      else some (w, s.rd Reg.SYS_FUSEDAT)
    match job with
    | some j =>
      if shed || busy then s.sf Reg.SYS_FUSESTAT Reg.SYS_FUSESTAT_ERR 1
      else { s.sf Reg.SYS_FUSESTAT Reg.SYS_FUSESTAT_BUSY 1 with sys := { s.sys with fuse := some j } }
    | none => s.sf Reg.SYS_FUSESTAT Reg.SYS_FUSESTAT_ERR 1

/-- A fuse command completes (R592): the word read back is `got`; ERR is set where it is not the value meant. -/
def State.fuseDone (s : State) (got : Word) : State :=
  match s.sys.fuse with
  | none => s
  | some (w, v) =>
    let s := { s with sys := { s.sys with fuse := none } }
    let s := (s.wr (Reg.SYS_FUSEw w) got).sf Reg.SYS_FUSESTAT Reg.SYS_FUSESTAT_BUSY 0
    (if got = v then s else s.sf Reg.SYS_FUSESTAT Reg.SYS_FUSESTAT_ERR 1).raise 0x021

/-! ### Commands -/

/-- R583. Power-on resets every block, clears registers and runs the boot ROM: `src` is the source (PORSRC), `vaon` says that VAON fell below
the locket's retention level, `straps` are the strap pins (ROLE, SVC, BOOTSEL), `img` the words a service boot receives. -/
def execPowerOnReset (src : Fin 5) (vaon : Bool) (straps : BitVec 4) (img : List (BitVec 24)) (s : State) : Out :=
  .next (s.powerOn src vaon straps img)

/-- R582. RESET_N held low for 1 µs makes a system reset. -/
def execResetPin (straps : BitVec 4) (img : List (BitVec 24)) (s : State) : Out :=
  .next (s.systemReset Reg.SYS_RCAUSE_PIN false 0 straps img)

/-- R582. Writing 0x5E7501 to SYS_RESET makes a keeper-command reset; other values are ignored. -/
def execKeeperReset (v : BitVec 24) (straps : BitVec 4) (img : List (BitVec 24)) (s : State) : Out := .next (s.keeperReset v straps img)

/-- R586. A write to SYS_WDKICK restarts the watchdog, or resets with WDBAD; `n` AWU cycles have been counted since the last kick or enable. -/
def execWatchdogKick (v n : BitVec 24) (straps : BitVec 4) (img : List (BitVec 24)) (s : State) : Out :=
  .next (s.wdKick v n.toNat straps img)

/-- R586. The watchdog's count `n` reaches half its timeout and raises SYS_WDWARN, once in a count. -/
def execWatchdogWarn (n : BitVec 24) (s : State) : Out :=
  .next (if s.wdRuns ∧ s.sys.warned = false ∧ s.wdTo / 2 ≤ n.toNat then { s with sys := { s.sys with warned := true } }.raise 0x020 else s)

/-- R586. The watchdog's count `n` reaches TO × 1,024 and makes a watchdog reset. -/
def execWatchdogTimeout (n : BitVec 24) (straps : BitVec 4) (img : List (BitVec 24)) (s : State) : Out :=
  .next (if s.wdRuns ∧ s.wdTo ≤ n.toNat then s.systemReset Reg.SYS_RCAUSE_WDOG false s.escKept straps img else s)

/-- R568. ESCDLY µs after an escalation the device makes a fault-escalation reset; before TPLL locks no tick measures the delay. -/
def execEscalationReset (straps : BitVec 4) (img : List (BitVec 24)) (s : State) : Out :=
  .next (if s.fb Reg.FLT_STAT Reg.FLT_STAT_ESC ∧ (s.time.locked = false ∨ s.waited s.flt.escAt (s.fl Reg.FLT_CTL Reg.FLT_CTL_ESCDLY)) then s.systemReset Reg.SYS_RCAUSE_ESCAL false s.escKept straps img else s)

/-- R592. SYS_FUSECMD with SEP 0 programs a fuse word in service mode. -/
def execFuseProgram (v : BitVec 24) (s : State) : Out := .next (s.fuseCmd (setF v Reg.SYS_FUSECMD_SEP 0))

/-- R592. SYS_FUSECMD with SEP 1 blows the next security-epoch fuse. -/
def execEpochFuseBlow (v : BitVec 24) (s : State) : Out := .next (s.fuseCmd (setF v Reg.SYS_FUSECMD_SEP 1))

/-- R592. A fuse command completes, reads back and raises SYS_FUSEDONE. -/
def execFuseDone (got : BitVec 24) (s : State) : Out := .next (s.fuseDone got)

/-- R593. A write to SYS_SVC.EN enters or leaves service mode. -/
def execServiceModeWrite (v : BitVec 24) (s : State) : Out :=
  .next (s.sf Reg.SYS_SVC Reg.SYS_SVC_EN (getF v Reg.SYS_SVC_EN))

end Sys2Proof.Machine
end

