-- ==== Sys2Proof/Machine/Power.lean ====
section
/-!
DEFINITION. Power states, patrol and wake (R523–R549): the entry handshake, the locket save, the returns, the wake sources, the
patrol, and the I²C target (R446, R447).
-/

namespace Sys2Proof.Machine

/-! ### The participants -/

/-- Keeper save range `i`: first address and length (R536). -/
def State.saveRange (s : State) (i : Nat) : Nat × Nat :=
  ((s.rd (Reg.PWR_KSAVEi i)).toNat, s.fl (Reg.PWR_KLENi i) Reg.PWR_KLENi_LEN)

/-- The addresses of the keeper's words, in range order (R536). -/
def State.saveAddrs (s : State) : List Nat :=
  (List.range 4).flatMap (fun i => addrs (s.saveRange i).1 (s.saveRange i).2)

/-- The keeper save ranges are valid (R536). -/
def State.saveValid (s : State) : Bool :=
  decide (s.saveAddrs.length ≤ 256) && s.saveAddrs.all sramRegion

/-- Patrol entry `e` is valid (R545). -/
def State.patValid (s : State) (e : Nat) : Bool :=
  let v := s.rd (Reg.AWU_PeCFG e)
  decide (getF v Reg.AWU_PeCFG_V = 1 ∧ getF v Reg.AWU_PeCFG_CH < if getF v Reg.AWU_PeCFG_TYPE = 1 then 4 else 24)

/-- Wake source `b` is enabled (R540): bit 2 mirrors I2CT_CFG.WAKE, VIN is enabled in a forced entry whatever AWU_WEN holds (R533). -/
def State.wakeEn (s : State) (b : Nat) : Bool :=
  if b = 2 then decide (getF (s.an Reg.I2CT_CFG) Reg.I2CT_CFG_WAKE = 1)
  else if b = 9 then true
  else s.fb Reg.AWU_WEN (bitF b) || (decide (b = 7) && s.pwr.forced)

/-- An enabled thread keeps the ENGINES participant waiting (R528). -/
def State.threadBusy (s : State) (k : Nat) (t : Thread) : Bool :=
  decide (t.mode ≠ .off) &&
  (!(decide (t.mode = .event) || (match t.mode with | .time _ => true | _ => false) || decide (t.halt ≠ 0)) ||
   (match s.candidate k with | some c => t.open && s.accepts k c.2 t.levels | none => false))

/-- What participant `p` answers for an entry to state `tgt` (R528): 0 OK, 1 DELAY, 2 and above REFUSE with that reason code (R530). `wire`
says that a frame is on the wire or bus of the participant. -/
def State.answer (s : State) (tgt p : Nat) (wire : Bool) : Nat :=
  let delay := fun (b : Bool) => b2n b
  match p with
  | 0 => delay (s.thr.any (fun x => s.threadBusy x.1 x.2))
  | 1 => delay (decide (s.memc.wbuf ≠ []))
  | 2 => if (List.range 36).any (fun o => s.armed o) then 2 else 0
  | 3 => delay (s.fb Reg.BZ_CSTAT Reg.BZ_CSTAT_BUSY || s.fb Reg.BZ_HMSTAT Reg.BZ_HMSTAT_BUSY)
  | 4 => delay (s.land.any (fun x => x.2.isSome))
  | 5 => delay (decide (s.comm.job ≠ 0))
  | 6 => delay (s.comm.ethTx.isSome || wire)
  | 7 | 8 => delay wire
  | 9 => delay ((List.range 4).any (fun u => s.fb (Reg.UARTu_CTL u) Reg.UARTu_CTL_EN && !s.fb (Reg.UARTu_STAT u) Reg.UARTu_STAT_TXIDLE))
  | 10 => delay ((List.range 2).any (fun i => s.fb (Reg.SPIs_STAT i) Reg.SPIs_STAT_BUSY || s.fb (Reg.I2Cc_STAT i) Reg.I2Cc_STAT_BUSY))
  | 11 => if s.fb Reg.USB_STAT Reg.USB_STAT_ATT && !s.fb Reg.USB_STAT Reg.USB_STAT_SUSP then 3 else 0
  | 12 => delay (s.fb Reg.XSPI_STAT Reg.XSPI_STAT_BUSY)
  | 13 => delay (decide (s.chn.wr ≠ []) || decide (s.chn.rd ≠ []) || decide (s.chn.phase ≠ 0))
  | 14 =>
    if (decide (tgt = 2) && !(List.range 8).any (fun e => s.patValid e)) ||
       (decide (2 ≤ tgt) && !(List.range 9).any (fun b => s.wakeEn b)) then 4 else 0
  | 15 => if s.saveValid = false then 4 else delay (domains.any (fun d => s.fb (Reg.PWR_PLn d) Reg.PWR_PLn_BUSY))
  | _ => 0

/-- Participant `p` has answered OK, or a forced entry goes on without it. -/
def State.voted (s : State) (p : Nat) : Bool := s.fb Reg.PWR_PSVOTE (bitF p) || s.pwr.past.getLsbD p

/-! ### The entry -/

/-- An entry to state `tgt` starts (R527, R533): the participants are asked. -/
def State.entryStart (s : State) (tgt : Nat) (forced : Bool) : State :=
  let a := Reg.PWR_PSSTAT
  let s := ((s.sf a Reg.PWR_PSSTAT_BUSY 1).sf a Reg.PWR_PSSTAT_PHASE 1).sf a Reg.PWR_PSSTAT_RESULT 0
  let s := (s.sf a Reg.PWR_PSSTAT_ID 0).sf a Reg.PWR_PSSTAT_REASON 0
  let s := (s.wr Reg.PWR_PSVOTE 0).wr Reg.PWR_PSDLY 0
  { s with pwr := { s.pwr with tgt := tgt, forced := forced, past := 0, wake := false } }

/-- The entry in progress ends without a change of state (R530): refused by participant `id`, or aborted. -/
def State.entryEnd (s : State) (refused : Bool) (id reason : Nat) : State :=
  let a := Reg.PWR_PSSTAT
  let t := s.pwr.tgt - 1
  let s := ((s.sf a Reg.PWR_PSSTAT_BUSY 0).sf a Reg.PWR_PSSTAT_PHASE 0).sf a Reg.PWR_PSSTAT_RESULT (if refused then 2 else 3)
  let s := (s.sf a Reg.PWR_PSSTAT_ID id).sf a Reg.PWR_PSSTAT_REASON reason
  let s := { s with pwr := { s.pwr with tgt := 0, forced := false, past := 0 } }
  if refused then
    let l := Reg.PWR_PSLASTs t
    let s := ((s.sf l Reg.PWR_PSLASTs_V 1).sf l Reg.PWR_PSLASTs_ID id).sf l Reg.PWR_PSLASTs_REASON reason
    (s.inc (Reg.PWR_PSRAs t) Reg.PWR_PSRAs_REF).raise 0x060
  else (s.inc (Reg.PWR_PSRAs t) Reg.PWR_PSRAs_ABT).raise 0x061

/-- A keeper's write to PWR_PSREQ (R527). -/
def State.psRequest (s : State) (v : Word) : State :=
  let t := getF v Reg.PWR_PSREQ_TGT
  if s.entering then (if t = 0 then (s.wr Reg.PWR_PSREQ 0).entryEnd false 0 0 else s)
  else
    let s := s.wr Reg.PWR_PSREQ (v &&& 0xC00000)
    if t ≠ 0 ∧ s.pwr.state = 0 then s.entryStart t false else s

/-- Step 5 of the ladder (R510, R533): a voluntary entry before its point of no return is aborted, and a forced entry to DORMANT starts;
in PATROL the sequencer stops and the state becomes DORMANT. -/
def State.step5 (s : State) : State :=
  if s.pwr.state = 3 ∨ (s.entering ∧ s.pwr.forced) then s
  else if s.pwr.state = 2 then { s with pwr := { s.pwr with state := 3, forced := true } }
  else
    let s := if s.entering then s.entryEnd false 0 7 else s
    (s.incW Reg.PWR_FORCECNT).entryStart 3 true

/-- Step 5 is entered when the filtered VIN is below 6.0 V and the hold-up is exhausted, both together (R510). -/
def State.step5Check (s : State) : State :=
  if s.pwr.vinLow ∧ s.fb Reg.HOLD_STAT Reg.HOLD_STAT_EXH then s.step5 else s

/-- Participant `p` answers (R528, R529). A refusal ends the entry with the lowest refusing participant (R549); a forced entry passes over
it (R533). -/
def State.answerOp (s : State) (p : Nat) (wire : Bool) : State :=
  if s.entering = false ∨ s.voted p then s
  else match s.answer s.pwr.tgt p wire with
    | 0 => s.sf Reg.PWR_PSVOTE (bitF p) 1
    | 1 => s.sf Reg.PWR_PSDLY (bitF p) 1
    | _ =>
      if s.pwr.forced then { s with pwr := { s.pwr with past := s.pwr.past ||| BitVec.ofNat 16 (2 ^ p) } }
      else match (List.range 16).find? (fun q => !s.voted q && decide (2 ≤ s.answer s.pwr.tgt q false)) with
        | some q => s.entryEnd true q (s.answer s.pwr.tgt q false)
        | none => s

/-- Participants still in DELAY are taken as refusing with TIMEOUT, the lowest one recorded; a forced entry, which honours a delay for
200 µs, goes on without them (R529, R533). -/
def State.answerTimeout (s : State) : State :=
  let late := (List.range 16).filter (fun p => s.fb Reg.PWR_PSDLY (bitF p) && !s.voted p)
  if s.entering = false then s
  else match late with
    | [] => s
    | p :: _ =>
      if s.pwr.forced then
        { s with pwr := { s.pwr with past := late.foldl (fun b q => b ||| BitVec.ofNat 16 (2 ^ q)) s.pwr.past } }
      else s.entryEnd true p 5

/-! ### The locket save -/

/-- The registers of the fixed list, in the order of R535, each with the bits saved. -/
def fixedList : List (Nat × Word) :=
  [(Reg.MEMC_MRPROT, 0xFFFFFF), (Reg.BZ_KGEN, 0x000001)] ++
  (List.range 8).flatMap (fun j =>
    (List.range 22).map (fun w => (Reg.BZ_KjKEYw j w, 0xFFFFFF)) ++ [(Reg.BZ_KjCTL j, 0xFFFFFF), (Reg.BZ_KjMINVER j, 0xFFFFFF)]) ++
  [(Reg.REF_TBCTL, 0xFFFFFF), (Reg.REF_TBSTAT, 0xFFC0FF), (Reg.REF_AWUCAL, 0xFFFFFF), (Reg.REF_BGCTL, 0xFFFFFF),
   (Reg.REF_BGSTAT, 0xFFFFFF), (Reg.TIME_SLEWCFG, 0xFFFFFF), (Reg.CHN_STAT, 0x0203E0), (Reg.CHN_TCTL, 0xFFFFFF),
   (Reg.SYS_WDCTL, 0xFFFFFF), (Reg.SYS_SVC, 0x000001), (Reg.SYS_DBG, 0xC00000), (Reg.SYS_KRESUME, 0xFFFFFF),
   (Reg.SYS_BOOTSTAT, 0xFFFFFF)]

/-- First address of the save area (R534). -/
abbrev saveBase : Nat := 0x813C00

/-- Words are written from an address on. -/
def State.putWords (s : State) (a : Nat) : List Word → State
  | [] => s
  | w :: r => (s.memWrite a w).putWords (a + 1) r

/-- The keeper words as saved (R536): an uncorrectable one is blank and sets SAVERR. -/
def State.saveRead (s : State) (src : Nat) : List Nat → State × List Word
  | [] => (s, [])
  | a :: r =>
    let (s, x) := s.memRead a (src % 8) (src / 8 % 128)
    let (s, l) := s.saveRead src r
    match x with
    | some w => (s, w :: l)
    | none => (s.sf Reg.PWR_PSSTAT Reg.PWR_PSSTAT_SAVERR 1, blank :: l)

/-- The save of an entry to PATROL or DORMANT (R534–R536), the marker last. -/
def State.save (s : State) : State :=
  let (s, f) := s.draw
  let (s, ks) := if s.saveValid then s.saveRead f.toNat s.saveAddrs else (s, [])
  let fl := fixedList.map (fun x => s.rd x.1 &&& x.2)
  let hd : List Word :=
    [w24 (s.pwr.tgt * 2 ^ 22 + b2n s.pwr.forced * 2 ^ 21), pairLo s.time.dt, pairHi s.time.dt, s.time.dtx,
     w24 (ks.length * 256 + fl.length)] ++ List.replicate 10 0
  let s := s.putWords (saveBase + 1) hd
  let s := s.putWords (saveBase + 0x10) fl
  let s := s.putWords (saveBase + 0x100) ks
  s.memWrite saveBase 0x534156

/-- One save-area word is read back (R537): none and RSTERR where it is uncorrectable. -/
def State.saveGet (s : State) (src a : Nat) : State × Option Word :=
  match s.memRead a (src % 8) (src / 8 % 128) with
  | (s, some w) => (s, some w)
  | (s, none) => (s.sf Reg.PWR_PSSTAT Reg.PWR_PSSTAT_RSTERR 1, none)

/-- The restore of R537: every fixed-list word to its register, every keeper word to its address, and the marker is cleared. -/
def State.unsave (s : State) : State :=
  let (s, f) := s.draw
  let s : State := (fixedList.zipIdx).foldl (fun s x =>
    match s.saveGet f.toNat (saveBase + 0x10 + x.2) with
    | (s, some w) => s.wr x.1.1 ((s.rd x.1.1 &&& ~~~ x.1.2) ||| (w &&& x.1.2))
    | (s, none) => s) s
  let ks := if s.saveValid then s.saveAddrs else []
  let s : State := (ks.zipIdx).foldl (fun s x =>
    match s.saveGet f.toNat (saveBase + 0x100 + x.2) with
    | (s, some w) => s.memWrite x.1 w
    | (s, none) => s) s
  s.memWrite saveBase 0

/-! ### The point of no return -/

/-- The fabric die loses its supply (R523, R526): every memory but locket and MRAM is lost, every block is as after reset; MRAM writes not yet
made follow R204. What R583 keeps over a fabric restart stays, and the TIME block holds (R422, log entry 41). -/
def State.fabricDown (s : State) : State :=
  let o := s.mrLost [] s.memc.wbuf
  let keep := fun (a : Nat) => fuseReg a || aonKept a || decide (a = Reg.SYS_RCAUSE ∨ a = Reg.SYS_STRAP) ||
    decide (0xF05000 ≤ a ∧ a < 0xF06000)
  let s := o.blocksReset keep (fun a => decide (region a = .mram) || decide (region a = .locket))
  let s := { s with
    thr := []
    time := { o.time with locked := false }
    lp := { o.lp with freeze := false } }
  let s := s.sf Reg.SYS_SVC Reg.SYS_SVC_STRAP (o.fl Reg.SYS_SVC Reg.SYS_SVC_STRAP)
  let s := (s.sf Reg.SYS_DBG Reg.SYS_DBG_LSTATE (o.fl Reg.SYS_DBG Reg.SYS_DBG_LSTATE)).sf Reg.SYS_DBG Reg.SYS_DBG_LCID
    (o.fl Reg.SYS_DBG Reg.SYS_DBG_LCID)
  s.roleReset

/-- Every participant has answered OK and still does; a forced entry needs each to have answered. -/
def State.allOk (s : State) : Bool :=
  (List.range 16).all (fun p => s.voted p && (s.pwr.forced || decide (s.answer s.pwr.tgt p false = 0)))

/-- Every bridge's gates are held off until a period boundary, since its island is gated (R610). -/
def State.gatesHeld (s : State) : State :=
  (List.range 4).foldl (fun s b => (s.setBr b { s.br b with vgHold := true }).brShow b) s

/-- Steps 3 to 5 of R531. -/
def State.noReturn (s : State) : State :=
  if s.entering = false ∨ s.allOk = false then s
  else
    let tgt := s.pwr.tgt
    let forced := s.pwr.forced
    let latched := s.pwr.wake
    let s := if 2 ≤ tgt then s.save.fabricDown
      else if (s.rd Reg.PWR_DOZECFG).getLsbD 4 then s
      else s.gatesHeld
    let a := Reg.PWR_PSSTAT
    let s := ((s.sf a Reg.PWR_PSSTAT_BUSY 0).sf a Reg.PWR_PSSTAT_PHASE 0).sf a Reg.PWR_PSSTAT_RESULT (if forced then 4 else 1)
    let s := s.incW (Reg.PWR_PSENTs (tgt - 1))
    let s := (s.sf Reg.AWU_WCAUSE Reg.AWU_WCAUSE_V (b2n latched)).sf Reg.AWU_WCAUSE Reg.AWU_WCAUSE_FIRST (if latched then 7 else 0)
    let s := { s with pwr := { s.pwr with state := tgt, tgt := 0, past := 0, visits := 0, visitN := 0 } }
    if tgt = 1 then s.vcoreSet else s

/-! ### Wakes and returns -/

/-- Wake source `b` occurs (R532, R540): before the point of no return it aborts the entry, but VIN returning in a forced entry, which is
latched (R519, R549); after it, it is latched in AWU_WCAUSE. -/
def State.wakeSrc (s : State) (b : Nat) : State :=
  if s.wakeEn b = false ∨ (b = 6 ∧ s.pwr.state ≠ 2) ∨ (b = 9 ∧ s.pwr.state ≠ 1 ∧ s.entering = false) then s
  else
    let s := s.wr Reg.AWU_WCAUSE (s.rd Reg.AWU_WCAUSE ||| w24 (2 ^ b))
    if s.pwr.state ≠ 0 then
      let a := Reg.AWU_WCAUSE
      let s := if s.fb a Reg.AWU_WCAUSE_V then s else (s.sf a Reg.AWU_WCAUSE_V 1).sf a Reg.AWU_WCAUSE_FIRST b
      { s with pwr := { s.pwr with wake := true } }
    else if s.entering then
      (if s.pwr.forced ∧ b = 7 then { s with pwr := { s.pwr with wake := true } } else s.entryEnd false 0 6)
    else s

/-- A wake burst on port `p` where its link is down (R542). -/
def State.wakeBurst (s : State) (p : Nat) : State :=
  if s.linked p then s else s.setPort p { s.port p with bursts := (s.port p).bursts + 1 }

/-- After a return that the upstream port began, a worker with RELAY sends the burst on its other port (R542). -/
def State.wakeRelay (s : State) (first : Nat) : State :=
  if s.isManager = false ∧ s.fb Reg.AWU_CFG Reg.AWU_CFG_RELAY ∧ first = 3 + s.upPort then s.wakeBurst (1 - s.upPort) else s

/-- The return from DOZE (R538): the islands' clocks run again and take what waits in their queues (R288); the deadline watches are reloaded
(R563), and the watchdog counts anew (R586). -/
def State.dozeReturn (s : State) : State :=
  if s.pwr.state = 1 ∧ s.pwr.wake then
    let s : State := (List.range 6).foldl (fun s q => if s.islandRuns (queueIsland (64 + q)) then s.fqDrain (64 + q) else s)
      { s with pwr := { s.pwr with state := 0, wake := false } }
    let s : State := s.armedPairs.foldl (fun s n => s.ckLoad n) s
    (({ s with sys := { s.sys with warned := false } }.planUpdate).raise 0x062).wakeRelay (s.fl Reg.AWU_WCAUSE Reg.AWU_WCAUSE_FIRST)
  else s

/-- Device time after PATROL or DORMANT, `n` AWU cycles after the entry (R423). -/
def State.timeRestore (s : State) (n : Nat) : State :=
  let d := s.time.dt.toNat
  let now := max (d + n * (s.rd Reg.REF_AWUCAL).toNat / 256) (d + 1)
  let s := { s with time := { s.time with
    dt := BitVec.ofNat 48 now, dtx := s.time.dtx + w24 (now / 2 ^ 48), locked := true, valid := false, part := true, tbctl := s.rd Reg.REF_TBCTL } }
  (s.sf Reg.TIME_STAT Reg.TIME_STAT_LOCK 1).sf Reg.TIME_STAT Reg.TIME_STAT_RESTF 1

/-- The return from PATROL or DORMANT (R539, R590), `n` AWU cycles after the entry; `srcOk` says that TPLL locks to the source selected at
entry, else it locks to IOSC and that source becomes ABSENT. -/
def State.fabricUp (s : State) (n : Nat) (srcOk : Bool) (img : List Word) : State :=
  if s.pwr.state < 2 ∨ s.pwr.wake = false then s
  else
    let first := s.fl Reg.AWU_WCAUSE Reg.AWU_WCAUSE_FIRST
    let s := (s.wr Reg.AWU_NL (w24 n)).wr Reg.AWU_NH (w24 (n / 2 ^ 24))
    let s := { s with pwr := { s.pwr with state := 0, wake := false, forced := false } }
    let s := s.planSettle.unsave
    let sel := s.tbSel
    let s := s.timeRestore n
    let s := if srcOk ∨ sel = 2 then s
      else (((s.sf Reg.REF_TBSTAT Reg.REF_TBSTAT_SEL 2).sf Reg.REF_TBSTAT (stF sel) 3).raise 0x083).raise 0x082
    let s := s.tqShow.commShow
    let s := s.wr Reg.SYS_RCAUSE (setF (w24 (s.fl Reg.SYS_RCAUSE Reg.SYS_RCAUSE_RCNT)) Reg.SYS_RCAUSE_RESUME 1)
    let s := (s.recordLoad false).shedAgain
    ((s.setTh 0 Thread.boot).bootResume img).wakeRelay first

/-! ### Patrol -/

/-- The value of a patrol result (R546) and whether it carries OVR: a TYPE 0 ratio corrected, a TYPE 1 conductance scaled (R349). -/
def State.patValue (s : State) (e : Nat) (x : PatRes) : Int × Bool :=
  let g := (s.rd (Reg.AWU_PeGAIN e)).toNat
  if s.fb (Reg.AWU_PeCFG e) Reg.AWU_PeCFG_TYPE then
    let gfs := condGfs (s.fl (Reg.AWU_PeANA e) Reg.AWU_PeANA_RANGE)
    let v : Int := (x.v.toNat * 2 ^ 23 * g / (gfs * 2 ^ 22) : Nat)
    (satQ v, x.ovr || decide (gfs ≤ x.v.toNat ∨ satQ v ≠ v))
  else
    let r0 := (x.v.setWidth 24).toInt
    let r := if x.ovr then (if r0 < 0 then -0x7FFFFF else 0x7FFFFF) else satQ r0
    (satQ ((r - (s.rd (Reg.AWU_PeOFS e)).toInt) * g / 2 ^ 22), x.ovr)

/-- A patrol result is handled (R547); the flag says that RUN has reached WCNT. -/
def State.patResult (s : State) (e : Nat) (x : PatRes) : State × Bool :=
  let cfg := s.rd (Reg.AWU_PeCFG e)
  let st := Reg.AWU_PeSTAT e
  let (v, ovr) := s.patValue e x
  let op := x.op || (decide (getF cfg Reg.AWU_PeCFG_TYPE = 0) && decide (s.fl (Reg.AWU_PeANA e) Reg.AWU_PeANA_REFSEL = 1))
  let s := ((s.wr (Reg.AWU_PeLAST e) (i24 v)).sf st Reg.AWU_PeSTAT_OVR (b2n ovr)).sf st Reg.AWU_PeSTAT_OPEN (b2n op)
  let s := s.inc st Reg.AWU_PeSTAT_NRES
  let s := if ovr || op then s
    else
      let s := if v < (s.rd (Reg.AWU_PeMIN e)).toInt then s.wr (Reg.AWU_PeMIN e) (i24 v) else s
      if (s.rd (Reg.AWU_PeMAX e)).toInt < v then s.wr (Reg.AWU_PeMAX e) (i24 v) else s
  let breach := decide (v < (s.rd (Reg.AWU_PeWLO e)).toInt ∨ (s.rd (Reg.AWU_PeWHI e)).toInt < v) ||
    (decide (getF cfg Reg.AWU_PeCFG_FAULT = 1) && (ovr || op))
  if breach then
    let s := s.inc st Reg.AWU_PeSTAT_RUN
    if s.fl st Reg.AWU_PeSTAT_RUN = max 1 (getF cfg Reg.AWU_PeCFG_WCNT) then (s.sf st Reg.AWU_PeSTAT_BRF 1, true) else (s, false)
  else (s.sf st Reg.AWU_PeSTAT_RUN 0, false)

/-- The entries of a visit are served in order with the results given; where the results run out, a wake has abandoned the visit (R548).
The entry that has breached first is kept. -/
def State.patServe (s : State) (hit : Option Nat) : List Nat → List PatRes → State × Option Nat
  | e :: es, x :: xs =>
    let (s, b) := s.patResult e x
    s.patServe (match hit with | some h => some h | none => if b then some e else none) es xs
  | _, _ => (s, hit)

/-- The patrol period in AWU cycles (R544, R552). -/
def State.patPer (s : State) : Nat := min 1966080 (max 33 (s.rd Reg.AWU_PER).toNat)

/-- A patrol visit as the AWU count reaches `n`, a multiple of the period (R544, R547), or the skip of one; a skipped visit is not counted among
the visits (log entry 63). -/
def State.patVisit (s : State) (n : Nat) (skip : Bool) (rs : List PatRes) : State :=
  if s.pwr.state ≠ 2 ∨ n ≤ s.pwr.visitN ∨ n % s.patPer ≠ 0 then s
  else if skip then { s with pwr := { s.pwr with visitN := n } }.incW Reg.AWU_PSKIP
  else
    let k := s.pwr.visits + 1
    let s := ({ s with pwr := { s.pwr with visits := k, visitN := n } }).incW Reg.AWU_PVIS
    let due := (List.range 8).filter (fun e => s.patValid e && decide (k % (s.fl (Reg.AWU_PeCFG e) Reg.AWU_PeCFG_EVERY + 1) = 0))
    match s.patServe none due rs with
    | (s, some e) => (s.sf Reg.AWU_WCAUSE Reg.AWU_WCAUSE_PENT e).wakeSrc 6
    | (s, none) => s

/-! ### The I²C target -/

/-- The target's FIFO counts are shown. -/
def State.i2ctShow (s : State) (x : I2ctSt) : State :=
  let s := { s with comm := { s.comm with i2ct := x } }
  (s.sf Reg.I2CT_STAT Reg.I2CT_STAT_RXN x.rx.length).sf Reg.I2CT_STAT Reg.I2CT_STAT_TXN x.tx.length

/-- SCL is held, or released. -/
def State.i2ctHold (s : State) (b : Bool) : State := s.sf Reg.I2CT_STAT Reg.I2CT_STAT_STRETCH (b2n b)

/-- The target's address is received (R446); outside RUN with WAKE = 1 the match is acknowledged, SCL is held and the device wakes; with
WAKE = 0 it is not acknowledged (R447). -/
def State.i2ctMatch (s : State) (rd : Bool) : State :=
  if getF (s.an Reg.I2CT_CFG) Reg.I2CT_CFG_EN = 0 ∨ (s.pwr.state ≠ 0 ∧ s.wakeEn 2 = false) then s
  else
    let s := { s with comm := { s.comm with i2ct := { s.comm.i2ct with first := true, dead := false, held := none } } }
    let s := ((s.sf Reg.I2CT_STAT Reg.I2CT_STAT_ACTIVE 1).sf Reg.I2CT_STAT Reg.I2CT_STAT_RD (b2n rd)).raise 0x398
    if s.pwr.state = 0 then s.wakeSrc 2 else ((s.i2ctHold true).sf Reg.I2CT_STAT Reg.I2CT_STAT_WAKEF 1).wakeSrc 2

/-- A byte of a transfer to the target (R446): written into the RX FIFO, or taken from the TX FIFO; SCL is held where it cannot be. After a
stretch limit it is not served (R447). -/
def State.i2ctByte (s : State) (b : Nat) : State :=
  let x := s.comm.i2ct
  if s.fb Reg.I2CT_STAT Reg.I2CT_STAT_ACTIVE = false ∨ s.fb Reg.I2CT_STAT Reg.I2CT_STAT_STRETCH ∨ x.dead then s
  else if s.fb Reg.I2CT_STAT Reg.I2CT_STAT_RD then
    (match x.tx with
     | _ :: r => s.i2ctShow { x with tx := r }
     | [] => s.i2ctHold true)
  else
    let w := w24 (b2n x.first * 256 + b % 256)
    if x.rx.length < 8 then s.i2ctShow { x with rx := x.rx ++ [w], first := false }
    else ({ s with comm := { s.comm with i2ct := { x with held := some w, first := false } } }).i2ctHold true

/-- The STOP or repeated START that ends a transfer (R446). -/
def State.i2ctDone (s : State) : State :=
  if s.fb Reg.I2CT_STAT Reg.I2CT_STAT_ACTIVE then
    let s := { s with comm := { s.comm with i2ct := { s.comm.i2ct with held := none, dead := false } } }
    ((s.i2ctHold false).sf Reg.I2CT_STAT Reg.I2CT_STAT_ACTIVE 0).sf Reg.I2CT_STAT Reg.I2CT_STAT_RD 0 |>.raise 0x399
  else s

/-- A stretch reaches STRMAX (R447). -/
def State.i2ctStrto (s : State) : State :=
  if s.fb Reg.I2CT_STAT Reg.I2CT_STAT_STRETCH then
    let s := { s with comm := { s.comm with i2ct := { s.comm.i2ct with held := none, dead := true } } }
    ((s.i2ctHold false).sf Reg.I2CT_STAT Reg.I2CT_STAT_STRTOF 1).raise 0x39A
  else s

/-- A load from I2CT_PORT (R429, R446): a byte that waits enters the FIFO, and SCL is released. -/
def State.i2ctPop (s : State) : State × Word :=
  let x := s.comm.i2ct
  let rel := s.fb Reg.I2CT_STAT Reg.I2CT_STAT_RD = false
  let (rx, w) := match x.rx with | w :: r => (r, w) | [] => ([], blank)
  match x.held with
  | some h => if rx.length < 8 then ((s.i2ctShow { x with rx := rx ++ [h], held := none }).i2ctHold false, w)
              else (s.i2ctShow { x with rx := rx }, w)
  | none =>
    let s := s.i2ctShow { x with rx := rx }
    (if rel then s.i2ctHold false else s, w)

/-- A store to I2CT_PORT (R429, R446): a read transfer that waits for a byte goes on, and SCL is released. -/
def State.i2ctPush (s : State) (v : Word) : State :=
  let x := s.comm.i2ct
  if x.tx.length < 8 then
    let s := s.i2ctShow { x with tx := x.tx ++ [w24 (getF v Reg.I2CT_PORT_BYTE)] }
    if s.fb Reg.I2CT_STAT Reg.I2CT_STAT_RD then s.i2ctHold false else s
  else s.sf Reg.I2CT_STAT Reg.I2CT_STAT_TXOVF 1

/-! ### Commands -/

/-- R527. PWR_PSREQ TGT 1 starts an entry to DOZE. -/
def execDozeRequest (s : State) : Out := .next (s.psRequest 0x400000)

/-- R527. PWR_PSREQ TGT 2 starts an entry to PATROL. -/
def execPatrolRequest (s : State) : Out := .next (s.psRequest 0x800000)

/-- R527. PWR_PSREQ TGT 3 starts an entry to DORMANT. -/
def execDormantRequest (s : State) : Out := .next (s.psRequest 0xC00000)

/-- R530. PWR_PSREQ TGT 0 cancels an entry before the point of no return. -/
def execCancel (s : State) : Out := .next (s.psRequest 0)

/-- R529. A participant answers OK, DELAY or REFUSE; `wire`: a frame is on its wire or bus. -/
def execParticipantAnswer (p : Fin 16) (wire : Bool) (s : State) : Out := .next (s.answerOp p wire)

/-- R529. Participants still delaying after 1 ms are taken as refusing with TIMEOUT. -/
def execParticipantTimeout (s : State) : Out := .next s.answerTimeout

/-- R531. With all OK, the save is written and the device passes the point of no return into the state. -/
def execPointOfNoReturn (s : State) : Out := .next s.noReturn

/-- R540. An enabled wake source aborts an entry or starts a return; bit 9 is a happening of R524. -/
def execAwuWake (b : Fin 10) (s : State) : Out := .next (if b = 9 ∧ s.happening = false then s else s.wakeSrc b)

/-- R538. The return from DOZE completes and held happenings take effect. -/
def execDozeReturn (s : State) : Out := .next s.dozeReturn

/-- R539. The return from PATROL or DORMANT powers the fabric, restores saves and DT and runs the ROM resume path. -/
def execFabricRestart (n : BitVec 48) (srcOk : Bool) (img : List (BitVec 24)) (s : State) : Out := .next (s.fabricUp n.toNat srcOk img)

/-- R541. An edge on WKUPn whose new level has held for `held` AWU cycles is a wake where EDGE selects it and FLT cycles have passed. -/
def execWakePin (n : Fin 2) (rising : Bool) (held : BitVec 8) (s : State) : Out :=
  let f := if n = 0 then Reg.AWU_WPIN_EDGE0 else Reg.AWU_WPIN_EDGE1
  .next (if (s.fl Reg.AWU_WPIN f).testBit (if rising then 0 else 1) ∧ max 1 (s.fl Reg.AWU_WPIN Reg.AWU_WPIN_FLT) ≤ held.toNat then s.wakeSrc n else s)

/-- R542. A swing after silence on a watched receive pair is a wake. -/
def execChadenWakeDetect (p : Fin 2) (s : State) : Out := .next (if s.pwr.state = 0 then s else s.wakeSrc (3 + p))

/-- R542. A write to PWR_LWAKE sends a wake burst on named down ports. -/
def execLwake (v : BitVec 24) (s : State) : Out :=
  .next (([0, 1].filter (fun p => (getF v Reg.PWR_LWAKE_PORT).testBit p)).foldl (fun s p => s.wakeBurst p) s)

/-- R543. The AWU count reaches AWU_ALM and wakes the device. -/
def execTimeAlarm (n : BitVec 48) (s : State) : Out :=
  let alm := (mkPair (s.rd Reg.AWU_ALML) (s.rd Reg.AWU_ALMH)).toNat
  .next (if s.pwr.state ≠ 0 ∧ alm ≠ 0 ∧ alm ≤ n.toNat then s.wakeSrc 5 else s)

/-- R544. As the AWU count `n` reaches a multiple of AWU_PER the sequencer measures its due entries, or skips where the last visit still runs;
`rs` are the results of the entries served, in order. -/
def execPatrolVisit (n : BitVec 48) (skip : Bool) (rs : List PatRes) (s : State) : Out := .next (s.patVisit n.toNat skip rs)

/-- R446. The I²C target's address is matched. -/
def execI2ctMatch (rd : Bool) (s : State) : Out := .next (s.i2ctMatch rd)

/-- R446. A byte is received from, or sent to, the I²C host. -/
def execI2ctByte (b : BitVec 8) (s : State) : Out := .next (s.i2ctByte b.toNat)

/-- R446. A STOP or repeated START ends the transfer to the target. -/
def execI2ctDone (s : State) : Out := .next s.i2ctDone

/-- R447. A stretch reaches STRMAX. -/
def execI2ctStrto (s : State) : Out := .next s.i2ctStrto

/-- R446. Software loads from or stores to I2CT_PORT; a load's word is kept in `rdata`. -/
def execI2ctPortAccess (store : Bool) (v : BitVec 24) (s : State) : Out :=
  .next (if store then s.i2ctPush v else withData s.i2ctPop)

end Sys2Proof.Machine
end

