-- ==== Sys2Proof/Machine/Supply.lean ====
section
/-!
DEFINITION. Supply, shedding and hold-up (R502–R520): the ladder, the hold-up switch, the charger, the energy estimates. Voltages are
in units of 10 mV, charge in µC, capacitance in µF, as the registers give them.
-/

namespace Sys2Proof.Machine

/-! ### The estimates -/

/-- 20,000 times the voltage estimate EV in µJ (R515). -/
def State.evU (s : State) : Nat :=
  let v := s.fl Reg.HOLD_VH Reg.HOLD_VH_VH
  (s.rd Reg.HOLD_CAP).toNat * (v * v - 360000)

/-- 2 × Ĉ times the charge estimate EQ in µJ (R515). -/
def State.eqU (s : State) : Nat :=
  let c := (s.rd Reg.HOLD_CAP).toNat
  let q := (s.rd Reg.HOLD_Q).toNat
  q * q - 36 * c * c

/-- E does not exceed `mj` (R515, R516); Ĉ is not 0. -/
def State.eAtMost (s : State) (mj : Nat) : Bool :=
  decide (s.evU ≤ mj * 20000000 ∨ s.eqU ≤ 2000 * (s.rd Reg.HOLD_CAP).toNat * mj)

/-- The hold-up is exhausted (R516). -/
def State.exhausted (s : State) : Bool :=
  decide (s.fl Reg.HOLD_VH Reg.HOLD_VH_VH ≤ 600) ||
  (decide (s.rd Reg.HOLD_CAP ≠ 0) && s.eAtMost (s.rd Reg.HOLD_RES).toNat)

/-! ### The charger and the switch -/

/-- The charge under way ends (R517): unless it is discarded, its rise of charge and voltage waits for the measurement. -/
def State.chgEnd (s : State) (keep : Bool) : State :=
  if s.fl Reg.HOLD_STAT Reg.HOLD_STAT_STATE = 1 then
    let q := s.fl Reg.HOLD_Q Reg.HOLD_Q_Q
    let v := s.fl Reg.HOLD_VH Reg.HOLD_VH_VH
    { s.sf Reg.HOLD_STAT Reg.HOLD_STAT_LIMP 0 with
      pwr := { s.pwr with chgDone := keep, chgQ := q - s.pwr.chgQ, chgV := v - s.pwr.chgV, chgMs := 0 } }
  else s

/-- The charge target VT (R513). -/
def State.chgTarget (s : State) : Nat :=
  min (50 * min 72 (max 20 (s.fl Reg.HOLD_CTL Reg.HOLD_CTL_VTGT))) (s.fl Reg.PWR_VIN Reg.PWR_VIN_VIN - 100)

/-- The charger may run (R509, R513, R520): EN, no step in force, the switch open, no overvoltage, no fault stop. -/
def State.chgMay (s : State) : Bool :=
  s.fb Reg.HOLD_CTL Reg.HOLD_CTL_EN && decide (s.fl Reg.PWR_SHSTAT Reg.PWR_SHSTAT_STEP = 0) && !s.pwr.ride &&
  !s.fb Reg.PWR_SHSTAT Reg.PWR_SHSTAT_VINHI && !s.pwr.chgStop

/-- The charger's state follows its conditions (R513): it starts where it may run, restarts 0.25 V below VT, and stops otherwise. A charge that
a step interrupts is discarded. -/
def State.chgUpdate (s : State) : State :=
  let st := s.fl Reg.HOLD_STAT Reg.HOLD_STAT_STATE
  let v := s.fl Reg.HOLD_VH Reg.HOLD_VH_VH
  let q := s.fl Reg.HOLD_Q Reg.HOLD_Q_Q
  if s.chgMay then
    if st = 0 ∨ (st = 2 ∧ v + 25 < s.chgTarget) then
      { s.sf Reg.HOLD_STAT Reg.HOLD_STAT_STATE 1 with pwr := { s.pwr with chgMs := 0, chgQ := q, chgV := v, chgV1 := v, chgDone := false } }
    else s
  else if st = 1 ∨ st = 2 then
    (s.chgEnd (decide (s.fl Reg.PWR_SHSTAT Reg.PWR_SHSTAT_STEP = 0) && !s.pwr.ride)).sf Reg.HOLD_STAT Reg.HOLD_STAT_STATE 0
  else s

/-- The hold-up switch closes (R509), where RTEN allows it and the hold-up is not exhausted. -/
def State.switchClose (s : State) : State :=
  if s.pwr.ride ∨ s.fb Reg.HOLD_CTL Reg.HOLD_CTL_RTEN = false ∨ s.fb Reg.HOLD_STAT Reg.HOLD_STAT_EXH ∨ s.exhausted then s
  else
    let s := s.chgEnd false
    let s := { s with pwr := { s.pwr with ride := true, rideMs := 0, restMs := 0 } }
    ((s.sf Reg.HOLD_STAT Reg.HOLD_STAT_STATE 3).inc Reg.HOLD_CNT Reg.HOLD_CNT_RT).raise 0x052

/-- The hold-up switch opens (R509); a charger that had stopped on a fault stays stopped (R513). -/
def State.switchOpen (s : State) : State :=
  if s.pwr.ride then
    let s := (s.sf Reg.HOLD_STAT Reg.HOLD_STAT_STATE (if s.pwr.chgStop then 4 else 0)).sf Reg.HOLD_STAT Reg.HOLD_STAT_RTMS (min s.pwr.rideMs 0xFFFF)
    (({ s with pwr := { s.pwr with ride := false } }).raise 0x053).chgUpdate
  else s

/-- A write to HOLD_CTL (R513): EN from 0 to 1 ends a fault stop. -/
def State.holdCtl (s : State) (v : Word) : State :=
  let was := s.fb Reg.HOLD_CTL Reg.HOLD_CTL_EN
  let s := s.wr Reg.HOLD_CTL (v &&& 0xC00F7F)
  let s := if was = false ∧ v.getLsbD 23 ∧ s.pwr.chgStop then
      let t := { s with pwr := { s.pwr with chgStop := false } }
      if s.pwr.ride then t else t.sf Reg.HOLD_STAT Reg.HOLD_STAT_STATE 0
    else s
  s.chgUpdate

/-! ### The ladder -/

/-- Step `k` is entered (R508): recorded, counted, raised; its actions reach the blocks that run (R519). -/
def State.stepEnter (s : State) (k : Nat) : State :=
  let s := (s.sf Reg.PWR_SHSTAT Reg.PWR_SHSTAT_STEP k).sf Reg.PWR_SHSTAT (bitF (17 + k)) 1
  let s := (s.incW (Reg.PWR_SHCNTk k)).raise (0x03F + k)
  let s := s.chgUpdate
  let s := if 2 ≤ s.pwr.state then s
    else match k with
      | 1 => (s.sf Reg.BZ_SHED Reg.BZ_SHED_ACT 1).waitSettleAll.planUpdate
      | 3 => (s.clShed 3).commShow
      | 4 => (s.clShed 4).mrMark
      | _ => s.clShed k
  if k = 4 then s.switchClose else s

/-- Step `k` is left (R511). -/
def State.stepLeave (s : State) (k : Nat) : State :=
  let s := s.sf Reg.PWR_SHSTAT Reg.PWR_SHSTAT_STEP (k - 1)
  let s := if k = 4 then s.switchOpen else s
  let s := if 2 ≤ s.pwr.state then s
    else match k with
      | 1 => (s.sf Reg.BZ_SHED Reg.BZ_SHED_ACT 0).waitSettleAll.planUpdate
      | 3 => (s.clUnshed 3).commShow
      | _ => s.clUnshed k
  if k = 1 then (s.raise 0x044).chgUpdate else s

/-- The steps in force follow the filtered VIN and FORCE (R507, R512): entered in rising order, left in falling order. -/
def State.ladder (s : State) : State :=
  let want := max s.pwr.vinStep (s.fl Reg.PWR_SHCFG Reg.PWR_SHCFG_FORCE)
  let now := s.fl Reg.PWR_SHSTAT Reg.PWR_SHSTAT_STEP
  let s : State := ([1, 2, 3, 4].filter (fun k => decide (now < k ∧ k ≤ want))).foldl (fun s k => s.stepEnter k) s
  ([4, 3, 2, 1].filter (fun k => decide (want < k ∧ k ≤ now))).foldl (fun s k => s.stepLeave k) s

/-- The filtered VIN falls below the threshold of step `k` (R507, R510). -/
def State.vinFall (s : State) (k : Nat) : State :=
  let s := ({ s with pwr := { s.pwr with vinStep := max s.pwr.vinStep (min k 4) } }).ladder
  if k = 5 then ({ s with pwr := { s.pwr with vinLow := true } }).step5Check else s

/-- The filtered VIN rises to the threshold of step `k` + 0.5 V (R507, R511); at 10.5 V it is wake source 7 (R540). -/
def State.vinRise (s : State) (k : Nat) : State :=
  let s := ({ s with pwr := { s.pwr with vinLow := false, vinStep := min s.pwr.vinStep (k - 1) } }).ladder
  if k = 1 then s.wakeSrc 7 else s

/-- A write to PWR_SHCFG (R505, R512). -/
def State.shedForce (s : State) (v : Word) : State := (s.wr Reg.PWR_SHCFG (v &&& 0x000037)).ladder.planUpdate

/-! ### The registers of the estimates -/

/-- A register takes a number; one that its 24 bits do not hold is a free value (log entry 33). -/
def State.wrNum (s : State) (a n : Nat) : State :=
  if n < 2 ^ 24 then s.wr a (w24 n)
  else
    let (s, f) := s.draw
    s.wr a f

/-- EQ, EV and E are reported in mJ, rounded down (R515); HOLD_LOW is raised where E falls below HOLD_LOWE. -/
def State.estimates (s : State) : State :=
  let c := (s.rd Reg.HOLD_CAP).toNat
  let ev := s.evU / 20000000
  let eq := if c = 0 then 0 else s.eqU / (2000 * c)
  let low := (s.rd Reg.HOLD_LOWE).toNat
  let was := (s.rd Reg.HOLD_E).toNat
  let s := ((s.wrNum Reg.HOLD_EQ eq).wrNum Reg.HOLD_EV ev).wrNum Reg.HOLD_E (min eq ev)
  s.raiseIf (decide (low ≠ 0 ∧ low ≤ was ∧ min eq ev < low)) 0x051

/-- The measurements of a millisecond (R514, R515): filtered VIN, VSYS and VHOLD in 10 mV, the bank current in 0.1 mA, the charge counted
since the last one in µC. -/
def State.holdMeasure (s : State) (vin vsys vh : Nat) (i dq : Int) : State :=
  let s := (s.sf Reg.PWR_VIN Reg.PWR_VIN_VIN vin).sf Reg.PWR_VSYS Reg.PWR_VSYS_VSYS vsys
  let s := s.sf Reg.PWR_VINMIN Reg.PWR_VINMIN_VIN (min (s.fl Reg.PWR_VINMIN Reg.PWR_VINMIN_VIN) vin)
  let s := (s.sf Reg.HOLD_VH Reg.HOLD_VH_VH vh).wr Reg.HOLD_I (i24 i)
  let q : Int := (s.rd Reg.HOLD_Q).toNat
  let s := s.wr Reg.HOLD_Q (i24 (max 0 (min 0xFFFFFF (q + dq))))
  let s := s.estimates
  let s := if s.exhausted then s else s.sf Reg.HOLD_STAT Reg.HOLD_STAT_EXH 0
  let s := s.chgUpdate
  let chg := decide (s.fl Reg.HOLD_STAT Reg.HOLD_STAT_STATE = 1)
  let p := s.pwr
  let again := decide (1000 ≤ p.chgMs + 1 ∧ p.chgV1 + 50 ≤ vh)
  let rest := !p.ride && !chg && decide (-20 < i ∧ i < 20)
  let s := { s with pwr := { p with
    rideMs := if p.ride then p.rideMs + 1 else p.rideMs
    chgMs := if chg then (if again then 0 else p.chgMs + 1) else 0
    chgV1 := if again then vh else p.chgV1
    restMs := if rest then p.restMs + 1 else 0 } }
  let s := s.sf Reg.HOLD_STAT Reg.HOLD_STAT_REST (b2n rest)
  s.sf Reg.HOLD_STAT Reg.HOLD_STAT_LIMP
    (b2n (chg && decide (5000 < max 1 (s.fl Reg.HOLD_CTL Reg.HOLD_CTL_ICHG) * (vin - vh))))

/-- A continuous charge of 2.0 V or more has ended: Ĉ is measured (R517). -/
def State.chgMeasure (s : State) : State :=
  if s.pwr.chgDone then
    let dq := s.pwr.chgQ
    let dv := s.pwr.chgV
    let s := { s with pwr := { s.pwr with chgDone := false, chgQ := 0, chgV := 0 } }
    if 200 ≤ dv then (s.wrNum Reg.HOLD_CMEAS (dq * 100 / dv)).sf Reg.HOLD_STAT Reg.HOLD_STAT_CMV 1 else s
  else s

/-- The estimates disagree so that the counter is re-based (R517): EQ ≤ HOLD_RES < EV, or |EQ − EV| > EV / 8. -/
def State.disagree (s : State) : Bool :=
  let c := (s.rd Reg.HOLD_CAP).toNat
  let r := (s.rd Reg.HOLD_RES).toNat
  let ev : Int := s.evU * c
  let eq : Int := s.eqU * 10000
  decide (c ≠ 0) &&
  (decide (s.eqU ≤ 2000 * c * r ∧ r * 20000000 < s.evU) || decide (ev < 8 * (eq - ev) ∨ ev < 8 * (ev - eq)))

/-- A re-base (R517, R519): after 10 s of rest, where the estimates disagree; a charge that awaits its measurement is measured first. -/
def State.rebase (s : State) : State :=
  if s.pwr.restMs < 10000 ∨ s.disagree = false then s
  else
    let s := s.chgMeasure
    let s := if s.fb Reg.HOLD_STAT Reg.HOLD_STAT_CMV then s.wr Reg.HOLD_CAP (s.rd Reg.HOLD_CMEAS) else s
    let q := min 0xFFFFFF ((s.rd Reg.HOLD_CAP).toNat * s.fl Reg.HOLD_VH Reg.HOLD_VH_VH / 100)
    let s := ((s.wr Reg.HOLD_RBOLD (s.rd Reg.HOLD_Q)).wr Reg.HOLD_RBNEW (w24 q)).wr Reg.HOLD_Q (w24 q)
    let s := { s with pwr := { s.pwr with restMs := 0 } }
    (s.inc Reg.HOLD_CNT Reg.HOLD_CNT_RB).raise 0x055

/-- A keeper's write to HOLD_Q (R519): the 10 s of rest restart. -/
def State.holdQ (s : State) (v : Word) : State := { s.wr Reg.HOLD_Q v with pwr := { s.pwr with restMs := 0 } }

/-- The hold-up becomes exhausted (R516, R509, R510). -/
def State.exhaust (s : State) : State :=
  if s.exhausted ∧ s.fb Reg.HOLD_STAT Reg.HOLD_STAT_EXH = false then
    ((s.sf Reg.HOLD_STAT Reg.HOLD_STAT_EXH 1).raise 0x054).switchOpen.step5Check
  else s

/-! ### Commands -/

/-- R508. Filtered VIN falls below the threshold of step k + 1 and the step's actions begin; the fifth is 6.0 V. -/
def execShedStepEnter (k : Fin 5) (s : State) : Out := .next (s.vinFall (k + 1))

/-- R511. Filtered VIN rises past the threshold of step k + 1 by 0.5 V and the step is left. -/
def execShedStepLeave (k : Fin 5) (s : State) : Out := .next (s.vinRise (k + 1))

/-- R512. A write to PWR_SHCFG.FORCE forces or releases steps 1–3. -/
def execShedForce (v : BitVec 24) (s : State) : Out := .next (s.shedForce v)

/-- R509. VSYS below 6.5 V for 1 µs closes the hold-up switch. -/
def execVsysCollapse (s : State) : Out := .next s.switchClose

/-- R516. Usable energy falls to HOLD_RES, opening the switch and possibly entering step 5. -/
def execHoldupExhausted (s : State) : Out := .next s.exhaust

/-- R520. Filtered VIN above 41.0 V stops the charger and raises PWR_VINHI. -/
def execVinHigh (s : State) : Out :=
  .next (if s.fb Reg.PWR_SHSTAT Reg.PWR_SHSTAT_VINHI then s
    else (((s.sf Reg.PWR_SHSTAT Reg.PWR_SHSTAT_VINHI 1).sf Reg.PWR_SHSTAT Reg.PWR_SHSTAT_VINHIF 1).raise 0x045).chgUpdate)

/-- R520. Filtered VIN falls below 40.5 V, VINHI clears and the charger may run again. -/
def execVinhiEnd (s : State) : Out := .next (s.sf Reg.PWR_SHSTAT Reg.PWR_SHSTAT_VINHI 0).chgUpdate

/-- R513. The hold-up bank reaches VT and HOLD_FULL is raised. -/
def execChargerFull (s : State) : Out :=
  .next (if s.fl Reg.HOLD_STAT Reg.HOLD_STAT_STATE = 1 then
      ((s.chgEnd true).sf Reg.HOLD_STAT Reg.HOLD_STAT_STATE 2).raise 0x050
    else s)

/-- R513. VHOLD rising under 0.5 V in 1 s of charging more than 1.0 V below VT stops the charger with FAULTF. -/
def execChargerFault (s : State) : Out :=
  .next (if s.fl Reg.HOLD_STAT Reg.HOLD_STAT_STATE = 1 ∧ s.fl Reg.HOLD_VH Reg.HOLD_VH_VH + 100 < s.chgTarget ∧ 1000 ≤ s.pwr.chgMs then
      let s := s.chgEnd false
      (({ s with pwr := { s.pwr with chgStop := true } }.sf Reg.HOLD_STAT Reg.HOLD_STAT_STATE 4).sf Reg.HOLD_STAT Reg.HOLD_STAT_FAULTF 1).raise 0x056
    else s)

/-- R515. Every 1 ms VHOLD, current and energy estimates are updated: filtered VIN, VSYS and VHOLD in 10 mV, the current in 0.1 mA, the charge
counted in µC. -/
def execHoldMeasure (vin vsys vh : BitVec 13) (i dq : BitVec 24) (s : State) : Out :=
  .next (s.holdMeasure vin.toNat vsys.toNat vh.toNat i.toInt dq.toInt)

/-- R517. After 10 s at rest with disagreeing estimates, Q is re-based. -/
def execHoldRebase (s : State) : Out := .next s.rebase

/-- R517. A continuous charge of 2 V or more ends and HOLD_CMEAS is set. -/
def execChargeMeasurement (s : State) : Out := .next s.chgMeasure

/-- R504. A regulator reaches its current limit and PWR_REGFLT is raised: 0 VAUX, 1 VCORE, 2 AVDD, 3 VAON. -/
def execRegulatorLimit (rail : Fin 4) (s : State) : Out := .next ((s.sf Reg.PWR_REGSTAT (bitF (23 - rail)) 1).raise 0x047)

end Sys2Proof.Machine
end

