-- ==== Sys2Proof/Machine/Device.lean ====
section
/-!
DEFINITION. Device registers as an accessor reaches them (R6–R10, R40–R43, R633): the word a load returns with its read side effect, the
effect of a store, and the accesses of threads to the device region, to the xSPI window and to the memories as they complete (R208).
-/

namespace Sys2Proof.Machine

/-! ### Blocks -/

/-- The clocked island in which the registers at address `a` lie (R25, R40, R634), numbered as in `eventIsland`; none for a block of the
spine, of an engine or of the always-on domain. -/
def regIsland (a : Nat) : Option Nat :=
  if a < 0xF04000 then none
  else if a < 0xF06000 then some 0
  else if a < 0xF10000 then none
  else if a < 0xF14000 then some 7
  else if a < 0xF18000 then some 0
  else if a < 0xF1C000 then some 6
  else if a < 0xF1D000 then some 0
  else if a < 0xF20000 then some 7
  else if a < 0xF24000 then some 5
  else if a < 0xF28000 then some 0
  else if a < 0xF30000 then none
  else if a < 0xF32000 then some 1
  else if a < 0xF36000 then some 2
  else if a < 0xF37000 then some 4
  else if a < 0xF38000 then some 2
  else if a < 0xF39000 then some 3
  else if a < 0xF3A000 then some 4
  else if a < 0xF3C000 then none
  else if a < 0xF40000 then some 8
  else if 0xF4F000 ≤ a ∧ a ≤ 0xF4FFFF then some 9
  else none

/-- The island of the registers at address `a` runs (R25, R28). `clk` says that the clock on the island's ball runs, where the island takes one:
TCK, and ETH_REFCLK with ETH_CTL.REFOUT 0. -/
def State.regRuns (s : State) (a : Nat) (clk : Bool) : Bool :=
  match regIsland a with
  | none => true
  | some i =>
    if i = 9 then clk
    else s.islandRuns i && (clk || decide (i ≠ 1) || s.fb Reg.ETH_CTL Reg.ETH_CTL_REFOUT)

/-- An access to address `a` crosses the register channel of the die link (R634): PWR, HOLD and AWU. -/
def crosses (a : Nat) : Bool := decide (0xF01000 ≤ a ∧ a ≤ 0xF02FFF) || decide (0xF07000 ≤ a ∧ a ≤ 0xF07FFF)

/-- The accessor is at keeper privilege. -/
def State.isKeeper (s : State) : Who → Bool
  | .thread k => (s.th k).bind.prv
  | _ => true

/-- The register at `a` may be loaded (R6, R633): a capsule loads none that holds a K field. -/
def State.mayLoad (s : State) (who : Who) (a : Nat) : Bool :=
  s.isKeeper who || (match regGroup a with | some g => decide (g.k = 0) | none => true)

/-- The register at `a` may be stored to (R6, R633): a capsule stores to none that holds a K or KRW field. -/
def State.mayStore (s : State) (who : Who) (a : Nat) : Bool :=
  s.isKeeper who || (match regGroup a with | some g => decide (g.k = 0 ∧ g.krw = 0) | none => true)

/-- The strand whose port lies at address `a`: each has two addresses (R289). -/
def strPort (a : Nat) : Option Nat := if 0xF42000 ≤ a ∧ a < 0xF42400 then some ((a - 0xF42000) / 2) else none

/-- The registers that act on a worker only: far side and time following (R501). -/
def workerReg (b : Nat) : Bool := decide (0xF3C006 ≤ b ∧ b ≤ 0xF3C009) || decide (0xF3C300 ≤ b ∧ b ≤ 0xF3C302)

/-- The registers that act on a manager only: windows, sequences and failures (R501). -/
def managerReg (b : Nat) : Bool :=
  decide (b = 0xF3C002 ∨ b = 0xF3C003 ∨ b = 0xF3C00A ∨ b = 0xF3C00B ∨ b = 0xF3C00D ∨ b = 0xF3C010) || decide (0xF3C108 ≤ b ∧ b ≤ 0xF3C202)

/-- The register group does not act on this device's role (R501). -/
def State.otherRole (s : State) (b : Nat) : Bool := if s.isManager then workerReg b else managerReg b

/-! ### Loads -/

/-- A word with its bits of type WO as 0. -/
def State.plainRead (s : State) (g : RegGroup) (a : Nat) : Word := s.rd a &&& ~~~ (w24 g.wo)

/-- ENG_TSTAT's code of thread `k` (R47): a thread that is held shows WAIT (R235), a thread in ROM code that runs READY (R82). -/
def State.threadCode (s : State) (k : Nat) : Nat :=
  let t := s.th k
  if t.mode = .off then 0
  else if t.mode = .stopping then 7
  else if t.halt ≠ 0 then 6
  else if s.holdOf k ≠ 0 then 2
  else match t.mode with
    | .event => 3
    | .time _ => 4
    | .drain | .fence => 5
    | .sync => 2
    | _ => if t.rom || s.readyNext k then 1 else 2

/-- ENG_TSTAT of engine `e`. -/
def State.tstatWord (s : State) (e : Nat) : Word :=
  w24 (s.threadCode (4 * e) + 8 * s.threadCode (4 * e + 1) + 64 * s.threadCode (4 * e + 2) + 512 * s.threadCode (4 * e + 3))

/-- ENG_LBSTAT of engine `e` (R82). -/
def State.lbstatWord (s : State) (e : Nat) : Word :=
  let b := (s.en e).lb
  let n := (b.ents.filter (fun p => p.2.isSome)).length
  w24 (n * 2 ^ 16 + b2n b.dis * 2 ^ 7 + (match b.owner with | some k => k % 4 | none => 0) * 2 ^ 4 + b2n b.owner.isSome)

/-- EVI_TtLVL of thread `k` (R189). -/
def State.lvlWord (s : State) (k : Nat) : Word :=
  let ls := (s.th k).levels
  let live := ls.find? (fun l => l.live)
  let top := match ls with
    | l :: _ => (if l.intr then l.src else 0) * 2 ^ 10 + b2n l.claimed * 2 ^ 9 + b2n l.scan * 2 ^ 8 + b2n l.intr * 2 ^ 7
    | [] => 0
  w24 (b2n live.isSome * 2 ^ 23 + (match live with | some l => l.prio | none => 0) * 2 ^ 16 + top + ls.length)

/-- The top entry's words, by offset from EVI_TtXPC; 0 while the level stack is empty (R166). -/
def Level.word (l : Level) : Nat → Word
  | 0 => l.xpc
  | 1 => l.xst
  | 2 => l.xtgt
  | 3 => l.xcause
  | _ => l.xaddr

/-- A load from the control and EVI block of an engine (R82, R189). -/
def State.engLoad (s : State) (who : Who) (g : RegGroup) (a : Nat) : State × Word :=
  let e := g.index a 0
  let k := 4 * e + g.index a 1
  let b := g.base
  if b = 0xF80000 then
    (s, w24 ((match who with | .thread k => k % 4 | _ => 0) * 2 ^ 8 + e))
  else if b = 0xF80002 then (s, s.tstatWord e)
  else if b = 0xF80004 then (s, s.lbstatWord e)
  else if b = 0xF80005 then (s, (s.en e).lb.bs)
  else if b = 0xF80006 then (s, (s.en e).lb.be)
  else if b = 0xF80020 then (s, (s.th k).rplReg)
  else if b = 0xF80402 then (s, 0)
  else if b = 0xF80403 then s.claimRead e who
  else if b = 0xF80423 then (s, s.lvlWord k)
  else if 0xF80424 ≤ b ∧ b ≤ 0xF80428 then
    (s, match (s.th k).levels with | l :: _ => l.word (b - 0xF80424) | [] => 0)
  else (s, s.plainRead g a)

/-- A load from the bezel (R237, R266). -/
def State.bzLoadReg (s : State) (who : Who) (g : RegGroup) (a : Nat) : Word :=
  let c := s.fl Reg.BZ_DSEL Reg.BZ_DSEL_CID
  let b := g.base
  if b = 0xF41007 then setF (s.rd a) Reg.BZ_SHED_FLOOR s.shedFloor
  else if b = 0xF41030 then w24 (min 0xFFFFFF ((s.cap c).rem / 64))
  else if b = 0xF41031 then w24 (min 0xFFFFFF ((s.cap c).last / 64))
  else if b = 0xF41032 then w24 (s.cap c).waitc
  else if b = 0xF41033 then w24 (s.boundThreads c)
  else if b = 0xF41034 then w24 (s.cap c).promo
  else if b = 0xF41040 then s.descWord c (g.index a 0)
  else if b = 0xF41200 then s.tbind (g.index a 0)
  else if b = 0xF41800 then (match who with | .thread k => s.selfId k | _ => 0x800000)
  else if b = 0xF41801 then (match who with | .thread k => s.selfRem k | _ => 0)
  else s.plainRead g a

/-- A load from the strand block other than a port (R289). -/
def State.strLoadReg (s : State) (g : RegGroup) (a : Nat) : Word :=
  let i := g.index a 0
  if g.base = 0xF42401 then s.strStat i
  else if g.base = 0xF42402 then setF (s.rd a) Reg.STR_sEP_EXP (s.strExp i)
  else if g.base = 0xF43401 then
    setF (s.plainRead g a) Reg.STR_BQqSTAT_OCC (if i < 64 then (s.bqGet i).length else (SMap.get [] s.act.fq i).length)
  else s.plainRead g a

/-- The time registers as an accessor sees them (R138, R405, R602); a match of this tick has been made (R421). -/
def State.timeLoadReg (s : State) (who : Who) (g : RegGroup) (a : Nat) : State × Word :=
  let s := if 0xF05100 ≤ a then s.tcSettle (g.index a 0) else s
  let t := s.time.dt.toNat - s.time.dt.toNat % s.granOf who
  if a = Reg.TIME_DTL then (s, w24 t)
  else if a = Reg.TIME_DTH then (s, w24 (t / 2 ^ 24))
  else if a = Reg.TIME_DTX then (s, s.time.dtx)
  else if a = Reg.TIME_STAT then (s, setF (s.rd a) Reg.TIME_STAT_FRZ (b2n s.frozen))
  else if g.base = 0xF05104 then s.capRead who (g.index a 0)
  else (s, s.plainRead g a)

/-- A load from a communication block (R429, R446, R448, R451, R456): ports pop; while the flash is busy its buffer reads 0 and GO reads 1. -/
def State.commLoadReg (s : State) (g : RegGroup) (a : Nat) : State × Word :=
  let i := g.index a 0
  let b := g.base
  if b = 0xF32004 then s.canPop i
  else if b = 0xF34002 then s.uartPop i
  else if b = 0xF36001 then s.spiPop i
  else if b = 0xF37001 then s.i2cPop i
  else if b = 0xF37801 then s.i2ctPop
  else if b = 0xF39002 then (s, setF (s.rd a) (bitF 23) (s.fl Reg.XSPI_STAT Reg.XSPI_STAT_BUSY))
  else if b = 0xF39040 then (s, if s.fb Reg.XSPI_STAT Reg.XSPI_STAT_BUSY then 0 else s.rd a)
  else if b = 0xF3B000 then s.rngPop
  else (s, s.plainRead g a)

/-- A load from the link's registers (R484, R488, R501). -/
def State.chnLoadReg (s : State) (who : Who) (g : RegGroup) (a : Nat) : Word :=
  if s.otherRole g.base then (if g.base = 0xF3C006 then 0 else regReset a)
  else if g.base = 0xF3C002 then (match who with | .thread k => SMap.get 0 s.chn.last k | _ => 0)
  else if g.base = 0xF3C003 then (match who with | .thread k => w24 (SMap.get 0 s.chn.dval k) | _ => 0)
  else s.plainRead g a

/-- The word a load from the device register at `a` returns, and its read side effect; an offset that no chapter defines reads 0 (R41). The
port of a strand is not among them (`State.devLoad`). -/
def State.loadReg (s : State) (who : Who) (a : Nat) : State × Word :=
  match regGroup a with
  | none => (s, 0)
  | some g =>
    if 0xF80000 ≤ a then s.engLoad who g a
    else if 0xF4F000 ≤ a then (s, s.plainRead g a)
    else if 0xF42000 ≤ a then (s, s.strLoadReg g a)
    else if 0xF41000 ≤ a then (s, s.bzLoadReg who g a)
    else if 0xF40000 ≤ a then
      (s, if a = Reg.MEMC_FLOOR then w24 (s.planLevel 8 * 2 ^ 21 + memFloor (s.planLevel 8))
          else if a = Reg.MEMC_RLIM then w24 (admLimit (s.planLevel 8))
          else if a = Reg.MEMC_RENT then s.rentWord
          else s.plainRead g a)
    else if 0xF3C000 ≤ a then (s, s.chnLoadReg who g a)
    else if 0xF30000 ≤ a then s.commLoadReg g a
    else if g.base = 0xF28102 then (s, s.clStat (g.index a 0))
    else if g.base = 0xF28103 then (s, w24 (min 0xFFFFFF (s.eInt (g.index a 0))))
    else if 0xF05000 ≤ a ∧ a < 0xF06000 then s.timeLoadReg who g a
    else (s, s.plainRead g a)

/-! ### Stores -/

/-- The bits of a register that its index leaves reserved or without effect (R189, R289): sources 64 to 71 of a mask, the route of sources 0
to 7, EN of a from-fabric queue. -/
def RegGroup.lim (g : RegGroup) (a : Nat) : Word :=
  if (g.base = 0xF8040C ∨ g.base = 0xF80410) ∧ g.index a 1 = 2 then 0x00FFFF
  else if g.base = 0xF80480 ∧ g.index a 1 < 8 then 0xFFF800
  else if g.base = 0xF43400 ∧ 64 ≤ g.index a 0 then 0x7FFFFF
  else 0xFFFFFF

/-- All fields of a register are written in one access (R6–R8): RW, KRW, K and RWS fields take the written bits, a W1C bit is cleared by 1,
RO and reserved bits are left. -/
def State.plainWrite (s : State) (g : RegGroup) (a : Nat) (v : Word) : State :=
  let m := w24 (g.rw ||| g.krw ||| g.k ||| g.rws) &&& g.lim a
  let c := w24 g.w1c &&& v
  s.wr a ((s.rd a &&& ~~~m &&& ~~~c) ||| (v &&& m))

/-- A write to a register with RWS fields (R6, R141): it reads back at once, and takes effect at the thread's next sync or entry, or at once
where no thread makes it. -/
def State.rwsWrite (s : State) (who : Who) (g : RegGroup) (a : Nat) (v : Word) : State :=
  let s := s.plainWrite g a v
  match who with
  | .thread k => s.mapTh k (fun t => { t with rws := t.rws ++ [(a, v &&& w24 g.rws)] })
  | _ => s.rwsApply [(a, v &&& w24 g.rws)]

/-- A write to a register of the top entry (R166). -/
def Level.put (l : Level) (i : Nat) (v : Word) : Level :=
  match i with
  | 0 => { l with xpc := v }
  | 1 => { l with xst := v }
  | 2 => { l with xtgt := v }
  | 3 => { l with xcause := v &&& 0x00FFDF }
  | _ => { l with xaddr := v }

/-- A store to the control and EVI block of an engine (R82, R189). -/
def State.engStore (s : State) (who : Who) (g : RegGroup) (a : Nat) (v : Word) : State :=
  let e := g.index a 0
  let k := 4 * e + g.index a 1
  let b := g.base
  if b = 0xF80001 then s.tctlWrite e v
  else if b = 0xF80003 then s.lbctlWrite e v
  else if b = 0xF80400 ∨ b = 0xF80422 then s.rwsWrite who g a v
  else if b = 0xF80401 then
    let s := if v.getLsbD 1 then s.sf a Reg.EVI_HOLD_TO 0 else s
    if v.getLsbD 0 then s.sf a Reg.EVI_HOLD_HOLD 1 else s.holdRelease e
  else if b = 0xF80402 then s.eoiWrite e who v
  else if b = 0xF80410 then s.pendWrite e (g.index a 1) v
  else if 0xF80424 ≤ b ∧ b ≤ 0xF80428 then
    s.mapTh k (fun t => { t with levels := match t.levels with | l :: r => l.put (b - 0xF80424) v :: r | [] => [] })
  else s.plainWrite g a v

/-- A store to the bezel (R237, R241, R247, R261, R266). -/
def State.bzStore (s : State) (g : RegGroup) (a : Nat) (v : Word) : State :=
  let i := g.index a 0
  let b := g.base
  if b = 0xF41000 then s.bzCmd v
  else if b = 0xF41007 then (s.plainWrite g a v).waitSettleAll
  else if b = 0xF41021 then s.probe v
  else if b = 0xF41034 then s.mapCap (s.fl Reg.BZ_DSEL Reg.BZ_DSEL_CID) (fun c => { c with promo := v.toNat })
  else if b = 0xF41040 then s.descWrite (s.fl Reg.BZ_DSEL Reg.BZ_DSEL_CID) i v
  else if b = 0xF41400 then s.tstartWrite i v
  else if 0xF41600 ≤ b ∧ b ≤ 0xF41617 then (if s.fb (Reg.BZ_KjCTL i) Reg.BZ_KjCTL_LOCK then s else s.plainWrite g a v)
  else s.plainWrite g a v

/-- A store to the strand block other than a port (R270, R281, R284, R289). -/
def State.strStore (s : State) (g : RegGroup) (a : Nat) (v : Word) : State :=
  let i := g.index a 0
  if g.base = 0xF42400 then s.strConfig i v
  else if g.base = 0xF42402 then s.epWrite i v
  else if g.base = 0xF43202 then s.landCtl i v
  else s.plainWrite g a v

/-- A store to the link's registers (R475, R493, R501). -/
def State.chnStore (s : State) (g : RegGroup) (a : Nat) (v : Word) : State :=
  if s.otherRole g.base ∨ g.base = 0xF3C003 then s
  else
    let s := s.plainWrite g a v
    if g.base = 0xF3C000 ∧ v.getLsbD 21 then s.enumStart
    else if g.base = 0xF3C006 then s.tqShow
    else s

/-- What an ABORT meets on the bus is a free value where a register store makes it. -/
def State.canCmd (s : State) (c : Nat) (v : Word) : State :=
  let s := if v.getLsbD 17 then
      let (s, f) := s.draw
      s.canAbort c (f.getLsbD 0)
    else s
  if v.getLsbD 16 then s.canRecover c else s

/-- A store to a communication block (R429–R456). -/
def State.commStore (s : State) (g : RegGroup) (a : Nat) (v : Word) : State :=
  let i := g.index a 0
  let b := g.base
  let p := s.plainWrite g a v
  if b = 0xF30000 ∨ b = 0xF38000 then p.commShow
  else if b = 0xF30006 then (if v.getLsbD 20 then p.ethNext else p)
  else if b = 0xF30007 then
    let (s, f) := s.draw
    s.mdio v (f.toNat % 65536)
  else if b = 0xF32000 then p.commShow
  else if b = 0xF32004 then s.canPush i v
  else if b = 0xF32005 then p.canCmd i v
  else if b = 0xF34000 then
    let x := p.uart i
    p.setUart i { x with de := x.de || p.fb (Reg.UARTu_CTL i) Reg.UARTu_CTL_RS485 }
  else if b = 0xF34002 then s.uartPush i v
  else if b = 0xF36000 then p.setSpi i (p.spi i)
  else if b = 0xF36001 then s.spiPush i v
  else if b = 0xF36002 then (if v.getLsbD 19 then p.spiEnd i else p)
  else if b = 0xF37000 then p.setI2c i (p.i2c i)
  else if b = 0xF37001 then s.i2cPush i (getBits v 10 8) (getBits v 7 0)
  else if b = 0xF37800 then p.sf Reg.AWU_WEN (bitF 2) (getF v Reg.I2CT_CFG_WAKE)
  else if b = 0xF37801 then s.i2ctPush v
  else if b = 0xF38010 then s.usbEp i v
  else if b = 0xF38100 then (if s.fb (Reg.USB_EPeCFG i) Reg.USB_EPeCFG_RDY then s else p)
  else if b = 0xF39002 then s.xspiCmd v
  else if b = 0xF39040 then (if s.fb Reg.XSPI_STAT Reg.XSPI_STAT_BUSY then s else p)
  else if b = 0xF3A000 then s.cryptOp v
  else if b = 0xF3A010 then s.wr a v
  else p

/-- A store to the clasp (R361, R363, R374, R376, R378). -/
def State.claspStore (s : State) (g : RegGroup) (a : Nat) (v : Word) : State :=
  if a = Reg.CL_BANK then (if v.getLsbD 0 then s.sf Reg.CL_BANK Reg.CL_BANK_PEND 1 else s)
  else if a = Reg.CL_ARM0 then s.armWrite 0 v
  else if a = Reg.CL_ARM1 then s.armWrite 24 v
  else if a = Reg.CL_HOLD then s.holdWrite v
  else if a = Reg.CL_RLAT0 then s.latClear 0 v
  else if a = Reg.CL_RLAT1 then s.latClear 1 v
  else if g.base = 0xF28040 then s.inletWrite (g.index a 0) (s.plainWrite g a v)
  else if a = Reg.CL_KVAL then (s.wr a v).clCommand 0 (s.fl Reg.CL_KOUT Reg.CL_KOUT_OUT) v false
  else if g.base = 0xF2C000 then s.tabWrite (g.index a 0) v
  else s.plainWrite g a v

/-- A store to the drivers (R384–R396). -/
def State.driveStore (s : State) (g : RegGroup) (a : Nat) (v : Word) : State :=
  let i := g.index a 0
  let b := g.base
  let p := s.plainWrite g a v
  if b = 0xF20000 then s.brCtl v
  else if b = 0xF20001 then s.brSync v
  else if b = 0xF20040 ∨ b = 0xF20041 then p.brCfg i
  else if b = 0xF20045 then (if v.getLsbD 23 then p.brTripClear i else p)
  else if b = 0xF24000 then s.solCtl v
  else if b = 0xF26000 then s.ssrCtl v
  else if b = 0xF26010 then p.ssrShow i
  else p

/-- A store to the measurement blocks (R296–R349). -/
def State.measStore (s : State) (g : RegGroup) (a : Nat) (v : Word) : State :=
  let i := g.index a 0
  let b := g.base
  if b = 0xF10000 then s.precCtl v
  else if b = 0xF10001 then s.precSync v
  else if b = 0xF10004 then s.bexCtl v
  else if b = 0xF10040 then s.precRestart i false v
  else if b = 0xF10041 then s.precRestart i true v
  else if b = 0xF10048 then s.precWcfg i v
  else if b = 0xF1004A then (if v.getLsbD 0 then s.swapRequest i else s)
  else if b = 0xF10800 then s.breakpoint i (g.index a 1) (g.index a 2) v
  else if b = 0xF14000 ∨ b = 0xF14040 ∨ b = 0xF14041 then s.xingWrite a v
  else if b = 0xF18000 then s.sarCtl v
  else if b = 0xF18001 then s.sarSw v
  else if b = 0xF18080 then s.sarInCfg i v
  else if b = 0xF1C040 then s.pulseCfg i v
  else if b = 0xF1C041 then s.pulseHyg i v
  else if b = 0xF1D000 then s.condCfg i v
  else if b = 0xF1D002 then s.condHyg i v
  else s.plainWrite g a v

/-- The straps a reset that a register store makes samples: those of the last sampling (log entry 17). -/
def State.strapsNow (s : State) : BitVec 4 := BitVec.ofNat 4 (getBits (s.rd Reg.SYS_STRAP) 23 20)

/-- A store to SYS (R582, R586, R592, R593, R598, R605). -/
def State.sysStore (s : State) (g : RegGroup) (a : Nat) (v : Word) : State :=
  if a = Reg.SYS_RESET then s.keeperReset v s.strapsNow []
  else if a = Reg.SYS_WDCTL then (if s.fb Reg.SYS_WDCTL Reg.SYS_WDCTL_LOCK then s else s.plainWrite g a v)
  else if a = Reg.SYS_WDKICK then
    let (s, f) := s.draw
    s.wdKick v f.toNat s.strapsNow []
  else if a = Reg.SYS_DBG then
    let s := s.plainWrite g a v
    if v.getLsbD 21 then s.sf Reg.SYS_DBG Reg.SYS_DBG_LSTATE 0 else s
  else if a = Reg.SYS_FUSECMD then s.fuseCmd v
  else s.plainWrite g a v

/-- A store to the supply, hold-up, assay, fault, reference, time, router or wake registers. -/
def State.coreStore (s : State) (g : RegGroup) (a : Nat) (v : Word) : State :=
  let i := g.index a 0
  let b := g.base
  let p := s.plainWrite g a v
  if b = 0xF01003 then s.shedForce v
  else if b = 0xF01010 then s.planRequest i v
  else if b = 0xF01100 then s.psRequest v
  else if b = 0xF01111 then
    ([0, 1].filter (fun p => (getF v Reg.PWR_LWAKE_PORT).testBit p)).foldl (fun s p => s.wakeBurst p) s
  else if b = 0xF02000 then s.holdCtl v
  else if b = 0xF02004 then s.holdQ v
  else if b = 0xF03000 then (if v.getLsbD 22 ∧ s.pwr.state = 0 then p.asyStart else p)
  else if b = 0xF03100 then s.planWrite i (g.index a 1) v
  else if b = 0xF03402 then s.readmit (getF v Reg.FLT_READMIT_CLUSTER)
  else if b = 0xF03403 then s.fltTake v
  else if b = 0xF03500 then s.pairCtl i v
  else if b = 0xF04000 then s.tbCtl v
  else if b = 0xF04001 then s.tbWrite v
  else if b = 0xF04011 then s.bgWrite v
  else if b = 0xF05004 then s.slewAdd v.toInt
  else if b = 0xF05008 then s.gstart v
  else if b = 0xF05100 then s.tcCfg i v
  else if 0xF05101 ≤ b ∧ b ≤ 0xF05103 then (s.tcSettle i).plainWrite g a v
  else if b = 0xF05105 then (if v.getLsbD 18 ∧ s.fl (Reg.TCn_CFG i) Reg.TCn_CFG_CSEL = 21 then (p.tcSettle i).tcCapture i else p.tcSettle i)
  else if b = 0xF06002 then { s with ev := { s.ev with router := s.ev.router ++ [getF v Reg.EVR_FORCE_EVENT] } }
  else if 0xF07100 ≤ b ∧ b ≤ 0xF0710A ∧ s.entering then s
  else p

/-- The effect of a store of `v` to the device register at `a`, but for what the die link sends after it. -/
def State.storeBody (s : State) (who : Who) (a : Nat) (v : Word) : State :=
  match regGroup a with
  | none => s
  | some g =>
    if 0xF80000 ≤ a then s.engStore who g a v
    else if 0xF4F000 ≤ a then s.plainWrite g a v
    else if 0xF42000 ≤ a then s.strStore g a v
    else if 0xF41000 ≤ a then s.bzStore g a v
    else if 0xF40000 ≤ a then
      (if a = Reg.MEMC_RENT then
        (s.resvRequest (s.fl Reg.MEMC_RSEL Reg.MEMC_RSEL_CID) (getF v Reg.MEMC_RENT_RATE) (getF v Reg.MEMC_RENT_CLASS)).1
       else if a = Reg.MEMC_MRMARK then s.mrMark
       else s.plainWrite g a v)
    else if 0xF3C000 ≤ a then s.chnStore g a v
    else if 0xF30000 ≤ a then s.commStore g a v
    else if 0xF28000 ≤ a then s.claspStore g a v
    else if 0xF20000 ≤ a then s.driveStore g a v
    else if 0xF10000 ≤ a then s.measStore g a v
    else if 0xF01000 ≤ a then s.coreStore g a v
    else s.sysStore g a v

/-- The effect of a store of `v` to the device register at `a`. After it, a changed setting of a split block waits for its transfer to the
mixed-signal die (R634). -/
def State.storeReg (s : State) (who : Who) (a : Nat) (v : Word) : State :=
  s.sends a (s.storeBody who a v)

/-! ### Accesses -/

/-- What a load of the device region gives: data, a PERM of its first or second word, or that it waits (R279, R529). -/
inductive DevLd where
  | data (d0 d1 : Word)
  | perm (second : Bool)
  | wait
  deriving DecidableEq, Repr

/-- What a store to the device region gives: `half`, that the first of a pair's pushes has been made and the second waits (R271). -/
inductive DevSt where
  | ok
  | perm (second : Bool)
  | wait
  | half
  deriving DecidableEq, Repr

/-- A read of a strand port; `late`: the time a payload read may wait has passed (R279). -/
def State.popBy (s : State) (i : Nat) (late : Bool) : State × PopRes :=
  match s.pop i with
  | (t, .wait) => if late then (t.breakPacket i, .word blank) else (t, .wait)
  | r => r

/-- A load of one word, or of a pair in one access, from the device register region (R42, R101, R274, R275, R633). -/
def State.devLoad (s : State) (who : Who) (pair : Bool) (a a2 : Nat) (late : Bool) : State × DevLd :=
  if s.restAt a then (s, .wait)
  else match strPort a with
  | some i =>
    if s.strandOk who i 21 = false then (s.strandDeny who i, .perm false)
    else match s.popBy i late with
      | (_, .wait) => (s, .wait)
      | (t, .word w) =>
        if pair then
          match t.popBy i late with
          | (_, .wait) => (s, .wait)
          | (u, .word w2) => (u, .data w w2)
        else (t, .data w 0)
  | none =>
    if s.mayLoad who a = false then (s, .perm false)
    else if pair && !s.mayLoad who a2 then (s, .perm true)
    else
      let (s, w) := s.loadReg who a
      if pair then
        let (s, w2) := s.loadReg who a2
        (s, .data w w2)
      else (s, .data w 0)

/-- A push through a strand port (R271–R273); `late`: it has waited 2 µs. The flag says that it still waits. -/
def State.pushBy (s : State) (who : Who) (i : Nat) (v : Word) (late : Bool) : State × Bool :=
  match s.push i who.prod v (s.whoEpoch who) with
  | (t, .full) => if s.strCfg i Reg.STR_sCFG_FULLPOL = 1 ∧ late = false then (s, true) else (t.pushFull i, false)
  | (t, _) => (t, false)

/-- The push of a pair's second word through the port of strand `i`; while it waits no other producer's push comes between (R271). -/
def State.pushSecond (s : State) (who : Who) (i : Nat) (v : Word) (late : Bool) : State × DevSt :=
  match s.pushBy who i v late with
  | (t, true) => (t.mapStrand i (fun x => { x with mid := some who.prod }), .half)
  | (t, false) => ((t.mapStrand i (fun x => { x with mid := none })).lockEnd i, .ok)

/-- A store of one word, or of a pair in one access, to the device register region (R7, R42, R101, R271, R633); `half`: of a pair's pushes only
the second is left. -/
def State.devStore (s : State) (who : Who) (pair : Bool) (a a2 : Nat) (v v2 : Word) (late half : Bool) : State × DevSt :=
  if s.restAt a then (s, .wait)
  else match strPort a with
  | some i =>
    if half then s.pushSecond who i v2 late
    else if s.strandOk who i 22 = false then (s.strandDeny who i, .perm false)
    else match s.pushBy who i v late with
      | (_, true) => (s, .wait)
      | (t, false) => if pair then t.pushSecond who i v2 false else (t.lockEnd i, .ok)
  | none =>
    if s.mayStore who a = false then (s, .perm false)
    else if pair && !s.mayStore who a2 then (s, .perm true)
    else
      let s := s.storeReg who a v
      (if pair then s.storeReg who a2 v2 else s, .ok)

/-- The nesting depth at which an access was issued (R75). -/
def State.depthOf (s : State) (a : Access) : Nat :=
  match (s.th a.k).replay.find? (fun r => r.ac.id == a.id) with
  | some r => r.depth
  | none => (s.th a.k).depth

/-- The access is judged under the binding its thread had when it was issued, and acts on the levels the thread had then: an entry may have
abandoned it since (R75). -/
def State.boundAs {α : Type} (s : State) (a : Access) (f : State → State × α) : State × α :=
  let t := s.th a.k
  let n := t.depth - s.depthOf a
  if t.bind.prv = a.prv ∧ n = 0 then f s
  else
    let x := f (s.mapTh a.k (fun u => { u with bind := { u.bind with prv := a.prv, cid := a.cid }, levels := u.levels.drop n }))
    (x.1.mapTh a.k (fun u => { u with bind := { u.bind with prv := t.bind.prv, cid := t.bind.cid }, levels := t.levels.take n ++ u.levels }), x.2)

/-- The access names CHN_SEQ, whose load waits for older window stores (R484). -/
def Access.seqRead (a : Access) : Bool :=
  decide (a.kind = .load) && (decide (a.pa = Reg.CHN_SEQ) || (a.pair && decide (a.pa2 = Reg.CHN_SEQ)))

/-- The access stores to CHN_DRAIN (R488). -/
def Access.drainStore (a : Access) : Bool :=
  decide (a.kind = .store) && (decide (a.pa = Reg.CHN_DRAIN) || (a.pair && decide (a.pa2 = Reg.CHN_DRAIN)))

/-- An access to the device register region completes (R19, R28, R208, R558): `ok` says that a transfer over the register channel succeeds
within three attempts, `tck` that an external clock of the block's island runs, `late` that a wait at a strand port has run out. -/
def State.devComplete (s : State) (e : Nat) (a : Access) (ok tck late : Bool) : State :=
  let who := Who.thread a.k
  let pa := ownView who a.pa
  let pa2 := ownView who a.pa2
  if s.closed pa ∨ s.regRuns pa tck = false then s.accEnd e a (.fault .bus false)
  else if crosses pa && !ok then (s.dieLinkFault a.k (w24 pa)).accEnd e a (.fault .bus false)
  else if a.kind = .store then
    match s.boundAs a (fun s => s.devStore who a.pair pa pa2 a.d0 a.d1 late a.half) with
    | (t, .ok) =>
      let d := s.depthOf a
      let t := t.accEnd e a (.data 0 0)
      if a.drainStore && s.isManager then t.drainStart a.k d a.id else t
    | (t, .perm b) => t.accEnd e a (.fault .perm b)
    | (t, .half) =>
      t.mapEn e (fun x => { x with spine := x.spine.map (fun (b : Access) => if b.id = a.id then { b with half := true } else b) })
    | (_, .wait) => s
  else if a.seqRead && (s.older e a).any (fun b => decide (b.k = a.k ∧ b.kind = .store ∧ region b.pa = .chaden)) then s
  else
    match s.boundAs a (fun s => s.devLoad who a.pair pa pa2 late) with
    | (t, .data d0 d1) => t.accEnd e a (.data d0 d1)
    | (t, .perm b) => t.accEnd e a (.fault .perm b)
    | (_, .wait) => s

/-- The access at place `i` of engine `e`'s spine interface completes at its target. An access to a Chaden window or to the xSPI window is
completed by the commands of those units. -/
def State.complAt (s : State) (e i : Nat) (ok tck late : Bool) (p : Access → Bool) : State :=
  match s.spineAt e i with
  | none => s
  | some a =>
    if s.maySend e a = false ∨ s.quarantined (e / 16) ∨ p a = false then s
    else match region a.pa with
      | .chaden | .xspi => s
      | .dev => s.devComplete e a ok tck late
      | .never | .unmapped => s.accEnd e a (.fault .bus false)
      | _ => s.memComplete e a

/-- The access waits in a thread's replay entry (R75). -/
def State.replayed (s : State) (a : Access) : Bool := (s.th a.k).replay.any (fun r => r.ac.id == a.id && decide (r.out = .wait))

/-! ### Commands -/

/-- R7. A write to a device register that has no behaviour of its own writes all its fields in one indivisible access, judged under the access
types; a register with behaviour does what its own rule says. -/
def execRegisterWrite (who : Who) (a v : BitVec 24) (s : State) : Out :=
  let r := ownView who a.toNat
  .next (if region a.toNat ≠ .dev ∨ devExists a.toNat = false ∨ s.regRuns r true = false then s
    else (s.devStore who false r r v 0 false false).1)

/-- R634. After a write to a split block's register, the island sends each changed analog setting over the register channel, where it takes
effect on arrival. A transfer that fails its third attempt is a die-link fault and starts again. -/
def execAnalogSettingTransfer (a : BitVec 24) (ok : Bool) (s : State) : Out :=
  .next (if s.dl.xfer.contains a.toNat = false then s
    else if ok then
      { s with dl := { xfer := s.dl.xfer.filter (fun x => decide (x ≠ a.toNat))
                       held := SMap.set (regReset a.toNat) s.dl.held a.toNat (s.rd a.toNat) } }
    else s.dieLinkFault 0x1FF a)

/-- R29. A register access with no completion within 4 µs completes with BUS. -/
def execRegisterAccessTimeout (e : Fin 128) (i : Fin 4) (s : State) : Out :=
  .next (match s.spineAt e i with
    | none => s
    | some a => if region a.pa = .dev ∧ s.maySend e a then s.accEnd e a (.fault .bus false) else s)

/-- R208. A load, store, fetch or xchg sent through the spine completes at its target, delivering data or a fault and freeing its spine
request; `ok`: a die-link transfer succeeds (R19); `tck`: TCK or an ETH_REFCLK
from outside runs (R25). -/
def execAccessComplete (e : Fin 128) (i : Fin 4) (ok tck : Bool) (s : State) : Out :=
  .next (s.complAt e i ok tck false (fun _ => true))

/-- R75. The outcome of an abandoned, already-sent device-region access arrives and is stored in its replay entry. -/
def execReplayOutcomeArrival (e : Fin 128) (i : Fin 4) (ok tck : Bool) (s : State) : Out :=
  .next (s.complAt e i ok tck false (fun a => s.replayed a))

/-- The access at place `p` of engine `e`'s spine interface is one of kind `kind` at the port of strand `i`. -/
def State.atPort (s : State) (e p i : Nat) (kind : AccKind) : Bool :=
  match s.spineAt e p with
  | some a => decide (a.kind = kind) && decide (strPort a.pa = some i)
  | none => false

/-- R273. A push waiting 2 µs at a full strand is discarded and counted: the store at place `p` of engine `e`'s spine interface, or, where
none stands there, the oldest push that STRAND_PUSH left waiting. -/
def execStrandFullTimeout (i : Fin 512) (e : Fin 128) (p : Fin 4) (s : State) : Out :=
  .next (if s.atPort e p i .store then s.complAt e p true true true (fun _ => true)
    else match (s.strand i).waiting with
      | _ :: r => (s.mapStrand i (fun x => { x with waiting := r })).pushFull i
      | [] => s)

/-- R279. A payload read waiting TO × 125 ns returns blank and breaks the packet: the load at place `p` of engine `e`'s spine interface, or,
where none stands there, the read of STRAND_POP. -/
def execPayloadReadTimeout (i : Fin 512) (e : Fin 128) (p : Fin 4) (s : State) : Out :=
  .next (if s.atPort e p i .load then s.complAt e p true true true (fun _ => true)
    else match s.pop i with
      | (_, .wait) => { s.breakPacket i with rdata := blank }
      | _ => s)

/-- A read of the xSPI window meets a running, enabled and idle controller (R28, R450); one that meets it busy is counted (R451). -/
def State.xspiAsk (s : State) : State × Bool :=
  if s.islandRuns 4 = false ∨ s.fb Reg.XSPI_CTL Reg.XSPI_CTL_EN = false ∨ s.resting 12 then (s, false)
  else if s.fb Reg.XSPI_STAT Reg.XSPI_STAT_BUSY then
    (((s.inc Reg.XSPI_STAT Reg.XSPI_STAT_WBUSYCNT).sf Reg.XSPI_STAT Reg.XSPI_STAT_WBUSYF 1).raise 0x3A1, false)
  else (s, true)

/-- R450. A load from the xSPI window performs one flash read transaction, at the byte address of `State.windowTx`, to which the flash answers
the bytes `d0` and `d1`, or BUS when busy (R451), or while its island stands still or the controller is disabled. -/
def execXspiWindowRead (e : Fin 128) (i : Fin 4) (d0 d1 : BitVec 24) (s : State) : Out :=
  .next (match s.spineAt e i with
    | none => s
    | some a =>
      if region a.pa ≠ .xspi ∨ s.maySend e a = false ∨ s.quarantined (e / 16) ∨ s.resting 12 then s
      else match s.xspiAsk with
        | (s, true) => ({ s with comm := { s.comm with flash := some (s.windowTx a.pa a.pair) } }).accEnd e a (.data d0 d1)
        | (s, false) => s.accEnd e a (.fault .bus false))

/-- R488. A store to CHN_DRAIN puts the thread in DRAIN. -/
def execChnDrainStore (e : Fin 128) (i : Fin 4) (s : State) : Out :=
  .next (s.complAt e i true true false (fun a => a.drainStore))

/-- R484. A load of CHN_SEQ returns the thread's last posted sequence after older stores are accepted. -/
def execChnSeqRead (e : Fin 128) (i : Fin 4) (s : State) : Out :=
  .next (s.complAt e i true true false (fun a => a.seqRead))

/-- R488. A load of CHN_DRAIN returns the failures of the thread's last drain. -/
def execChnDrainRead (e : Fin 128) (i : Fin 4) (s : State) : Out :=
  .next (s.complAt e i true true false (fun a => decide (a.kind = .load) && decide (a.pa = Reg.CHN_DRAIN ∨ (a.pair ∧ a.pa2 = Reg.CHN_DRAIN))))

end Sys2Proof.Machine
end

