-- ==== Sys2Proof/Machine/Divide.lean ====
section
/-!
DEFINITION. Division (R131, R132).
-/

namespace Sys2Proof.Machine

/-- A division, major 0x38 (R131, R132): the divider runs to its end within the command (log entry 3). -/
def State.divOp (s : State) (k rd ra rb fn : Nat) (f : Ctx → Word → Word → Ctx) : State :=
  s.regOp (Iss.plain k (encR 0x38 rd ra rb fn) 1 [ra, rb] false) (fun c => f c (c.rdG ra) (c.rdG rb))

/-- div of R131 and R132. -/
def divS (a b : Word) : Word :=
  if b = 0 then (if 0 ≤ a.toInt then 0x7FFFFF else 0x800001) else i24 (a.toInt.tdiv b.toInt)

/-- rem of R131 and R132. -/
def remS (a b : Word) : Word := if b = 0 then a else i24 (a.toInt - b.toInt * a.toInt.tdiv b.toInt)

/-- divq of R131 and R132: the saturated quotient, SAT set when it is clamped or the divisor is 0. -/
def divQ (c : Ctx) (rd : Nat) (a b : Word) : Ctx :=
  if b = 0 then { c.wrG rd (if 0 ≤ a.toInt then 0x7FFFFF else 0x800001) with sat := true }
  else c.wrSat rd ((a.toInt * 2 ^ 23).tdiv b.toInt)

/-- R131. div divides signed integers on the 26-beat divider. -/
def execDiv (k : Fin 512) (rd ra rb : Fin 16) (s : State) : Out :=
  .next (s.divOp k rd ra rb 0x00 (fun c a b => c.wrG rd (divS a b)))

/-- R131. divu divides unsigned integers. -/
def execDivu (k : Fin 512) (rd ra rb : Fin 16) (s : State) : Out :=
  .next (s.divOp k rd ra rb 0x01 (fun c a b => c.wrG rd (if b = 0 then 0xFFFFFF else w24 (a.toNat / b.toNat))))

/-- R131. rem gives the signed remainder. -/
def execRem (k : Fin 512) (rd ra rb : Fin 16) (s : State) : Out :=
  .next (s.divOp k rd ra rb 0x02 (fun c a b => c.wrG rd (remS a b)))

/-- R131. remu gives the unsigned remainder. -/
def execRemu (k : Fin 512) (rd ra rb : Fin 16) (s : State) : Out :=
  .next (s.divOp k rd ra rb 0x03 (fun c a b => c.wrG rd (if b = 0 then a else w24 (a.toNat % b.toNat))))

/-- R131. divq gives the saturated Q23 quotient. -/
def execDivq (k : Fin 512) (rd ra rb : Fin 16) (s : State) : Out :=
  .next (s.divOp k rd ra rb 0x04 (fun c a b => divQ c rd a b))

end Sys2Proof.Machine
end

