-- ==== Sys2Proof/Machine/Far.lean ====
section
/-!
DEFINITION. Accesses of the accessors that are no thread, and a worker's far-side unit (R479–R485, R497): what a received WR or RD does, and
the acknowledgements it draws.
-/

namespace Sys2Proof.Machine

/-! ### Accesses from outside the engines -/

/-- What an access from outside the engines gives: data, a fault, a Chaden window, which the link serves, or that the MRAM write buffer has
no room yet (R202). -/
inductive OutRes where
  | data (d0 d1 : Word)
  | fault (c : Cause)
  | window
  | full
  deriving DecidableEq, Repr

/-- The fault an access to the one word at physical address `a` meets before it is made (R28, R38–R41, R206, R558). An accessor that is no
engine has no own-engine view. -/
def State.outFault (s : State) (kind : AccKind) (a : Nat) (tck : Bool) : Option Cause :=
  match s.addrFault kind a with
  | some c => some c
  | none => if (0xFFF000 ≤ a ∧ a ≤ 0xFFF7FF) ∨ s.closed a ∨ s.regRuns a tck = false then some .bus else none

/-- The same of an access to one word or to a pair. -/
def State.outCheck (s : State) (kind : AccKind) (pair : Bool) (a : Nat) (tck : Bool) : Option Cause :=
  match s.outFault kind a tck with
  | some c => some c
  | none => if pair then s.outFault kind (a + 1) tck else none

/-- A load by `who`, at keeper privilege, of one word or a pair at physical address `a`. `ok`: a transfer over the register channel succeeds
(R19); `tck`: TCK or an ETH_REFCLK from outside runs (R25). What a flash answers in the xSPI window is a free value. -/
def State.outLoad (s : State) (who : Who) (pair : Bool) (a : Nat) (ok tck : Bool) : State × OutRes :=
  match s.outCheck .load pair a tck with
  | some c => (s, .fault c)
  | none =>
    match region a with
    | .dev =>
      if crosses a && !ok then (s.dieLinkFault 0x1FF (w24 a), .fault .bus)
      else match s.devLoad who pair a (a + 1) true with
        | (t, .data d0 d1) => (t, .data d0 d1)
        | (t, .perm _) => (t, .fault .perm)
        | (t, .wait) => (t, .fault .bus)
    | .xspi =>
      (match s.xspiAsk with
       | (t, true) =>
         let (t, d0) := t.draw
         let (t, d1) := t.draw
         (t, .data d0 d1)
       | (t, false) => (t, .fault .bus))
    | .chaden => (s, .window)
    | _ =>
      match s.memRead a 5 0 with
      | (t, none) => (t, .fault .ecc)
      | (t, some w) =>
        if pair then
          match t.memRead (a + 1) 5 0 with
          | (u, none) => (u, .fault .ecc)
          | (u, some w2) => (u, .data w w2)
        else (t, .data w 0)

/-- The MRAM write buffer has no room for a store of one word or a pair at `a` (R202). -/
def State.mrHolds (s : State) (pair : Bool) (a : Nat) (v : Word) : Bool :=
  decide (region a = .mram) && (s.mrFull a || (pair && (s.memWrite a v).mrFull (a + 1)))

/-- A store by `who`, at keeper privilege, of one word or a pair at physical address `a`. At a full strand that waits, the 2 µs have passed when
the command comes (R272). -/
def State.outStore (s : State) (who : Who) (pair : Bool) (a : Nat) (v v2 : Word) (ok tck : Bool) : State × OutRes :=
  match s.outCheck .store pair a tck with
  | some c => (s, .fault c)
  | none =>
    match region a with
    | .dev =>
      if crosses a && !ok then (s.dieLinkFault 0x1FF (w24 a), .fault .bus)
      else match s.devStore who pair a (a + 1) v v2 true false with
        | (t, .ok) => (t, .data 0 0)
        | (t, .half) => ((t.devStore who pair a (a + 1) v v2 true true).1, .data 0 0)
        | (t, .perm _) => (t, .fault .perm)
        | (t, .wait) => (t, .fault .bus)
    | .chaden => (s, .window)
    | _ =>
      if s.mrHolds pair a v then (s, .full)
      else
        let t := s.memWrite a v
        (if pair then t.memWrite (a + 1) v2 else t, .data 0 0)

/-! ### The far side -/

/-- CHN_FRk admits a far-side access of capsule `cid` to every word of it (R479 step 2). -/
def State.farAllowed (s : State) (cid a : Nat) (pair write : Bool) : Bool :=
  let one := fun (a : Nat) =>
    if cid = 0 then decide (a < 0xF00000) || s.fb Reg.CHN_FCTL Reg.CHN_FCTL_KREG
    else (List.range 8).any (fun k =>
      s.fb (Reg.CHN_FRkCTL k) Reg.CHN_FRkCTL_V && decide (s.fl (Reg.CHN_FRkCTL k) Reg.CHN_FRkCTL_CID = cid) &&
      s.fb (Reg.CHN_FRkCTL k) (if write then Reg.CHN_FRkCTL_W else Reg.CHN_FRkCTL_R) &&
      decide (s.fl (Reg.CHN_FRkBASE k) Reg.CHN_FRkBASE_BASE ≤ a / 0x400 ∧ a / 0x400 ≤ s.fl (Reg.CHN_FRkLIM k) Reg.CHN_FRkLIM_LIM))
  one a && (!pair || one (a + 1))

/-- The first failure of R479 steps 1 to 3, by its cause of R486; 0 if none. `ue`: a buffered word is uncorrectable. -/
def State.farCheck (s : State) (cid a : Nat) (pair write ue : Bool) : Nat :=
  if s.fb Reg.CHN_FCTL Reg.CHN_FCTL_EN = false then 1
  else if s.farAllowed cid a pair write = false then 2
  else if ue then 4
  else 0

/-- The cause or status of a far-side access that faults (R479 step 4). -/
def farCode : Cause → Nat
  | .perm => 2
  | .ecc => 4
  | _ => 3

/-- A NACK or PERM is counted and raises CHN_FREF (R479). -/
def State.farRef (s : State) (code : Nat) : State :=
  if code = 1 ∨ code = 2 then (s.inc Reg.CHN_FCTL Reg.CHN_FCTL_FREFCNT).raise 0x3B7 else s

/-- A global SRAM access of the far side is charged to CHN_FCTL.OWN (R222, R479). -/
def State.farCharge (s : State) (a : Nat) : State := if region a = .glob then s.useToken (s.fl Reg.CHN_FCTL Reg.CHN_FCTL_OWN) else s

/-- A frame of this worker goes to the manager. -/
def State.farSend (s : State) (ty : Nat) (ws : List Word) : State := s.chnSend s.upPort (frame ty 0 s.ownNum 0 ws)

/-- A cumulative WACK for the last write performed (R485). -/
def State.farAck (s : State) : State :=
  match s.chn.farSeq with
  | some q => ({ s with chn := { s.chn with farN := 0 } }).farSend 6 [q]
  | none => s

/-- The WR of sequence `seq` repeats one performed, or is earlier than it (R497). -/
def State.farSeen (s : State) (seq : Word) : Bool :=
  match s.chn.farSeq with
  | some q => decide ((q - seq).toNat < 2 ^ 23)
  | none => false

/-- A WR is handled: discarded and acknowledged again where its write has been performed (R497); else checked and performed (R479), with a
WFAIL on failure and a WACK after every 16 writes performed (R485). -/
def State.farWrite (s : State) (cid a : Nat) (seq d0 d1 : Word) (pair ue ok tck : Bool) : State :=
  if s.farSeen seq then s.farAck
  else
    let fail := fun (s : State) (code : Nat) => (s.farRef code).farSend 7 [seq, w24 a, w24 code]
    match s.farCheck cid a pair true ue with
    | 0 =>
      (match (s.farCharge a).outStore .far pair a d0 d1 ok tck with
       | (t, .data _ _) =>
         let t := { t with chn := { t.chn with farSeq := some seq, farN := t.chn.farN + 1 } }
         if 16 ≤ t.chn.farN then t.farAck else t
       | (t, .fault c) => fail t (farCode c)
       | (t, _) => fail t 3)
    | code => fail s code

/-- An RD is handled (R479): one whose TAG is held gets the held response (R497); else the read is checked and made, and answered with RDR. -/
def State.farRead (s : State) (cid a tag : Nat) (pair ue ok tck : Bool) : State :=
  match s.chn.farRsp.find? (fun r => decide (r.1 = tag)) with
  | some r => s.farSend 5 r.2
  | none =>
    let answer := fun (s : State) (status : Nat) (ds : List Word) =>
      let ws := w24 (b2n pair * 2 ^ 23 + status * 2 ^ 20 + tag) :: ds
      let s := s.farRef status
      ({ s with chn := { s.chn with farRsp := ((tag, ws) :: s.chn.farRsp).take 16 } }).farSend 5 ws
    match s.farCheck cid a pair false ue with
    | 0 =>
      (match (s.farCharge a).outLoad .far pair a ok tck with
       | (t, .data d0 d1) => answer t 0 (if pair then [d0, d1] else [d0])
       | (t, .fault c) => answer t (farCode c) []
       | (t, _) => answer t 3 [])
    | code => answer s code []

/-- R479. A worker's far side checks and performs a received WR of one word or a pair; `ue`: a buffered word is uncorrectable; `ok`, `tck` as
for ACCESS_COMPLETE. While the MRAM write buffer has no room the frame stays in the far side's buffer. -/
def execWr (p : Fin 2) (dst : Fin 32) (cid : Fin 1024) (a seq d0 d1 : BitVec 24) (pair ue ok tck : Bool) (s : State) : Out :=
  .next (if s.isManager = false ∧ dst.val = s.ownNum ∧ s.farSeen seq = false ∧ s.farCheck cid a.toNat pair true ue = 0 ∧
      s.outCheck .store pair a.toNat tck = none ∧ s.mrHolds pair a.toNat d0 then s
    else s.accept p (frame 3 dst 0 cid ([a, seq] ++ (if pair then [d0, d1] else [d0]))) dst 0 (fun s =>
      if s.isManager then s else s.farWrite cid a.toNat seq d0 d1 pair ue ok tck))

/-- R479. A worker's far side checks and performs a received RD and answers RDR. -/
def execRd (p : Fin 2) (dst : Fin 32) (cid : Fin 1024) (a : BitVec 24) (tag : Fin 256) (pair ue ok tck : Bool) (s : State) : Out :=
  .next (s.accept p (frame 4 dst 0 cid [a, w24 (b2n pair * 2 ^ 23 + tag)]) dst 0 (fun s =>
    if s.isManager then s else s.farRead cid a.toNat tag pair ue ok tck))

/-- R485. 2 µs after the last performed write the worker sends a WACK. -/
def execWackTimer (s : State) : Out := .next (s.gate 8 (if s.chn.farN = 0 then s else s.farAck))

end Sys2Proof.Machine
end

