-- ==== Sys2Proof/Machine/Immediate.lean ====
section
/-!
DEFINITION. The immediate and long immediate instructions (R96–R98).
-/

namespace Sys2Proof.Machine

/-- An immediate ALU instruction of format I (R96). -/
def State.aluI (s : State) (k maj rd ra imm : Nat) (bad : Bool) (op : Word → Word) : State :=
  s.regOp (Iss.plain k (encI maj rd ra imm) 1 [ra] bad) (fun c => c.wrG rd (op (c.rdG ra)))

/-- A long immediate instruction, major 0x3C (R98). -/
def State.aluL (s : State) (k rd ra lop : Nat) (bad : Bool) (op : Word → Word) : State :=
  s.regOp (Iss.plain k (encL 0x3C rd ra lop) 2 [ra] bad) (fun c => c.wrG rd (op (c.rdG ra)))

/-- A field position and length that R97 does not allow: pos > 23 or pos + len > 24. -/
def badField (pos len1 : Nat) : Bool := decide (23 < pos) || decide (24 < pos + (len1 + 1))

/-- The field of `len1` + 1 bits of `v` at `pos` (R96). -/
def fieldOf (v : Word) (pos len1 : Nat) : Word := (v >>> pos) &&& w24 (2 ^ (len1 + 1) - 1)

/-- extu's result with bit len − 1 copied upward (R96). -/
def fieldSx (v : Word) (pos len1 : Nat) : Word :=
  let x := fieldOf v pos len1
  if x.getLsbD len1 then x ||| ~~~ w24 (2 ^ (len1 + 1) - 1) else x

/-- `old` with the low field of `v` put at `pos` (R96). -/
def fieldIns (old v : Word) (pos len1 : Nat) : Word :=
  let m := w24 (2 ^ (len1 + 1) - 1)
  (old &&& ~~~(m <<< pos)) ||| ((v &&& m) <<< pos)

/-- R96. addi adds a sign-extended 10-bit immediate. -/
def execAddi (k : Fin 512) (rd ra : Fin 16) (imm : BitVec 10) (s : State) : Out :=
  .next (s.aluI k 0x01 rd ra imm.toNat false (fun a => a + sext10 imm))

/-- R96. andi ANDs a zero-extended immediate. -/
def execAndi (k : Fin 512) (rd ra : Fin 16) (imm : BitVec 10) (s : State) : Out :=
  .next (s.aluI k 0x02 rd ra imm.toNat false (fun a => a &&& zext10 imm))

/-- R96. ori ORs a zero-extended immediate. -/
def execOri (k : Fin 512) (rd ra : Fin 16) (imm : BitVec 10) (s : State) : Out :=
  .next (s.aluI k 0x03 rd ra imm.toNat false (fun a => a ||| zext10 imm))

/-- R96. xori XORs a zero-extended immediate. -/
def execXori (k : Fin 512) (rd ra : Fin 16) (imm : BitVec 10) (s : State) : Out :=
  .next (s.aluI k 0x04 rd ra imm.toNat false (fun a => a ^^^ zext10 imm))

/-- R96. slti compares signed against a sign-extended immediate. -/
def execSlti (k : Fin 512) (rd ra : Fin 16) (imm : BitVec 10) (s : State) : Out :=
  .next (s.aluI k 0x05 rd ra imm.toNat false (fun a => boolW (a.slt (sext10 imm))))

/-- R96. sltiu compares unsigned against a zero-extended immediate. -/
def execSltiu (k : Fin 512) (rd ra : Fin 16) (imm : BitVec 10) (s : State) : Out :=
  .next (s.aluI k 0x06 rd ra imm.toNat false (fun a => boolW (a.ult (zext10 imm))))

/-- R96. slli shifts left by an immediate 0–23. n ≥ 24 is ILLEGAL. -/
def execSlli (k : Fin 512) (rd ra : Fin 16) (n : BitVec 5) (s : State) : Out :=
  .next (s.aluI k 0x07 rd ra (0 * 256 + n.toNat) (decide (24 ≤ n.toNat)) (fun a => a <<< n.toNat))

/-- R96. srli shifts right with zero fill by an immediate. n ≥ 24 is ILLEGAL. -/
def execSrli (k : Fin 512) (rd ra : Fin 16) (n : BitVec 5) (s : State) : Out :=
  .next (s.aluI k 0x07 rd ra (1 * 256 + n.toNat) (decide (24 ≤ n.toNat)) (fun a => a >>> n.toNat))

/-- R96. srai shifts right with sign fill by an immediate. n ≥ 24 is ILLEGAL. -/
def execSrai (k : Fin 512) (rd ra : Fin 16) (n : BitVec 5) (s : State) : Out :=
  .next (s.aluI k 0x07 rd ra (2 * 256 + n.toNat) (decide (24 ≤ n.toNat)) (fun a => a.sshiftRight n.toNat))

/-- R96. roli rotates left by an immediate. n ≥ 24 is ILLEGAL. -/
def execRoli (k : Fin 512) (rd ra : Fin 16) (n : BitVec 5) (s : State) : Out :=
  .next (s.aluI k 0x07 rd ra (3 * 256 + n.toNat) (decide (24 ≤ n.toNat)) (fun a => a.rotateLeft n.toNat))

/-- R96. lui writes imm14 shifted left by 10. -/
def execLui (k : Fin 512) (rd : Fin 16) (imm : BitVec 14) (s : State) : Out :=
  .next (s.regOp (Iss.plain k (encU 0x08 rd imm.toNat) 1 [] false) (fun c => c.wrG rd (imm.zeroExtend 24 <<< 10)))

/-- R97. extu extracts an unsigned bit field. `len1` is the field len − 1. -/
def execExtu (k : Fin 512) (rd ra : Fin 16) (pos len1 : BitVec 5) (s : State) : Out :=
  .next (s.aluI k 0x09 rd ra (pos.toNat * 32 + len1.toNat) (badField pos.toNat len1.toNat) (fun a => fieldOf a pos.toNat len1.toNat))

/-- R97. exts extracts a sign-extended bit field. `len1` is the field len − 1. -/
def execExts (k : Fin 512) (rd ra : Fin 16) (pos len1 : BitVec 5) (s : State) : Out :=
  .next (s.aluI k 0x0A rd ra (pos.toNat * 32 + len1.toNat) (badField pos.toNat len1.toNat) (fun a => fieldSx a pos.toNat len1.toNat))

/-- R97. ins inserts a bit field of G[ra] into G[rd]. -/
def execIns (k : Fin 512) (rd ra : Fin 16) (pos len1 : BitVec 5) (s : State) : Out :=
  .next (s.regOp (Iss.plain k (encI 0x0B rd ra (pos.toNat * 32 + len1.toNat)) 1 [rd, ra] (badField pos.toNat len1.toNat))
    (fun c => c.wrG rd (fieldIns (c.rdG rd) (c.rdG ra) pos.toNat len1.toNat)))

/-- R98. li writes a 24-bit immediate. A nonzero ra field is ILLEGAL. -/
def execLi (k : Fin 512) (rd ra : Fin 16) (imm : BitVec 24) (s : State) : Out :=
  .next (s.aluL k rd ra 0x00 (decide (ra ≠ 0)) (fun _ => imm))

/-- R98. addl adds a 24-bit immediate. -/
def execAddl (k : Fin 512) (rd ra : Fin 16) (imm : BitVec 24) (s : State) : Out :=
  .next (s.aluL k rd ra 0x01 false (fun a => a + imm))

/-- R98. andl ANDs a 24-bit immediate. -/
def execAndl (k : Fin 512) (rd ra : Fin 16) (imm : BitVec 24) (s : State) : Out :=
  .next (s.aluL k rd ra 0x02 false (fun a => a &&& imm))

/-- R98. orl ORs a 24-bit immediate. -/
def execOrl (k : Fin 512) (rd ra : Fin 16) (imm : BitVec 24) (s : State) : Out :=
  .next (s.aluL k rd ra 0x03 false (fun a => a ||| imm))

/-- R98. xorl XORs a 24-bit immediate. -/
def execXorl (k : Fin 512) (rd ra : Fin 16) (imm : BitVec 24) (s : State) : Out :=
  .next (s.aluL k rd ra 0x04 false (fun a => a ^^^ imm))

/-- R98. sltl compares signed against a 24-bit immediate. -/
def execSltl (k : Fin 512) (rd ra : Fin 16) (imm : BitVec 24) (s : State) : Out :=
  .next (s.aluL k rd ra 0x05 false (fun a => boolW (a.slt imm)))

/-- R98. sltul compares unsigned against a 24-bit immediate. -/
def execSltul (k : Fin 512) (rd ra : Fin 16) (imm : BitVec 24) (s : State) : Out :=
  .next (s.aluL k rd ra 0x06 false (fun a => boolW (a.ult imm)))

end Sys2Proof.Machine
end

