-- ==== Sys2Proof/Machine/Loop.lean ====
section
/-!
DEFINITION. Hardware loops (R113–R119) and the taking of the loop buffer (R59).
-/

namespace Sys2Proof.Machine

/-- What a loop set-up needs at issue: no delay slot and no loop end (R111, R118). -/
def Iss.loop (k : Nat) (word : Word) (reads : List Nat) : Iss :=
  { Iss.plain k word 1 reads false with noSlot := true, noEnd := true }

/-- The loop buffer of engine `e` may be taken by thread `k` (R59): it is free, not disabled, and the mode allows the thread. -/
def State.lbAllowed (s : State) (e k : Nat) : Bool :=
  let b := (s.en e).lb
  let mode := s.fl (Reg.ENG_LBCTL e) Reg.ENG_LBCTL_MODE
  b.owner.isNone && !b.dis && (decide (mode = 0) || (decide (mode = 1) && decide (s.fl (Reg.ENG_LBCTL e) Reg.ENG_LBCTL_THR = k % 4)))

/-- The instruction takes the loop buffer when it commits. -/
def LbAct.takes : LbAct → Bool
  | .take _ _ _ => true
  | _ => false

/-- A loop body from `ls` to `le` lies wholly in the engine's own local memory, as the thread sees it (R59): the physical address of
its first word, where every word's translation stays in local memory. A body of at most 32 words spans at most two pages. -/
def State.lbBody (s : State) (k : Nat) (ls le : Word) : Option Nat :=
  match (s.translate k .fetch ls.toNat).2, (s.translate k .fetch le.toNat).2 with
  | .ok a, .ok b => if ownLocal (k / 4) a && ownLocal (k / 4) b && decide (b = a + (le - ls).toNat) then some a else none
  | _, _ => none

/-- LOOP SET-UP (R114): with count 0 the body is skipped, and the loop buffer is not taken (log entry 37: DESIGN CHOICE); with three entries
active STACK is raised; otherwise an entry is pushed and its commit takes the loop buffer where R59 allows and no uncommitted set-up of the
thread takes it. -/
def State.loopSetup (s : State) (i : Iss) (cnt : Ctx → Word) (off : Nat) : State :=
  s.issue i (fun s =>
    let t := s.th i.k
    let c := t.ctx
    let n := cnt c
    let ls := c.pc + 1
    let le := c.pc + 1 + w24 off
    if n = 0 then s.finishLb i.k 1 { c with shadow := [], pc := le + 1 } .none
    else if 3 ≤ c.loops.length then s.faultIns i.k 1 ⟨.stack, .fetch, 0, 1⟩
    else
      let e := i.k / 4
      let due := t.infl.any (fun x => x.lb.takes)
      let pb := if s.lbAllowed e i.k ∧ due = false ∧ (le - ls).toNat < 32 then s.lbBody i.k ls le else none
      let ent : LoopEnt := { count := n, start := ls, stop := le, tag := t.depth, owns := pb.isSome }
      s.finishLb i.k 1 { c with shadow := [], pc := ls, loops := ent :: c.loops }
        (match pb with | some a => .take ls le a | none => .none))

/-- A loop control instruction, major 0x32 (R119). -/
def State.loopCtl (s : State) (k rd ra fn : Nat) (reads : List Nat) (bad : Bool) (f : Ctx → Ctx) : State :=
  s.regOp (Iss.plain k (encX 0x32 rd ra fn) 1 reads bad) f

/-- The top loop entry of a context. -/
def Ctx.topLoop (c : Ctx) : LoopEnt :=
  match c.loops with
  | l :: _ => l
  | [] => { count := 0, start := 0, stop := 0, tag := 0, owns := false }

/-- R114. loop pushes a hardware loop counted by G[ra], or skips the body when the count is 0. -/
def execLoop (k : Fin 512) (ra : Fin 16) (off : BitVec 14) (s : State) : Out :=
  .next (s.loopSetup (Iss.loop k (encLPR 0x30 ra off.toNat) [ra]) (fun c => c.rdG ra) off.toNat)

/-- R114. loopi pushes a hardware loop with an 8-bit immediate count. -/
def execLoopi (k : Fin 512) (cnt : BitVec 8) (off : BitVec 10) (s : State) : Out :=
  .next (s.loopSetup (Iss.loop k (encLPI 0x31 cnt.toNat off.toNat) []) (fun _ => cnt.zeroExtend 24) off.toNat)

/-- R119. lpop pops the top loop entry. Popping the entry that took the loop buffer releases it (R62). -/
def execLpop (k : Fin 512) (rd ra : Fin 16) (s : State) : Out :=
  .next (s.issue (Iss.plain k (encX 0x32 rd ra 0x00) 1 [] (decide (rd ≠ 0) || decide (ra ≠ 0))) (fun s =>
    let t := s.th k
    match t.ctx.loops with
    | [] => s.faultIns k 1 ⟨.stack, .fetch, 0, 2⟩
    | l :: r =>
      let x := ({ t.ctx with shadow := [], loops := r } : Ctx).advance t.depth 1
      s.finish k 1 x.1 (l.owns || x.2)))

/-- R119. mfl rd, lc reads LC. -/
def execMflLc (k : Fin 512) (rd ra : Fin 16) (s : State) : Out :=
  .next (s.loopCtl k rd ra 0x01 [] (decide (ra ≠ 0)) (fun c => c.wrG rd c.topLoop.count))

/-- R119. mfl rd, ls reads LS. -/
def execMflLs (k : Fin 512) (rd ra : Fin 16) (s : State) : Out :=
  .next (s.loopCtl k rd ra 0x02 [] (decide (ra ≠ 0)) (fun c => c.wrG rd c.topLoop.start))

/-- R119. mfl rd, le reads LE. -/
def execMflLe (k : Fin 512) (rd ra : Fin 16) (s : State) : Out :=
  .next (s.loopCtl k rd ra 0x03 [] (decide (ra ≠ 0)) (fun c => c.wrG rd c.topLoop.stop))

/-- R119. mtl lc writes LC from G[ra]. -/
def execMtlLc (k : Fin 512) (rd ra : Fin 16) (s : State) : Out :=
  .next (s.issue (Iss.plain k (encX 0x32 rd ra 0x04) 1 [ra] (decide (rd ≠ 0))) (fun s =>
    let t := s.th k
    match t.ctx.loops with
    | [] => s.faultIns k 1 ⟨.stack, .fetch, 0, 2⟩
    | l :: r =>
      let x := ({ t.ctx with shadow := [], loops := { l with count := t.ctx.rdG ra } :: r } : Ctx).advance t.depth 1
      s.finish k 1 x.1 x.2))

/-- R119. ldepth reads the number of active loop entries. -/
def execLdepth (k : Fin 512) (rd ra : Fin 16) (s : State) : Out :=
  .next (s.loopCtl k rd ra 0x05 [] (decide (ra ≠ 0)) (fun c => c.wrG rd (w24 c.loops.length)))

end Sys2Proof.Machine
end

