-- ==== Sys2Proof/Machine/Loupe.lean ====
section
/-!
DEFINITION. The Loupe port (R595–R603, R638): the TAP, the transport commands and their results, unlocking, and the halting, stepping,
breakpoints and freeze they control.
-/

namespace Sys2Proof.Machine

/-! ### The TAP -/

/-- The lock state (R596): 0 LOCKED, 1 CAPS, 2 OPEN. -/
def State.lock (s : State) : Nat := s.fl Reg.SYS_DBG Reg.SYS_DBG_LSTATE

/-- The instruction the TAP acts on (R595): EXTEST (0), CLAMP (3) and HIGHZ (4) act as BYPASS (0x3F) while LOCKED. -/
def State.tapActs (s : State) : Nat := if s.lock = 0 ∧ (s.lp.ir = 0 ∨ s.lp.ir = 3 ∨ s.lp.ir = 4) then 0x3F else s.lp.ir

/-- A TAP instruction is loaded. -/
def State.tapLoad (s : State) (ir : Nat) : State := { s with lp := { s.lp with ir := ir } }

/-- A window read of the Loupe port waits for its RDR: its command is in progress (R596). -/
def State.lpBusy (s : State) : Bool := s.chn.rd.any (fun r => decide (r.eng = loupeEng))

/-- Some thread is halted by the Loupe (R596). -/
def State.anyHalt (s : State) : Bool := s.thr.any (fun p => decide (p.2.halt ≠ 0))

/-- STATUS (R596). -/
def State.lpStatus (s : State) : Nat :=
  b2n s.lpBusy * 128 + b2n (decide (s.lp.code ≠ 0)) * 64 + s.lp.code * 8 + s.lock * 2 + b2n s.anyHalt

/-- What Capture-DR loads (R595, R596): the boundary cells, IDCODE, the transport register, or the bypass bit. -/
def State.tapCapture (s : State) : Nat :=
  if s.tapActs = 0 ∨ s.tapActs = 1 then s.lp.bsr.toNat
  else if s.tapActs = 2 then 0x141286F3
  else if s.tapActs = 0x10 then s.lpStatus * 2 ^ 48 + s.lp.addr.toNat * 2 ^ 24 + s.lp.data.toNat
  else 0

/-! ### The transport register -/

/-- A transport command (R596, R597): it starts with LOUPE selected and no command in progress; below lock state `need` it completes with
LOCKED; else it does `body`. -/
def State.lpCmd (s : State) (need : Nat) (addr data : Word) (body : State → State) : State :=
  if s.tapActs ≠ 0x10 ∨ s.lpBusy then s
  else if s.lock < need then s.lpEnd 1 addr data
  else body s

/-- The fabric is unpowered (R526): what a command would reach there answers BUS. -/
def State.dark (s : State) : Bool := decide (2 ≤ s.pwr.state)

/-- CODE of a fault (R596). -/
def lpCode : Cause → Nat
  | .xlate | .walkDev => 2
  | .perm => 3
  | .ecc | .walkEcc => 5
  | _ => 4

/-- The access record of the Loupe port in a Chaden window; thread 512 is no thread. -/
def State.lpAccess (s : State) (kind : AccKind) (va d : Word) (pa cid : Nat) : Access :=
  { id := s.fresh, k := 512, kind := kind, pair := false, va := va, pa := pa, pa2 := 0, rd := 0, d0 := d, d1 := 0, ia := 0, cid := cid, prv := true, ord := none, half := false }

/-- A word is read at physical address `pa` for a command whose ADDR is `va` (R596); one in a Chaden window waits for its RDR. -/
def State.lpLoad (s : State) (va : Word) (pa cid : Nat) (ok : Bool) : State :=
  match s.outLoad .loupe false pa ok true with
  | (t, .data d _) => t.lpEnd 0 va d
  | (t, .fault c) => t.lpEnd (lpCode c) va 0
  | (t, .window) =>
    if t.room (windowNo pa) then ({ t with fresh := t.fresh + 1 }).windowRead loupeEng (t.lpAccess .load va 0 pa cid) else t
  | (t, .full) => t

/-- A word is written at physical address `pa` for a command whose ADDR is `va`; one that finds no room at the MRAM write buffer or at the
link is still in progress, and nothing has happened yet (log entry 4). -/
def State.lpStore (s : State) (va d : Word) (pa cid : Nat) (ok : Bool) : State :=
  match s.outStore .loupe false pa d 0 ok true with
  | (t, .data _ _) => t.lpEnd 0 va d
  | (t, .fault c) => t.lpEnd (lpCode c) va d
  | (t, .window) =>
    if t.room (windowNo pa) then (({ t with fresh := t.fresh + 1 }).post (t.lpAccess .store va d pa cid)).lpEnd 0 va d else t
  | (_, .full) => s

/-- The capsule whose tables RDC and WRC use (R597). -/
def State.lpCid (s : State) : Nat := if s.lock = 1 then s.fl Reg.SYS_DBG Reg.SYS_DBG_LCID else s.lp.cid

/-- A device register address is open to capsule `cid` (R6, R232, R275, R633). -/
def State.capDev (s : State) (cid pa : Nat) (store : Bool) : Bool :=
  if region pa ≠ .dev then true
  else if 0xF41000 ≤ pa ∧ pa ≤ 0xF417FF then false
  else match strPort pa with
    | some i => s.strandWin cid i (if store then 22 else 21)
    | none => match regGroup pa with
      | some g => decide (g.k = 0) && (!store || decide (g.krw = 0))
      | none => true

/-- Translation in the tables of the selected capsule, with its permissions (R215, R597): the physical address, or CODE. -/
def State.lpVirtual (s : State) (va : Word) (kind : AccKind) : State × Except Nat Nat :=
  let cid := s.lpCid
  if cid = 0 ∨ (s.capState cid ≠ 3 ∧ s.capState cid ≠ 4) then (s, .error 2)
  else match s.walk cid va.toNat 0 with
    | (t, .fault c _ _) => (t, .error (lpCode c))
    | (t, .entry e) =>
      match tcAddr e kind va.toNat with
      | .error c => (t, .error (lpCode c))
      | .ok pa => if t.capDev cid pa (decide (kind = .store)) then (t, .ok pa) else (t, .error 3)

/-- A command on thread `k` (R597): CAPS or OPEN; in CAPS the thread must be bound to LCID at capsule privilege. -/
def State.lpThread (s : State) (k : Nat) (addr data : Word) (body : State → State) : State :=
  s.lpCmd 1 addr data (fun s =>
    let b := (s.th k).bind
    if s.dark then s.lpEnd 4 addr data
    else if s.lock = 1 ∧ (b.prv ∨ b.cid ≠ s.fl Reg.SYS_DBG Reg.SYS_DBG_LCID) then s.lpEnd 3 addr data
    else body s)

/-! ### Threads -/

/-- HALT of thread `k` (R600, R603, R638): at once in the ROM's wait; in other ROM code when the ROM ends; a STEP under way completes first;
else once what it has issued is complete. -/
def State.lpHalt (s : State) (k : Nat) : State :=
  let t := s.th k
  if t.halt ≠ 0 then s
  else if t.rom ∧ t.mode = .event then (s.setTh k { t with halt := 1, stepping := false }).raise 0x3F0
  else
    let s := s.setTh k { t with haltReq := if t.haltReq = 0 then 1 else t.haltReq }
    if t.stepping then s else s.haltCheck k

/-- A halted thread goes on (R600, R601, R638): a drain that is not over is waited for again, every other wait is issued again, and the first
instruction meets no breakpoint. -/
def State.lpResume (s : State) (k : Nat) (step : Bool) : State :=
  let t := s.th k
  if t.halt = 0 then s
  else
    let mode := if t.mode = .run ∧ s.chn.drains.any (fun x => decide (x.thread = k ∧ x.depth = t.depth)) then .drain else t.mode
    s.setTh k { t with halt := 0, haltIdx := 0, stepping := step, skipBp := true, mode := mode }

/-- The word of an accumulator that RDREG reads (R597): [23:0], [47:24], [55:48]. -/
def accPart (a : Acc) : Nat → Word
  | 0 => a.extractLsb' 0 24
  | 1 => a.extractLsb' 24 24
  | _ => (a.extractLsb' 48 8).setWidth 24

/-- The accumulator with that word written. -/
def accPut (a : Acc) (i : Nat) (v : Word) : Acc :=
  match i with
  | 0 => (a &&& ~~~(0x00000000FFFFFF : Acc)) ||| v.setWidth 56
  | 1 => (a &&& ~~~(0x00FFFFFF000000 : Acc)) ||| (v.setWidth 56 <<< 24)
  | _ => (a &&& ~~~(0xFF000000000000 : Acc)) ||| (v.setWidth 56 <<< 48)

/-- The register of a halted thread with code `c` (R597). -/
def State.lpReg (s : State) (k c : Nat) : Option Word :=
  let t := s.th k
  if c < 16 then some (t.ctx.rdG c)
  else if c < 19 then some (accPart t.ctx.a0 (c - 16))
  else if c < 22 then some (accPart t.ctx.a1 (c - 19))
  else if c = 22 then some t.ctx.topLoop.count
  else if c = 23 then some t.ctx.topLoop.start
  else if c = 24 then some t.ctx.topLoop.stop
  else if c = 25 then some t.ctx.astat
  else if c = 26 then some t.ctx.pc
  else if c < 32 then some (match t.levels with | l :: _ => l.word (c - 27) | [] => 0)
  else if c = 32 then some (s.tbind k)
  else if c = 33 then some (w24 (b2n t.el))
  else none

/-- The top loop entry with a field written. -/
def LoopEnt.put (l : LoopEnt) (i : Nat) (v : Word) : LoopEnt :=
  match i with
  | 0 => { l with count := v }
  | 1 => { l with start := v }
  | _ => { l with stop := v }

/-- That register written (R597): none for LC, LS and LE with no loop, for the binding and for a code of no register. A write to the next
address makes the thread resume there, out of the ROM's wait too. -/
def Thread.lpPut (t : Thread) (c : Nat) (v : Word) : Option Thread :=
  if c < 16 then some { t with ctx := t.ctx.wrG c v }
  else if c < 19 then some { t with ctx := { t.ctx with a0 := accPut t.ctx.a0 (c - 16) v } }
  else if c < 22 then some { t with ctx := { t.ctx with a1 := accPut t.ctx.a1 (c - 19) v } }
  else if c < 25 then
    match t.ctx.loops with
    | l :: r => some { t with ctx := { t.ctx with loops := l.put (c - 22) v :: r } }
    | [] => none
  else if c = 25 then some { t with ctx := { t.ctx with sat := v.getLsbD 0, aov := v.getLsbD 1 } }
  else if c = 26 then some { t with ctx := { t.ctx with pc := v }, rom := false, mode := if t.rom then .run else t.mode }
  else if c < 32 then
    some { t with levels := match t.levels with | l :: r => l.put (c - 27) v :: r | [] => [] }
  else if c = 33 then some { t with el := v.getLsbD 0 }
  else none

/-- A breakpoint or watchpoint is set or removed in engine [22:16] (R601). -/
def lpPoint (addr data : Word) (watch : Bool) : Option DbgPoint :=
  if data.getLsbD 23 then
    some { addr := addr, mask := getBits data 15 12, acc := if watch then getBits data 11 10 else 0, m := if watch then getBits data 7 4 else 0 }
  else none

/-- In CAPS every thread that SETBP or SETWP names must be bound to LCID at capsule privilege (R597). -/
def State.lpPoints (s : State) (data : Word) : Bool :=
  decide (s.lock ≠ 1) || (List.range 4).all (fun i =>
    let b := (s.th (4 * getBits data 22 16 + i)).bind
    !(getBits data 15 12).testBit i || (!b.prv && decide (b.cid = s.fl Reg.SYS_DBG Reg.SYS_DBG_LCID)))

/-! ### Unlocking -/

/-- The signature and key of an UNLOCK pass (R599): the key's digest is DKEY, and the signature over nonce, SYS_ID and level word verifies. -/
def State.lpVerify (s : State) (lvl : Word) : Bool :=
  let key := (List.range 22).map (SMap.get 0 s.lp.key)
  let sig := (List.range 22).map (SMap.get 0 s.lp.resp)
  let dkey := (List.range 11).map (fun i => s.rd (Reg.SYS_FUSEw (22 + i)))
  let q := Crypto.keyPair key
  let rs := Crypto.keyPair sig
  decide (s.lp.nonce.length = 8) && dkey.any (fun w => decide (w ≠ 0)) &&
  decide (Crypto.packBytes (Crypto.sha256 ((Crypto.wordBytes key).take 64)) = dkey) &&
  (decide (getBits lvl 23 22 = 1) || decide (getBits lvl 23 22 = 2)) && decide (getBits (sig.getD 21 0) 15 0 = 0) &&
  Crypto.ecdsaVerify (Crypto.sha256 (Crypto.wordBytes (s.lp.nonce ++ [s.rd Reg.SYS_ID, lvl]))) q.1 q.2 rs.1 rs.2

/-! ### Commands: the TAP -/

/-- R595. TRST_N resets the TAP: it holds IDCODE. -/
def execTrst (s : State) : Out := .next (s.tapLoad 2)

/-- R595. TAP instruction EXTEST drives the boundary cells; it acts as BYPASS while LOCKED. -/
def execExtest (s : State) : Out := .next (s.tapLoad 0)

/-- R595. TAP instruction SAMPLE/PRELOAD samples or loads boundary cells, given as `cells`. -/
def execSamplePreload (cells : BitVec 402) (s : State) : Out :=
  .next { s with lp := { s.lp with ir := 1, bsr := cells } }

/-- R595. TAP instruction IDCODE selects the ID register. -/
def execIdcode (s : State) : Out := .next (s.tapLoad 2)

/-- R595. TAP instruction CLAMP holds outputs from the boundary cells; it acts as BYPASS while LOCKED. -/
def execClamp (s : State) : Out := .next (s.tapLoad 3)

/-- R595. TAP instruction HIGHZ puts outputs in high impedance; it acts as BYPASS while LOCKED. -/
def execHighz (s : State) : Out := .next (s.tapLoad 4)

/-- R596. TAP instruction LOUPE selects the transport register. -/
def execLoupeSelect (s : State) : Out := .next (s.tapLoad 0x10)

/-- R595. TAP instruction BYPASS selects the bypass bit. -/
def execBypass (s : State) : Out := .next (s.tapLoad 0x3F)

/-! ### Commands: memory -/

/-- R597. Loupe NOP does nothing but complete. -/
def execNop (s : State) : Out := .next (s.lpCmd 0 0 0 (fun s => s.lpEnd 0 0 0))

/-- R597. Loupe RDK reads a physical word. -/
def execRdk (a : BitVec 24) (ok : Bool) (s : State) : Out :=
  .next (s.lpCmd 2 a 0 (fun s => if s.dark then s.lpEnd 4 a 0 else s.lpLoad a a.toNat 0 ok))

/-- R597. Loupe WRK writes a physical word. -/
def execWrk (a d : BitVec 24) (ok : Bool) (s : State) : Out :=
  .next (s.lpCmd 2 a d (fun s => if s.dark then s.lpEnd 4 a d else s.lpStore a d a.toNat 0 ok))

/-- R597. Loupe RDC reads a capsule virtual word. -/
def execRdc (a : BitVec 24) (ok : Bool) (s : State) : Out :=
  .next (s.lpCmd 1 a 0 (fun s =>
    if s.dark then s.lpEnd 4 a 0
    else match s.lpVirtual a .load with
      | (t, .error c) => t.lpEnd c a 0
      | (t, .ok pa) => t.lpLoad a pa t.lpCid ok))

/-- R597. Loupe WRC writes a capsule virtual word. -/
def execWrc (a d : BitVec 24) (ok : Bool) (s : State) : Out :=
  .next (s.lpCmd 1 a d (fun s =>
    if s.dark then s.lpEnd 4 a d
    else match s.lpVirtual a .store with
      | (t, .error c) => t.lpEnd c a d
      | (t, .ok pa) => t.lpStore a d pa t.lpCid ok))

/-- R597. Loupe SETCID selects the capsule for RDC and WRC. -/
def execSetcid (d : BitVec 24) (s : State) : Out :=
  .next (s.lpCmd 2 0 d (fun s => ({ s with lp := { s.lp with cid := getBits d 9 0 } }).lpEnd 0 0 d))

/-! ### Commands: threads -/

/-- R600. Loupe HALT stops a thread after its issued instructions and raises LP_HALT. -/
def execHalt (k : Fin 512) (s : State) : Out := .next (s.lpThread k (w24 k) 0 (fun s => (s.lpHalt k).lpEnd 0 (w24 k) 0))

/-- R600. Loupe RUN resumes a halted thread. -/
def execRun (k : Fin 512) (s : State) : Out := .next (s.lpThread k (w24 k) 0 (fun s => (s.lpResume k false).lpEnd 0 (w24 k) 0))

/-- R600. Loupe STEP issues one instruction of a halted thread and halts again; a thread that is not halted gives BADCMD. -/
def execStep (k : Fin 512) (s : State) : Out :=
  .next (s.lpThread k (w24 k) 0 (fun s =>
    if (s.th k).halt = 0 then s.lpEnd 6 (w24 k) 0 else (s.lpResume k true).lpEnd 0 (w24 k) 0))

/-- R597. Loupe RDREG reads a halted thread's register with code `c`. -/
def execRdreg (k : Fin 512) (c : Fin 64) (s : State) : Out :=
  let a := w24 (k * 2 ^ 15 + c)
  .next (s.lpThread k a 0 (fun s =>
    if (s.th k).halt = 0 then s.lpEnd 6 a 0
    else match s.lpReg k c with
      | some v => s.lpEnd 0 a v
      | none => s.lpEnd 6 a 0))

/-- R597. Loupe WRREG writes a halted thread's register with code `c`. -/
def execWrreg (k : Fin 512) (c : Fin 64) (v : BitVec 24) (s : State) : Out :=
  let a := w24 (k * 2 ^ 15 + c)
  .next (s.lpThread k a v (fun s =>
    if (s.th k).halt = 0 then s.lpEnd 6 a v
    else match (s.th k).lpPut c v with
      | some t => (s.setTh k t).lpEnd 0 a v
      | none => s.lpEnd 6 a v))

/-- R597. Loupe TSTAT reports a thread's state (R47), halt reason, index and next address (R638: 0x800000 in ROM code). -/
def execTstat (k : Fin 512) (s : State) : Out :=
  .next (s.lpThread k (w24 k) 0 (fun s =>
    let t := s.th k
    let c := s.threadCode k
    s.lpEnd 0 (if t.rom then 0x800000 else t.ctx.pc) (w24 (c * 2 ^ 21 + t.halt * 2 ^ 18 + (if t.halt = 0 then 0 else t.haltIdx) * 2 ^ 15))))

/-- R601. Loupe SETBP sets a breakpoint: `d` holds EN, engine, thread mask and index. -/
def execSetbp (a d : BitVec 24) (s : State) : Out :=
  .next (s.lpCmd 1 a d (fun s =>
    if s.dark then s.lpEnd 4 a d
    else if s.lpPoints d then
      (s.mapEn (getBits d 22 16) (fun e => { e with bps := SMap.set none e.bps (getBits d 2 0) (lpPoint a d false) })).lpEnd 0 a d
    else s.lpEnd 3 a d))

/-- R601. Loupe SETWP sets a watchpoint: `d` holds EN, engine, thread mask, access, size and index. -/
def execSetwp (a d : BitVec 24) (s : State) : Out :=
  .next (s.lpCmd 1 a d (fun s =>
    if s.dark then s.lpEnd 4 a d
    else if s.lpPoints d then
      (s.mapEn (getBits d 22 16) (fun e => { e with wps := SMap.set none e.wps (getBits d 1 0) (lpPoint a d true) })).lpEnd 0 a d
    else s.lpEnd 3 a d))

/-- R601. A thread about to issue an instruction at a breakpoint halts with BREAK; `len` is 0, or the words of the transfer with a delay slot
that it is about to issue. -/
def execBreakpointHalt (k : Fin 512) (len : Fin 3) (s : State) : Out :=
  .next (if s.isReady k then
      match s.bpStop { Iss.plain k 0 len [] false with hasDs := decide (len ≠ 0) } with
      | some b => s.bpHalt k b
      | none => s
    else s)

/-- R602. Loupe FREEZE asserts or releases the freeze signal. -/
def execFreeze (d : BitVec 24) (s : State) : Out :=
  .next (s.lpCmd 2 0 d (fun s => ({ s with lp := { s.lp with freeze := d.getLsbD 0 } }).lpEnd 0 0 d))

/-! ### Commands: locks and mailbox -/

/-- R599. Loupe CHAL returns nonce word `i`, drawing a new nonce for i = 0; after a failed unlock it completes with LOCKED. -/
def execChal (i : Fin 8) (s : State) : Out :=
  let a := w24 i
  .next (s.lpCmd 0 a 0 (fun s =>
    if s.lp.lockout then s.lpEnd 1 a 0
    else
      let s := if i = 0 then
          let (s, ws) := s.draws 8
          { s with lp := { s.lp with nonce := ws } }
        else s
      match s.lp.nonce[i.val]? with
      | some w => s.lpEnd 0 a w
      | none =>
        let (s, w) := s.draw
        s.lpEnd 0 a w))

/-- R599. Loupe KEYW writes public key word `w`; a word past 21 gives BADCMD. -/
def execKeyw (w : Fin 32) (v : BitVec 24) (s : State) : Out :=
  let a := w24 w
  .next (s.lpCmd 0 a v (fun s =>
    if 21 < w.val then s.lpEnd 6 a v
    else ({ s with lp := { s.lp with key := SMap.set 0 s.lp.key w v } }).lpEnd 0 a v))

/-- R599. Loupe RESP writes signature word `w`; a word past 21 gives BADCMD. -/
def execResp (w : Fin 32) (v : BitVec 24) (s : State) : Out :=
  let a := w24 w
  .next (s.lpCmd 0 a v (fun s =>
    if 21 < w.val then s.lpEnd 6 a v
    else ({ s with lp := { s.lp with resp := SMap.set 0 s.lp.resp w v } }).lpEnd 0 a v))

/-- R599. Loupe UNLOCK verifies the signature and opens the port to CAPS or OPEN; DENY refuses it (R598). While a hallmark check keeps the
ECDSA unit the command waits, and nothing has happened yet (R603). -/
def execUnlock (v : BitVec 24) (s : State) : Out :=
  .next (s.lpCmd 0 0 v (fun s =>
    if s.fb Reg.SYS_DBG Reg.SYS_DBG_DENY then s.lpEnd 1 0 v
    else if s.bz.check.isSome then s
    else
      let pass := s.lpVerify v
      let s := { s with lp := { s.lp with nonce := [] } }
      if pass then
        let s := s.sf Reg.SYS_DBG Reg.SYS_DBG_LSTATE (getBits v 23 22)
        let s := if getBits v 23 22 = 1 then s.sf Reg.SYS_DBG Reg.SYS_DBG_LCID (getBits v 9 0) else s
        (s.lpEnd 0 0 v).raise 0x3F2
      else
        let s := { s with lp := { s.lp with lockout := true } }
        ((s.lpEnd 7 0 v).incW Reg.LP_FAILCNT).raise 0x3F3))

/-- R599. 32,768 AWU cycles after a failed unlock, CHAL is accepted again. -/
def execUnlockLockoutEnd (s : State) : Out := .next { s with lp := { s.lp with lockout := false } }

/-- R598. Loupe LOCK returns the port to LOCKED. -/
def execLock (s : State) : Out := .next (s.lpCmd 0 0 0 (fun s => (s.sf Reg.SYS_DBG Reg.SYS_DBG_LSTATE 0).lpEnd 0 0 0))

/-- R598. Writing SYS_DBG.KLOCK returns the Loupe to LOCKED. -/
def execKlock (s : State) : Out := .next (s.sf Reg.SYS_DBG Reg.SYS_DBG_LSTATE 0)

/-- R597. Loupe WAKE raises wake source 8 (R540). -/
def execWake (s : State) : Out := .next (s.lpCmd 0 0 0 (fun s => (s.lpEnd 0 0 0).wakeSrc 8))

/-- R598. Loupe MAILW writes LP_MAILIN and raises LP_MAIL. -/
def execMailw (v : BitVec 24) (s : State) : Out :=
  .next (s.lpCmd 0 0 v (fun s => ((s.wr Reg.LP_MAILIN v).lpEnd 0 0 v).raise 0x3F1))

/-- R597. Loupe MAILR reads LP_MAILOUT. -/
def execMailr (s : State) : Out := .next (s.lpCmd 0 0 0 (fun s => s.lpEnd 0 0 (s.rd Reg.LP_MAILOUT)))

end Sys2Proof.Machine
end

