-- ==== Sys2Proof/Machine/Mem.lean ====
section
/-!
DEFINITION. The memory instructions (R99–R106): addresses, checks, accesses to the engine's own local memory, accesses sent through the
spine interface, and the settling of a replay entry (R76).
-/

namespace Sys2Proof.Machine

/-- What a memory instruction does: how it issues, the kind and size of its access, its data register, its effective address (R99) and
its base update (R102). -/
structure MemIns where
  iss  : Iss
  kind : AccKind
  pair : Bool
  rd   : Nat
  ea   : Ctx → Word
  upd  : Option (Nat × Word)

/-- How a memory instruction issues; it may issue behind uncommitted instructions of its thread (R48). -/
def Iss.memory (k : Nat) (word : Word) (len : Nat) (reads : List Nat) (bad : Bool) : Iss :=
  { Iss.plain k word len reads bad with mem := true }

/-- The registers a load writes with its data. -/
def MemIns.dests (m : MemIns) : List Nat :=
  if m.kind = .store then [] else (if m.pair then [m.rd, m.rd + 1] else [m.rd]).filter (fun r => decide (r ≠ 0))

/-- The context after the base update of a post-modify form (R102). -/
def MemIns.base (m : MemIns) (c : Ctx) : Ctx :=
  match m.upd with
  | some (ra, d) => c.wrG ra (c.rdG ra + d)
  | none => c

/-- The shadow list a load leaves: its destinations with the values before the load (R64). -/
def MemIns.shadow (m : MemIns) (c : Ctx) : List (Nat × Word) := m.dests.map (fun r => (r, c.peekG r))

/-- The destinations whose value before the load an older load still owes (R66). -/
def MemIns.owed (m : MemIns) (c : Ctx) : List (Nat × Nat) := c.pend.filter (fun p => m.dests.contains p.1)

/-- The context after a load whose data is at hand. -/
def MemIns.loaded (m : MemIns) (c : Ctx) (d0 d1 : Word) : Ctx :=
  let sh := m.shadow c
  let ow := m.owed c
  let c := { m.base c with shadow := sh, shPend := ow }
  let c := c.wrG m.rd d0
  if m.pair then c.wrG (m.rd + 1) d1 else c

/-- The context after a load whose data is still to come as access `id`. -/
def MemIns.awaiting (m : MemIns) (c : Ctx) (id : Nat) : Ctx :=
  let sh := m.shadow c
  let ow := m.owed c
  let c := m.base c
  { c with shadow := sh, shPend := ow, pend := c.pend.filter (fun p => !m.dests.contains p.1) ++ m.dests.map (fun r => (r, id)) }

/-- The context after a store. -/
def MemIns.stored (m : MemIns) (c : Ctx) : Ctx := { m.base c with shadow := [], shPend := [] }

/-- The instruction makes its access at its effective address in the context at issue. -/
def State.memVa (s : State) (m : MemIns) : Word := m.ea (s.th m.iss.k).ctx

/-- The instruction's access takes the memory port of its engine (R54): every word lies in the engine's own local memory. -/
def State.memPort (s : State) (m : MemIns) : Bool :=
  match (s.settles m.iss.k m.kind m.pair (s.memVa m)), (s.checkPair m.iss.k m.kind m.pair (s.memVa m)).2 with
  | none, .ok p => (accWordsAt m.pair p).all (ownLocal (m.iss.k / 4))
  | _, _ => false

/-- A memory instruction completes with context `c`. -/
def State.memDone (s : State) (m : MemIns) (c : Ctx) : State :=
  let t := s.th m.iss.k
  let sh := c.shadow
  let x := c.advance t.depth m.iss.len
  s.finish m.iss.k m.iss.len { x.1 with shadow := sh, shPend := c.shPend } x.2

/-- A memory instruction whose context becomes `c` joins the uncommitted instructions as number `id`, standing at `st`. -/
def State.memQueue (s : State) (m : MemIns) (c : Ctx) (id : Nat) (st : InflSt) : State :=
  let k := m.iss.k
  let t := s.th k
  let x := c.advance t.depth m.iss.len
  let s := { s with fresh := max s.fresh (id + 1) }
  s.setTh k { t.moved { x.1 with shadow := c.shadow, shPend := c.shPend } with
    infl := t.infl ++ [{ id := id, snap := t.ctx, len := m.iss.len, st := st, lb := lbLeft x.2 }] }

/-- An access to the engine's own local memory, through the memory port (R54, R101, R105). -/
def State.memLocal (s : State) (m : MemIns) (va : Word) (pa pa2 : Nat) : State :=
  let k := m.iss.k
  let c := (s.th k).ctx
  match m.kind with
  | .store =>
    let ws := (pa, c.rdG m.rd) :: (if m.pair then [(pa2, c.rdG (m.rd + 1))] else [])
    if (s.th k).infl = [] then
      let s := ws.foldl (fun s q => s.memWrite q.1 q.2) s
      s.memDone m (m.stored (s.th k).ctx)
    else s.memQueue m (m.stored c) s.fresh (.held ws)
  | .xchg =>
    let (s, r) := s.memRead pa 4 (k / 4)
    (match r with
     | none => s.faultIns k m.iss.len ⟨.ecc, .xchg, 0, va⟩
     | some w =>
       let s := s.memWrite pa (c.rdG m.rd)
       s.memDone m (m.loaded (s.th k).ctx w 0))
  | _ =>
    let (s, r) := s.memRead pa 0 (k / 4)
    (match r with
     | none => s.faultIns k m.iss.len ⟨.ecc, .load, 0, va⟩
     | some w =>
       if m.pair then
         let (s, r2) := s.memRead pa2 0 (k / 4)
         (match r2 with
          | none => s.faultIns k m.iss.len ⟨.ecc, .load, 0, va + 1⟩
          | some w2 => s.memDone m (m.loaded c w w2))
       else s.memDone m (m.loaded c w 0))

/-- An access outside the engine's own local memory takes a spine request (R58). A store to memory commits once every older instruction has,
and is not sent before (R49); a load, an xchg and a store to a device register stay uncommitted until they complete. -/
def State.memSpine (s : State) (m : MemIns) (va : Word) (pa pa2 : Nat) : State :=
  let k := m.iss.k
  let t := s.th k
  let c := t.ctx
  let ac : Access :=
    { id := s.fresh, k := k, kind := m.kind, pair := m.pair, va := va, pa := pa, pa2 := pa2, rd := m.rd
      d0 := c.rdG m.rd, d1 := if m.pair then c.rdG (m.rd + 1) else 0, ia := c.pc, cid := s.ownCid k
      prv := t.bind.prv, ord := none, half := false }
  let x := if region pa = .glob then s.charge (s.ownCid k) else (s, false)
  let s := ({ x.1 with fresh := s.fresh + 1 }).mapEn (k / 4) (fun y =>
    { y with spine := y.spine ++ [{ ac with ord := if x.2 then some ac.id else none }] })
  if m.kind = .store ∧ region pa ≠ .dev then
    if t.infl = [] then s.memDone m (m.stored c) else s.memQueue m (m.stored c) ac.id .done
  else s.memQueue m (if m.kind = .store then m.stored c else m.awaiting c ac.id) ac.id .waiting

/-- A watchpoint of the engine matches an access of thread `k` to words `va` to `va + n` (R601). -/
def State.wpHit (s : State) (k : Nat) (kind : AccKind) (va : Word) (n : Nat) : Option Nat :=
  (List.range 4).find? (fun i => match SMap.get none (s.en (k / 4)).wps i with
    | some p =>
      p.mask.testBit (k % 4) &&
      (match kind with
       | .load | .fetch => p.acc.testBit 0
       | .store => p.acc.testBit 1
       | .xchg => true) &&
      (List.range (n + 1)).any (fun j => decide ((va.toNat + j) / 2 ^ p.m = p.addr.toNat / 2 ^ p.m))
    | none => false)

/-- An access that matched a watchpoint asks its thread to halt with reason WATCH (R601). -/
def State.wpMark (s : State) (m : MemIns) (va : Word) : State :=
  match s.wpHit m.iss.k m.kind va (b2n m.pair) with
  | some i => s.mapTh m.iss.k (fun t => { t with haltReq := 3, haltIdx := i })
  | none => s

/-- The access of a memory instruction once issued: the checks of R92, then the memory port or the spine interface (R54, R58). -/
def State.memGo (s : State) (m : MemIns) : State :=
  let k := m.iss.k
  let va := s.memVa m
  let (s, r) := s.checkPair k m.kind m.pair va
  match r with
  | .error f => s.faultIns k m.iss.len f
  | .ok p =>
    let s := s.wpMark m va
    if (accWordsAt m.pair p).all (ownLocal (k / 4)) then s.memLocal m va p.1 p.2 else s.memSpine m va p.1 p.2

/-- A memory instruction after its issue: it takes its outcome from the replay entry it settles (R76), or makes its access. -/
def State.memBody (s : State) (m : MemIns) : State :=
  match s.settles m.iss.k m.kind m.pair (s.memVa m) with
  | some r =>
    let k := m.iss.k
    let s := s.mapTh k (fun t => { t with replay := t.replay.drop 1, settle := false })
    let c := (s.th k).ctx
    (match r.out with
     | .data d0 d1 => s.memDone m (if m.kind = .store then m.stored c else m.loaded c d0 d1)
     | .fault cs sec => s.faultIns k m.iss.len ⟨cs, m.kind, 0, r.ac.va + w24 (b2n sec)⟩
     | .wait => s)
  | none => (s.rplDrop m.iss.k).memGo m

/-- A MEMORY INSTRUCTION. -/
def State.memOp (s : State) (m : MemIns) : State :=
  if s.accBlocked m.iss.k m.kind m.pair (s.memVa m) then s.idleBeat m.iss.k
  else s.issue { m.iss with port := s.memPort m } (fun s => s.memBody m)

/-- A pair instruction's register field is odd (R100). -/
def oddReg (pair : Bool) (rd : Nat) : Bool := pair && decide (rd % 2 = 1)

/-- The registers a memory instruction reads: those of its address, and the data of a store or an xchg. -/
def memReads (kind : AccKind) (pair : Bool) (rd : Nat) (addr : List Nat) : List Nat :=
  if kind = .load then addr else if pair then rd :: (rd + 1) :: addr else rd :: addr

/-- The offset form (R99): EA = G[ra] + sext(imm10). -/
def State.memOff (s : State) (k maj rd ra : Nat) (imm : BitVec 10) (kind : AccKind) (pair : Bool) : State :=
  s.memOp { iss := Iss.memory k (encI maj rd ra imm.toNat) 1 (memReads kind pair rd [ra]) (oddReg pair rd)
            kind := kind, pair := pair, rd := rd, ea := fun c => c.rdG ra + sext10 imm, upd := none }

/-- The post-modify form (R99, R102): EA = G[ra], then G[ra] + sext(imm10); a load whose data destinations include ra is ILLEGAL. -/
def State.memPost (s : State) (k maj rd ra : Nat) (imm : BitVec 10) (kind : AccKind) (pair : Bool) : State :=
  let clash := decide (kind = .load) && decide (ra ≠ 0) && (decide (rd = ra) || (pair && decide (rd + 1 = ra)))
  s.memOp { iss := Iss.memory k (encI maj rd ra imm.toNat) 1 (memReads kind pair rd [ra]) (oddReg pair rd || clash)
            kind := kind, pair := pair, rd := rd, ea := fun c => c.rdG ra, upd := some (ra, sext10 imm) }

/-- The indexed form (R99): EA = G[ra] + G[rb]. -/
def State.memIdx (s : State) (k rd ra rb fn : Nat) (kind : AccKind) (pair : Bool) : State :=
  s.memOp { iss := Iss.memory k (encR 0x18 rd ra rb fn) 1 (memReads kind pair rd [ra, rb]) (oddReg pair rd)
            kind := kind, pair := pair, rd := rd, ea := fun c => c.rdG ra + c.rdG rb, upd := none }

/-- The long form (R99): EA = G[ra] + imm24. -/
def State.memLong (s : State) (k rd ra lop : Nat) (imm : Word) (kind : AccKind) (pair : Bool) : State :=
  s.memOp { iss := Iss.memory k (encL 0x3D rd ra lop) 2 (memReads kind pair rd [ra]) (oddReg pair rd)
            kind := kind, pair := pair, rd := rd, ea := fun c => c.rdG ra + imm, upd := none }

/-- R106. ld loads a word from G[ra] + simm10. -/
def execLd (k : Fin 512) (rd ra : Fin 16) (imm : BitVec 10) (s : State) : Out :=
  .next (s.memOff k 0x10 rd ra imm .load false)

/-- R106. st stores a word at G[ra] + simm10. -/
def execSt (k : Fin 512) (rd ra : Fin 16) (imm : BitVec 10) (s : State) : Out :=
  .next (s.memOff k 0x11 rd ra imm .store false)

/-- R100. ldp loads an aligned pair into an even register pair. -/
def execLdp (k : Fin 512) (rd ra : Fin 16) (imm : BitVec 10) (s : State) : Out :=
  .next (s.memOff k 0x12 rd ra imm .load true)

/-- R100. stp stores an even register pair as an aligned pair. -/
def execStp (k : Fin 512) (rd ra : Fin 16) (imm : BitVec 10) (s : State) : Out :=
  .next (s.memOff k 0x13 rd ra imm .store true)

/-- R102. Post-modify ld loads at G[ra] and then adds the immediate to G[ra]. -/
def execLdPostModify (k : Fin 512) (rd ra : Fin 16) (imm : BitVec 10) (s : State) : Out :=
  .next (s.memPost k 0x14 rd ra imm .load false)

/-- R102. Post-modify st stores at G[ra] and then updates G[ra]. -/
def execStPostModify (k : Fin 512) (rd ra : Fin 16) (imm : BitVec 10) (s : State) : Out :=
  .next (s.memPost k 0x15 rd ra imm .store false)

/-- R102. Post-modify ldp loads a pair at G[ra] and updates G[ra]. -/
def execLdpPostModify (k : Fin 512) (rd ra : Fin 16) (imm : BitVec 10) (s : State) : Out :=
  .next (s.memPost k 0x16 rd ra imm .load true)

/-- R102. Post-modify stp stores a pair at G[ra] and updates G[ra]. -/
def execStpPostModify (k : Fin 512) (rd ra : Fin 16) (imm : BitVec 10) (s : State) : Out :=
  .next (s.memPost k 0x17 rd ra imm .store true)

/-- R106. ldx loads a word at G[ra] + G[rb]. -/
def execLdx (k : Fin 512) (rd ra rb : Fin 16) (s : State) : Out :=
  .next (s.memIdx k rd ra rb 0x00 .load false)

/-- R106. stx stores a word at G[ra] + G[rb]. -/
def execStx (k : Fin 512) (rd ra rb : Fin 16) (s : State) : Out :=
  .next (s.memIdx k rd ra rb 0x01 .store false)

/-- R106. ldpx loads a pair at G[ra] + G[rb]. -/
def execLdpx (k : Fin 512) (rd ra rb : Fin 16) (s : State) : Out :=
  .next (s.memIdx k rd ra rb 0x02 .load true)

/-- R106. stpx stores a pair at G[ra] + G[rb]. -/
def execStpx (k : Fin 512) (rd ra rb : Fin 16) (s : State) : Out :=
  .next (s.memIdx k rd ra rb 0x03 .store true)

/-- R105. xchg atomically swaps G[rd] with the word at its address. -/
def execXchg (k : Fin 512) (rd ra : Fin 16) (imm : BitVec 10) (s : State) : Out :=
  .next (s.memOff k 0x19 rd ra imm .xchg false)

/-- R106. Long ld loads a word at G[ra] + imm24. -/
def execLdLong (k : Fin 512) (rd ra : Fin 16) (imm : BitVec 24) (s : State) : Out :=
  .next (s.memLong k rd ra 0x00 imm .load false)

/-- R106. Long st stores a word at G[ra] + imm24. -/
def execStLong (k : Fin 512) (rd ra : Fin 16) (imm : BitVec 24) (s : State) : Out :=
  .next (s.memLong k rd ra 0x01 imm .store false)

/-- R106. Long ldp loads a pair at G[ra] + imm24. -/
def execLdpLong (k : Fin 512) (rd ra : Fin 16) (imm : BitVec 24) (s : State) : Out :=
  .next (s.memLong k rd ra 0x02 imm .load true)

/-- R106. Long stp stores a pair at G[ra] + imm24. -/
def execStpLong (k : Fin 512) (rd ra : Fin 16) (imm : BitVec 24) (s : State) : Out :=
  .next (s.memLong k rd ra 0x03 imm .store true)

end Sys2Proof.Machine
end

