-- ==== Sys2Proof/Machine/Return.lean ====
section
/-!
DEFINITION. Returning from a level: retx (R144, R175, R176, R185) and cswap (R145–R147, R636).
-/

namespace Sys2Proof.Machine

/-- Replay entries of a deeper level than `d` are discarded and counted (R145, R175). -/
def State.replayCut (s : State) (k d : Nat) : State :=
  let t := s.th k
  let n := (t.replay.filter (fun r => decide (d < r.depth))).length
  let a := Reg.ENG_RPLDROP (k / 4)
  (s.sf a fullF (min (s.fl a fullF + n) 0xFFFFFF)).setTh k { t with replay := t.replay.filter (fun r => decide (r.depth ≤ d)) }

/-- The level `l` with its end-of-interrupt performed, if it was still live (R176): its active bit is cleared and EVI_CNT0.IMPEOI
counts. -/
def State.impEoi (s : State) (k : Nat) (l : Level) : State :=
  if l.live then (s.clearAct (k / 4) l).inc (Reg.EVI_CNT0 (k / 4)) Reg.EVI_CNT0_IMPEOI else s

/-- The return from level `l` to the levels `rest` (R175, R176): where the thread has a candidate that the restored running priority and
depth would accept, that interrupt is accepted in place of the return, with the state the return would have restored. -/
def State.leave (s : State) (k : Nat) (l : Level) (rest : List Level) : State :=
  let s := (s.impEoi k l).mapTh k (fun t => { t with postEoi := 0 })
  match s.candidate k with
  | some (n, p) =>
    if s.accepts k p rest && !(s.th k).stepping && decide ((s.th k).haltReq = 0) then
      let s := s.mapTh k (fun t => { t with levels := rest })
      let s := (s.loopCut k rest.length).replayCut k rest.length
      s.interrupt k n p (l.xpc, setF l.xst ⟨7, 4⟩ 0, l.xtgt)
    else s.restore k l rest
  | none => s.restore k l rest

/-- XST gives keeper privilege with a nonzero capsule ID, or capsule privilege with capsule 0 (R176). -/
def badXst (x : Word) : Bool := x.getLsbD 23 == decide (getBits x 22 13 ≠ 0)

/-- R144. retx removes the top level, with its end-of-interrupt if it is still live, and restores the saved state and binding. -/
def execRetx (k : Fin 512) (rd ra : Fin 16) (s : State) : Out :=
  .next (s.issue { Iss.system k (encX 0x39 rd ra 0x05) [] (decide (rd ≠ 0) || decide (ra ≠ 0)) with noSlot := true, noEnd := true }
    (fun s =>
      match (s.th k).levels with
      | [] => s.faultIns k 1 ⟨.stack, .fetch, 0, 3⟩
      | l :: rest =>
        if badXst l.xst then s.faultIns k 1 ⟨.illegal, .fetch, 0, encX 0x39 rd ra 0x05⟩
        else (s.leave k l rest).haltCheck k))

/-! ### cswap -/

/-- A save area lies wholly in engine local memory, cluster SRAM and global SRAM (R146). -/
def areaOk (a : Nat) : Bool := (List.range 144).all (fun i => sramRegion ((a + i) % 2 ^ 24))

/-- The areas of a cswap are refused: odd, overlapping, or outside the regions of R146 (R147). -/
def areasBad (out inn : Nat) : Bool :=
  decide (out % 2 = 1) || decide (inn % 2 = 1) || decide (out < inn + 144 ∧ inn < out + 144) || !areaOk out || !areaOk inn

/-- Words read from an in-area, in order, until one faults (R636.7). -/
def State.areaRead (s : State) (e base : Nat) : List Nat → SMap Word → State × Except FaultInfo (SMap Word)
  | [], m => (s, .ok m)
  | i :: r, m =>
    let a := (base + i) % 2 ^ 24
    if s.closed a then (s, .error ⟨.bus, .load, 0, w24 a⟩)
    else
      let (s, x) := s.memRead a 0 e
      match x with
      | none => (s, .error ⟨.ecc, .load, 0, w24 a⟩)
      | some w => s.areaRead e base r (SMap.set 0 m i w)

/-- A word of an area image. -/
abbrev areaW (m : SMap Word) (i : Nat) : Word := SMap.get 0 m i

/-- Reading the whole in-area: the fixed words, then the loop entries and replay entries that are present (R146). -/
def State.areaLoad (s : State) (e base : Nat) : State × Except FaultInfo (SMap Word) :=
  match s.areaRead e base (List.range 26) [] with
  | (s, .error f) => (s, .error f)
  | (s, .ok m) =>
    let d := min (areaW m 24).toNat 3
    let n := min (areaW m 25).toNat 16
    s.areaRead e base ((List.range (4 * d)).map (· + 26) ++ (List.range 10).map (· + 38) ++ (List.range (6 * n)).map (· + 48)) m

/-- The contents of an in-area are refused (R147). -/
def areaBad (m : SMap Word) : Bool :=
  let b := areaW m 43
  decide (3 < (areaW m 24).toNat) || decide (16 < (areaW m 25).toNat) || (b.getLsbD 23 == decide (getBits b 9 0 ≠ 0))

/-- The words of a replay entry in an area (R146). -/
def Replay.words (r : Replay) : List Word :=
  let st := decide (r.ac.kind = .store)
  let code := match r.out with
    | .fault .bus _ => 1
    | .fault .ecc _ => 2
    | .fault .perm _ => 3
    | _ => 0
  let d := match r.out with
    | .data a b => if st then (0, 0) else (a, if r.ac.pair then b else 0)
    | _ => ((0 : Word), (0 : Word))
  [r.ac.ia, r.ac.va, w24 (b2n r.ac.pair + 2 * r.depth + 64 * code + 256 * b2n st), d.1, d.2, 0]

/-- The replay entry an area holds at entry `j` (R146). The layout has no place for which word of a pair met a fault: it is taken as the first
(log entry 39: DESIGN CHOICE). -/
def areaReplay (m : SMap Word) (j : Nat) : Replay :=
  let w := fun i => areaW m (48 + 6 * j + i)
  let f := w 2
  { ac := { id := 0, k := 0, kind := if f.getLsbD 8 then .store else .load, pair := f.getLsbD 0, va := w 1, pa := 0, pa2 := 0, rd := 0
            d0 := 0, d1 := 0, ia := w 0, cid := 0, prv := false, ord := none, half := false }
    depth := getBits f 5 1
    out := match getBits f 7 6 with
      | 1 => .fault .bus false
      | 2 => .fault .ecc false
      | 3 => .fault .perm false
      | _ => .data (w 3) (w 4) }

/-- The three words of an accumulator in an area (R146). -/
def accWords (a : Acc) : List Word := [a.extractLsb' 0 24, a.extractLsb' 24 24, (a.extractLsb' 48 8).signExtend 24]

/-- The four words of a loop entry in an area (R146). -/
def LoopEnt.words (l : LoopEnt) : List Word := [l.count, l.start, l.stop, w24 l.tag]

/-- The save image of a thread in the handler of level `l` (R146), as (offset, word): the interrupted context. The binding word is the
one a return from the level would restore (log entry 20: DEDUCED). Entries are numbered from the oldest. -/
def Thread.image (t : Thread) (l : Level) : List (Nat × Word) :=
  let c := t.ctx
  let at_ := fun (b : Nat) (ws : List Word) => (List.range ws.length).map (fun i => (b + i, ws.getD i 0))
  at_ 0 ((List.range 16).map c.rdG) ++ at_ 16 (accWords c.a0) ++ [(19, c.astat)] ++ at_ 20 (accWords c.a1) ++
  [(23, w24 (b2n t.el)), (24, w24 c.loops.length), (25, w24 t.replay.length)] ++
  at_ 26 (c.loops.reverse.flatMap LoopEnt.words) ++
  at_ 38 [l.xpc, l.xst, l.xtgt, l.xcause, l.xaddr] ++
  at_ 43 [w24 (b2n (l.xst.getLsbD 23) * 2 ^ 23 + getBits l.xst 22 13), 0, 0, 0, 0] ++
  at_ 48 (t.replay.reverse.flatMap Replay.words)

/-- Words written to an out-area, in order, until one faults; what was written stays (R147, R636.10). -/
def State.areaStore (s : State) (base : Nat) : List (Nat × Word) → State × Option FaultInfo
  | [] => (s, none)
  | (i, w) :: r =>
    let a := (base + i) % 2 ^ 24
    if s.closed a then (s, some ⟨.bus, .store, 0, w24 a⟩) else (s.memWrite a w).areaStore base r

/-- The context an in-area holds, for a thread whose return depth is `d`: loop entries tagged deeper go (R145). -/
def areaCtx (m : SMap Word) (d : Nat) : Ctx :=
  let acc := fun i => (areaW m (i + 2)).extractLsb' 0 8 ++ (areaW m (i + 1)) ++ (areaW m i)
  let ent := fun j => ({ count := areaW m (26 + 4 * j), start := areaW m (27 + 4 * j), stop := areaW m (28 + 4 * j)
                         tag := getBits (areaW m (29 + 4 * j)) 4 0, owns := false } : LoopEnt)
  { g := (List.range 16).foldl (fun g i => if i = 0 then g else SMap.set 0 g i (areaW m i)) []
    a0 := acc 16, a1 := acc 20, sat := (areaW m 19).getLsbD 0, aov := (areaW m 19).getLsbD 1
    loops := ((List.range (areaW m 24).toNat).map ent).reverse.filter (fun l => decide (l.tag ≤ d))
    pc := 0, slot := none, pend := [], shadow := [], shPend := [] }

/-- The saved state of an in-area as the level cswap returns from, with the binding of +43 in XST (R145, R233). -/
def areaLevel (m : SMap Word) (l : Level) : Level :=
  let b := areaW m 43
  { l with xpc := areaW m 38, xst := setF (setF (areaW m 39) ⟨23, 23⟩ (b2n (b.getLsbD 23))) ⟨22, 13⟩ (getBits b 9 0)
           xtgt := areaW m 40, xcause := areaW m 41, xaddr := areaW m 42 }

/-- The context swap itself, after every check: the in-area's context replaces the thread's, and the thread returns from its top level
(R145). The allotment goes back where the capsule binding changes (R253); the thread epoch is the loaded capsule's (R233). -/
def State.areaSwap (s : State) (k : Nat) (m : SMap Word) (l : Level) (rest : List Level) : State :=
  let s := s.lbDo k .release
  let b := areaW m 43
  let t := s.th k
  let s := if t.al ≠ 0 ∧ ¬(b.getLsbD 23 = false ∧ getBits b 9 0 = t.alCid) then s.alReturn k else s
  let t := s.th k
  let l2 := areaLevel m l
  let n := (areaW m 25).toNat
  let s := s.setTh k { t with
    ctx := areaCtx m rest.length
    el := (areaW m 23).getLsbD 0
    replay := ((List.range n).map (areaReplay m)).reverse
    levels := l2 :: rest
    bind := { t.bind with tep := s.epoch (getBits b 9 0) } }
  (s.replayCut k rest.length).leave k l2 rest

/-- What a cswap meets before it writes anything: a fault, or the in-area's image (R636.6–8). -/
def State.cswapCheck (s : State) (k rd ra : Nat) (word : Word) : State × Except FaultInfo (SMap Word) :=
  let c := (s.th k).ctx
  if areasBad (c.rdG rd).toNat (c.rdG ra).toNat then (s, .error ⟨.illegal, .fetch, 0, word⟩)
  else match s.areaLoad (k / 4) (c.rdG ra).toNat with
    | (s, .error f) => (s, .error f)
    | (s, .ok m) => if areaBad m then (s, .error ⟨.illegal, .fetch, 0, word⟩) else (s, .ok m)

/-- The words of a save area. -/
def areaWords (a : Nat) : List Nat := (List.range 144).map (fun i => (a + i) % 2 ^ 24)

/-- cswap waits where an area lies outside the engine's own local memory and all four spine requests are in use, or an older store of the thread
to a word of an area has not been performed (R58, R104, R636); and, once every earlier check passes, for the outcome of a replay
entry (R78, R145.2). -/
def State.cswapWaits (s : State) (k rd ra : Nat) (word : Word) : Bool :=
  let t := s.th k
  let ws := areaWords (t.ctx.rdG rd).toNat ++ areaWords (t.ctx.rdG ra).toNat
  let rpl := if t.settle then t.replay.drop 1 else t.replay
  decide (t.levels ≠ []) && t.bind.prv && !areasBad (t.ctx.rdG rd).toNat (t.ctx.rdG ra).toNat &&
  ((decide (4 ≤ (s.en (k / 4)).spine.length) && !ws.all (ownLocal (k / 4))) || s.spineAtWords k ws ||
   (rpl.any (fun r => decide (r.out = .wait)) && (match (s.cswapCheck k rd ra word).2 with | .ok _ => true | .error _ => false)))

/-- The pair accesses of R153 to a save area at `a`, with `n` replay entries, are charged to the thread's reservation where it lies in global
SRAM (R222, R636). -/
def State.areaCharge (s : State) (k a n : Nat) : State := (List.range (24 + 3 * n)).foldl (fun s _ => s.ownerCharge (s.ownCid k) a) s

/-- R145. cswap checks an in-area, saves the thread's context to an out-area, loads the new context and returns. -/
def execCswap (k : Fin 512) (rd ra : Fin 16) (s : State) : Out :=
  let word := encX 0x39 rd ra 0x06
  .next (if s.cswapWaits k rd ra word then s.idleBeat k
    else s.issue { Iss.keeperOp k word [rd, ra] false with noSlot := true, noEnd := true } (fun s =>
      match (s.th k).levels with
      | [] => s.faultIns k 1 ⟨.stack, .fetch, 0, 3⟩
      | l :: rest =>
        match s.cswapCheck k rd ra word with
        | (s, .error f) => s.faultIns k 1 f
        | (s, .ok m) =>
          let t := s.th k
          let img := (t.image l).filter (fun p => decide (p.1 ≠ rd.val ∧ p.1 ≠ ra.val))
          let s := (s.areaCharge k (t.ctx.rdG ra).toNat (areaW m 25).toNat).areaCharge k (t.ctx.rdG rd).toNat t.replay.length
          match s.areaStore (t.ctx.rdG rd).toNat img with
          | (s, some f) => s.faultIns k 1 f
          | (s, none) => (s.areaSwap k m l rest).haltCheck k))

end Sys2Proof.Machine
end

