-- ==== Sys2Proof/Machine/Signal.lean ====
section
/-!
DEFINITION. The signal arithmetic: Q23 instructions, products, accumulator transfer, rounding, shifts and status (R120–R130).
-/

namespace Sys2Proof.Machine

/-- The accumulator aligned product P of two words (R125). -/
def prodQ (a b : Word) : Int := a.toInt * b.toInt * 2

/-- The integer product PI of two words (R125). -/
def prodI (a b : Word) : Int := a.toInt * b.toInt

/-- A Q23 saturating ALU instruction, major 0x34 (R121, R124). -/
def State.q23 (s : State) (k rd ra rb fn : Nat) (reads : List Nat) (bad : Bool) (op : Int → Int → Int) : State :=
  s.regOp (Iss.plain k (encR 0x34 rd ra rb fn) 1 reads bad) (fun c => c.wrSat rd (op (c.rdG ra).toInt (c.rdG rb).toInt))

/-- A product into an accumulator without saturation, major 0x35 (R126). `ac` above 1 is ILLEGAL (R120). -/
def State.prodSet (s : State) (k ac ra rb fn : Nat) (p : Word → Word → Int) : State :=
  s.regOp (Iss.plain k (encR 0x35 ac ra rb fn) 1 [ra, rb] (decide (1 < ac)))
    (fun c => c.wrA ac (BitVec.ofInt 56 (p (c.rdG ra) (c.rdG rb))))

/-- A product added to or subtracted from an accumulator with sat56, major 0x35 (R122, R126). -/
def State.prodAcc (s : State) (k ac ra rb fn : Nat) (p : Int → Word → Word → Int) : State :=
  s.regOp (Iss.plain k (encR 0x35 ac ra rb fn) 1 [ra, rb] (decide (1 < ac)))
    (fun c => c.wrSatA ac (p (c.rdA ac).toInt (c.rdG ra) (c.rdG rb)))

/-- An accumulator read into a register, major 0x36 (R127, R128). -/
def State.accRd (s : State) (k rd ac fn : Nat) (f : Ctx → Acc → Ctx) : State :=
  s.regOp (Iss.plain k (encX 0x36 rd ac fn) 1 [] (decide (1 < ac))) (fun c => f c (c.rdA ac))

/-- A register written into part of an accumulator, major 0x36 (R128). -/
def State.accWr (s : State) (k ac ra fn : Nat) (f : Acc → Word → Acc) : State :=
  s.regOp (Iss.plain k (encX 0x36 ac ra fn) 1 [ra] (decide (1 < ac))) (fun c => c.wrA ac (f (c.rdA ac) (c.rdG ra)))

/-- An accumulator computed from two accumulators with sat56, major 0x36 (R122, R128). -/
def State.accSat (s : State) (k ac ac2 fn : Nat) (f : Int → Int → Int) : State :=
  s.regOp (Iss.plain k (encX 0x36 ac ac2 fn) 1 [] (decide (1 < ac) || decide (1 < ac2)))
    (fun c => c.wrSatA ac (f (c.rdA ac).toInt (c.rdA ac2).toInt))

/-- rnd of R127: floor((A + 2^23) / 2^24). -/
def rndUp (a : Int) : Int := (a + 2 ^ 23) / 2 ^ 24

/-- rndc of R127: A / 2^24 to the nearest integer, ties to the even one. -/
def rndEven (a : Int) : Int :=
  let f := a / 2 ^ 24
  let r := a % 2 ^ 24
  if r < 2 ^ 23 then f else if 2 ^ 23 < r then f + 1 else if f % 2 = 0 then f else f + 1

/-- `x` × 2^n, a right shift taking the floor (R130). -/
def scale2 (x n : Int) : Int := if 0 ≤ n then x * 2 ^ n.toNat else x / 2 ^ (-n).toNat

/-- rnds of R130: floor((A × 2^n + 2^23) / 2^24), computed exactly. -/
def rndScaled (a n : Int) : Int :=
  if 0 ≤ n then (a * 2 ^ n.toNat + 2 ^ 23) / 2 ^ 24 else (a + 2 ^ (23 + (-n).toNat)) / 2 ^ (24 + (-n).toNat)

/-- R124. adds adds with Q23 saturation. -/
def execAdds (k : Fin 512) (rd ra rb : Fin 16) (s : State) : Out :=
  .next (s.q23 k rd ra rb 0x00 [ra, rb] false (fun a b => a + b))

/-- R124. subs subtracts with Q23 saturation. -/
def execSubs (k : Fin 512) (rd ra rb : Fin 16) (s : State) : Out :=
  .next (s.q23 k rd ra rb 0x01 [ra, rb] false (fun a b => a - b))

/-- R124. negs negates with saturation. -/
def execNegs (k : Fin 512) (rd ra rb : Fin 16) (s : State) : Out :=
  .next (s.q23 k rd ra rb 0x02 [rb] (decide (ra ≠ 0)) (fun _ b => -b))

/-- R124. abss takes the saturated absolute value. -/
def execAbss (k : Fin 512) (rd ra rb : Fin 16) (s : State) : Out :=
  .next (s.q23 k rd ra rb 0x03 [ra] (decide (rb ≠ 0)) (fun a _ => (a.natAbs : Int)))

/-- R124. mulr forms the rounded, saturated Q23 product. -/
def execMulr (k : Fin 512) (rd ra rb : Fin 16) (s : State) : Out :=
  .next (s.q23 k rd ra rb 0x04 [ra, rb] false (fun a b => (a * b + 2 ^ 22) / 2 ^ 23))

/-- R124. clip limits G[ra] to ±|G[rb]|. -/
def execClip (k : Fin 512) (rd ra rb : Fin 16) (s : State) : Out :=
  .next (s.q23 k rd ra rb 0x05 [ra, rb] false (fun a b => max (-(satQ (b.natAbs : Int))) (min (satQ (b.natAbs : Int)) a)))

/-- R124. shls shifts left with saturation. -/
def execShls (k : Fin 512) (rd ra rb : Fin 16) (s : State) : Out :=
  .next (s.regOp (Iss.plain k (encR 0x34 rd ra rb 0x06) 1 [ra, rb] false)
    (fun c => c.wrSat rd ((c.rdG ra).toInt * 2 ^ ((c.rdG rb).toNat % 32))))

/-- R126. mpy sets an accumulator to the aligned product. -/
def execMpy (k : Fin 512) (ac ra rb : Fin 16) (s : State) : Out :=
  .next (s.prodSet k ac ra rb 0x00 prodQ)

/-- R126. mac adds the aligned product with sat56. -/
def execMac (k : Fin 512) (ac ra rb : Fin 16) (s : State) : Out :=
  .next (s.prodAcc k ac ra rb 0x01 (fun a x y => a + prodQ x y))

/-- R126. msu subtracts the aligned product with sat56. -/
def execMsu (k : Fin 512) (ac ra rb : Fin 16) (s : State) : Out :=
  .next (s.prodAcc k ac ra rb 0x02 (fun a x y => a - prodQ x y))

/-- R126. mpyi sets an accumulator to the integer product. -/
def execMpyi (k : Fin 512) (ac ra rb : Fin 16) (s : State) : Out :=
  .next (s.prodSet k ac ra rb 0x03 prodI)

/-- R126. maci adds the integer product with sat56. -/
def execMaci (k : Fin 512) (ac ra rb : Fin 16) (s : State) : Out :=
  .next (s.prodAcc k ac ra rb 0x04 (fun a x y => a + prodI x y))

/-- R127. rnd rounds an accumulator half up to a saturated Q23 word. -/
def execRnd (k : Fin 512) (rd ac : Fin 16) (s : State) : Out :=
  .next (s.accRd k rd ac 0x00 (fun c a => c.wrSat rd (rndUp a.toInt)))

/-- R127. rndc rounds to nearest even. -/
def execRndc (k : Fin 512) (rd ac : Fin 16) (s : State) : Out :=
  .next (s.accRd k rd ac 0x01 (fun c a => c.wrSat rd (rndEven a.toInt)))

/-- R127. trn truncates an accumulator to Q23. -/
def execTrn (k : Fin 512) (rd ac : Fin 16) (s : State) : Out :=
  .next (s.accRd k rd ac 0x02 (fun c a => c.wrSat rd (a.toInt / 2 ^ 24)))

/-- R128. mfah reads accumulator bits [47:24]. -/
def execMfah (k : Fin 512) (rd ac : Fin 16) (s : State) : Out :=
  .next (s.accRd k rd ac 0x03 (fun c a => c.wrG rd (a.extractLsb' 24 24)))

/-- R128. mfal reads accumulator bits [23:0]. -/
def execMfal (k : Fin 512) (rd ac : Fin 16) (s : State) : Out :=
  .next (s.accRd k rd ac 0x04 (fun c a => c.wrG rd (a.extractLsb' 0 24)))

/-- R128. mfag reads the guard bits sign-extended. -/
def execMfag (k : Fin 512) (rd ac : Fin 16) (s : State) : Out :=
  .next (s.accRd k rd ac 0x05 (fun c a => c.wrG rd ((a.extractLsb' 48 8).signExtend 24)))

/-- R128. mtah loads an accumulator with the Q23 value of G[ra]. -/
def execMtah (k : Fin 512) (ac ra : Fin 16) (s : State) : Out :=
  .next (s.accWr k ac ra 0x06 (fun _ w => BitVec.ofInt 56 (w.toInt * 2 ^ 24)))

/-- R128. mtal writes accumulator bits [23:0]. -/
def execMtal (k : Fin 512) (ac ra : Fin 16) (s : State) : Out :=
  .next (s.accWr k ac ra 0x07 (fun a w => (a.extractLsb' 24 32 ++ w)))

/-- R128. mtag writes the guard bits. -/
def execMtag (k : Fin 512) (ac ra : Fin 16) (s : State) : Out :=
  .next (s.accWr k ac ra 0x08 (fun a w => (w.extractLsb' 0 8 ++ a.extractLsb' 0 48)))

/-- R128. clra clears an accumulator. A nonzero ra field is ILLEGAL. -/
def execClra (k : Fin 512) (ac ra : Fin 16) (s : State) : Out :=
  .next (s.regOp (Iss.plain k (encX 0x36 ac ra 0x09) 1 [] (decide (1 < ac.val) || decide (ra ≠ 0))) (fun c => c.wrA ac 0))

/-- R128. adda adds accumulators with sat56. -/
def execAdda (k : Fin 512) (ac ac2 : Fin 16) (s : State) : Out :=
  .next (s.accSat k ac ac2 0x0A (fun a b => a + b))

/-- R128. suba subtracts accumulators with sat56. -/
def execSuba (k : Fin 512) (ac ac2 : Fin 16) (s : State) : Out :=
  .next (s.accSat k ac ac2 0x0B (fun a b => a - b))

/-- R128. mova copies an accumulator. -/
def execMova (k : Fin 512) (ac ac2 : Fin 16) (s : State) : Out :=
  .next (s.regOp (Iss.plain k (encX 0x36 ac ac2 0x0C) 1 [] (decide (1 < ac.val) || decide (1 < ac2.val)))
    (fun c => c.wrA ac (c.rdA ac2)))

/-- R128. nega negates an accumulator with sat56. -/
def execNega (k : Fin 512) (ac ac2 : Fin 16) (s : State) : Out :=
  .next (s.accSat k ac ac2 0x0D (fun _ b => -b))

/-- R128. absa takes an accumulator's absolute value with sat56. -/
def execAbsa (k : Fin 512) (ac ac2 : Fin 16) (s : State) : Out :=
  .next (s.accSat k ac ac2 0x0E (fun _ b => (b.natAbs : Int)))

/-- R129. mfas reads ASTAT. A nonzero ra field is ILLEGAL. -/
def execMfas (k : Fin 512) (rd ra : Fin 16) (s : State) : Out :=
  .next (s.regOp (Iss.plain k (encX 0x36 rd ra 0x0F) 1 [] (decide (ra ≠ 0))) (fun c => c.wrG rd c.astat))

/-- R129. mtas writes ASTAT's SAT and AOV bits. A nonzero rd field is ILLEGAL. -/
def execMtas (k : Fin 512) (rd ra : Fin 16) (s : State) : Out :=
  .next (s.regOp (Iss.plain k (encX 0x36 rd ra 0x10) 1 [ra] (decide (rd ≠ 0)))
    (fun c => { c with sat := (c.rdG ra).getLsbD 0, aov := (c.rdG ra).getLsbD 1 }))

/-- R130. asha shifts an accumulator arithmetically with sat56. A shift outside −48 to +48 is ILLEGAL. -/
def execAsha (k : Fin 512) (ac ac2 : Fin 16) (n : BitVec 7) (s : State) : Out :=
  .next (s.regOp (Iss.plain k (encI 0x37 ac ac2 n.toNat) 1 []
      (decide (1 < ac.val) || decide (1 < ac2.val) || decide (n.toInt < -48) || decide (48 < n.toInt)))
    (fun c => c.wrSatA ac (scale2 (c.rdA ac2).toInt n.toInt)))

/-- R130. rnds scales, rounds and saturates an accumulator to Q23. A shift outside −24 to +24 is ILLEGAL. -/
def execRnds (k : Fin 512) (rd ac : Fin 16) (n : BitVec 7) (s : State) : Out :=
  .next (s.regOp (Iss.plain k (encI 0x37 rd ac (128 + n.toNat)) 1 []
      (decide (1 < ac.val) || decide (n.toInt < -24) || decide (24 < n.toInt)))
    (fun c => c.wrSat rd (rndScaled (c.rdA ac).toInt n.toInt)))

end Sys2Proof.Machine
end

