-- ==== Sys2Proof/Machine/Dispatch.lean ====
section
/-!
DEFINITION. The dispatch: one arm for every command, each a direct call of the command's meaning.
-/

namespace Sys2Proof.Machine

/-- What a command does. -/
def exec (i : Instr) (s : State) : Host.Outcome State Fault Refusal :=
  match i with
  | .registerWrite who a v => Sys2Proof.Machine.execRegisterWrite who a v s
  | .analogSettingTransfer a ok => Sys2Proof.Machine.execAnalogSettingTransfer a ok s
  | .registerAccessTimeout e i0 => Sys2Proof.Machine.execRegisterAccessTimeout e i0 s
  | .heartbeatLoss => Sys2Proof.Machine.execHeartbeatLoss s
  | .heartbeatResume expected => Sys2Proof.Machine.execHeartbeatResume expected s
  | .islandEventCrossing ev => Sys2Proof.Machine.execIslandEventCrossing ev s
  | .routerDelivery ev => Sys2Proof.Machine.execRouterDelivery ev s
  | .evrForce v => Sys2Proof.Machine.execEvrForce v s
  | .fetch k upset => Sys2Proof.Machine.execFetch k upset s
  | .accessComplete e i0 ok tck => Sys2Proof.Machine.execAccessComplete e i0 ok tck s
  | .replayOutcomeArrival e i0 ok tck => Sys2Proof.Machine.execReplayOutcomeArrival e i0 ok tck s
  | .threadEnable k => Sys2Proof.Machine.execThreadEnable k s
  | .threadDisable k => Sys2Proof.Machine.execThreadDisable k s
  | .threadStopComplete k => Sys2Proof.Machine.execThreadStopComplete k s
  | .lbctlWrite e v => Sys2Proof.Machine.execLbctlWrite e v s
  | .add k rd ra rb => Sys2Proof.Machine.execAdd k rd ra rb s
  | .sub k rd ra rb => Sys2Proof.Machine.execSub k rd ra rb s
  | .and k rd ra rb => Sys2Proof.Machine.execAnd k rd ra rb s
  | .or k rd ra rb => Sys2Proof.Machine.execOr k rd ra rb s
  | .xor k rd ra rb => Sys2Proof.Machine.execXor k rd ra rb s
  | .andn k rd ra rb => Sys2Proof.Machine.execAndn k rd ra rb s
  | .nor k rd ra rb => Sys2Proof.Machine.execNor k rd ra rb s
  | .slt k rd ra rb => Sys2Proof.Machine.execSlt k rd ra rb s
  | .sltu k rd ra rb => Sys2Proof.Machine.execSltu k rd ra rb s
  | .sll k rd ra rb => Sys2Proof.Machine.execSll k rd ra rb s
  | .srl k rd ra rb => Sys2Proof.Machine.execSrl k rd ra rb s
  | .sra k rd ra rb => Sys2Proof.Machine.execSra k rd ra rb s
  | .rol k rd ra rb => Sys2Proof.Machine.execRol k rd ra rb s
  | .min k rd ra rb => Sys2Proof.Machine.execMin k rd ra rb s
  | .max k rd ra rb => Sys2Proof.Machine.execMax k rd ra rb s
  | .minu k rd ra rb => Sys2Proof.Machine.execMinu k rd ra rb s
  | .maxu k rd ra rb => Sys2Proof.Machine.execMaxu k rd ra rb s
  | .mul k rd ra rb => Sys2Proof.Machine.execMul k rd ra rb s
  | .mulhs k rd ra rb => Sys2Proof.Machine.execMulhs k rd ra rb s
  | .mulhu k rd ra rb => Sys2Proof.Machine.execMulhu k rd ra rb s
  | .clz k rd ra rb => Sys2Proof.Machine.execClz k rd ra rb s
  | .addi k rd ra imm => Sys2Proof.Machine.execAddi k rd ra imm s
  | .andi k rd ra imm => Sys2Proof.Machine.execAndi k rd ra imm s
  | .ori k rd ra imm => Sys2Proof.Machine.execOri k rd ra imm s
  | .xori k rd ra imm => Sys2Proof.Machine.execXori k rd ra imm s
  | .slti k rd ra imm => Sys2Proof.Machine.execSlti k rd ra imm s
  | .sltiu k rd ra imm => Sys2Proof.Machine.execSltiu k rd ra imm s
  | .slli k rd ra n => Sys2Proof.Machine.execSlli k rd ra n s
  | .srli k rd ra n => Sys2Proof.Machine.execSrli k rd ra n s
  | .srai k rd ra n => Sys2Proof.Machine.execSrai k rd ra n s
  | .roli k rd ra n => Sys2Proof.Machine.execRoli k rd ra n s
  | .lui k rd imm => Sys2Proof.Machine.execLui k rd imm s
  | .extu k rd ra pos len1 => Sys2Proof.Machine.execExtu k rd ra pos len1 s
  | .exts k rd ra pos len1 => Sys2Proof.Machine.execExts k rd ra pos len1 s
  | .ins k rd ra pos len1 => Sys2Proof.Machine.execIns k rd ra pos len1 s
  | .li k rd ra imm => Sys2Proof.Machine.execLi k rd ra imm s
  | .addl k rd ra imm => Sys2Proof.Machine.execAddl k rd ra imm s
  | .andl k rd ra imm => Sys2Proof.Machine.execAndl k rd ra imm s
  | .orl k rd ra imm => Sys2Proof.Machine.execOrl k rd ra imm s
  | .xorl k rd ra imm => Sys2Proof.Machine.execXorl k rd ra imm s
  | .sltl k rd ra imm => Sys2Proof.Machine.execSltl k rd ra imm s
  | .sltul k rd ra imm => Sys2Proof.Machine.execSltul k rd ra imm s
  | .ld k rd ra imm => Sys2Proof.Machine.execLd k rd ra imm s
  | .st k rd ra imm => Sys2Proof.Machine.execSt k rd ra imm s
  | .ldp k rd ra imm => Sys2Proof.Machine.execLdp k rd ra imm s
  | .stp k rd ra imm => Sys2Proof.Machine.execStp k rd ra imm s
  | .ldPostModify k rd ra imm => Sys2Proof.Machine.execLdPostModify k rd ra imm s
  | .stPostModify k rd ra imm => Sys2Proof.Machine.execStPostModify k rd ra imm s
  | .ldpPostModify k rd ra imm => Sys2Proof.Machine.execLdpPostModify k rd ra imm s
  | .stpPostModify k rd ra imm => Sys2Proof.Machine.execStpPostModify k rd ra imm s
  | .ldx k rd ra rb => Sys2Proof.Machine.execLdx k rd ra rb s
  | .stx k rd ra rb => Sys2Proof.Machine.execStx k rd ra rb s
  | .ldpx k rd ra rb => Sys2Proof.Machine.execLdpx k rd ra rb s
  | .stpx k rd ra rb => Sys2Proof.Machine.execStpx k rd ra rb s
  | .xchg k rd ra imm => Sys2Proof.Machine.execXchg k rd ra imm s
  | .ldLong k rd ra imm => Sys2Proof.Machine.execLdLong k rd ra imm s
  | .stLong k rd ra imm => Sys2Proof.Machine.execStLong k rd ra imm s
  | .ldpLong k rd ra imm => Sys2Proof.Machine.execLdpLong k rd ra imm s
  | .stpLong k rd ra imm => Sys2Proof.Machine.execStpLong k rd ra imm s
  | .beq k ra rb disp => Sys2Proof.Machine.execBeq k ra rb disp s
  | .bne k ra rb disp => Sys2Proof.Machine.execBne k ra rb disp s
  | .blt k ra rb disp => Sys2Proof.Machine.execBlt k ra rb disp s
  | .bge k ra rb disp => Sys2Proof.Machine.execBge k ra rb disp s
  | .bltu k ra rb disp => Sys2Proof.Machine.execBltu k ra rb disp s
  | .bgeu k ra rb disp => Sys2Proof.Machine.execBgeu k ra rb disp s
  | .beqi k ra imm disp => Sys2Proof.Machine.execBeqi k ra imm disp s
  | .bnei k ra imm disp => Sys2Proof.Machine.execBnei k ra imm disp s
  | .blti k ra imm disp => Sys2Proof.Machine.execBlti k ra imm disp s
  | .bgei k ra imm disp => Sys2Proof.Machine.execBgei k ra imm disp s
  | .bltui k ra imm disp => Sys2Proof.Machine.execBltui k ra imm disp s
  | .bgeui k ra imm disp => Sys2Proof.Machine.execBgeui k ra imm disp s
  | .beqLong k ra rb target => Sys2Proof.Machine.execBeqLong k ra rb target s
  | .bneLong k ra rb target => Sys2Proof.Machine.execBneLong k ra rb target s
  | .bltLong k ra rb target => Sys2Proof.Machine.execBltLong k ra rb target s
  | .bgeLong k ra rb target => Sys2Proof.Machine.execBgeLong k ra rb target s
  | .bltuLong k ra rb target => Sys2Proof.Machine.execBltuLong k ra rb target s
  | .bgeuLong k ra rb target => Sys2Proof.Machine.execBgeuLong k ra rb target s
  | .j k disp => Sys2Proof.Machine.execJ k disp s
  | .call k disp => Sys2Proof.Machine.execCall k disp s
  | .jr k rd ra => Sys2Proof.Machine.execJr k rd ra s
  | .callr k rd ra => Sys2Proof.Machine.execCallr k rd ra s
  | .jl k rd ra target => Sys2Proof.Machine.execJl k rd ra target s
  | .calll k rd ra target => Sys2Proof.Machine.execCalll k rd ra target s
  | .loop k ra off => Sys2Proof.Machine.execLoop k ra off s
  | .loopi k cnt off => Sys2Proof.Machine.execLoopi k cnt off s
  | .lpop k rd ra => Sys2Proof.Machine.execLpop k rd ra s
  | .mflLc k rd ra => Sys2Proof.Machine.execMflLc k rd ra s
  | .mflLs k rd ra => Sys2Proof.Machine.execMflLs k rd ra s
  | .mflLe k rd ra => Sys2Proof.Machine.execMflLe k rd ra s
  | .mtlLc k rd ra => Sys2Proof.Machine.execMtlLc k rd ra s
  | .ldepth k rd ra => Sys2Proof.Machine.execLdepth k rd ra s
  | .adds k rd ra rb => Sys2Proof.Machine.execAdds k rd ra rb s
  | .subs k rd ra rb => Sys2Proof.Machine.execSubs k rd ra rb s
  | .negs k rd ra rb => Sys2Proof.Machine.execNegs k rd ra rb s
  | .abss k rd ra rb => Sys2Proof.Machine.execAbss k rd ra rb s
  | .mulr k rd ra rb => Sys2Proof.Machine.execMulr k rd ra rb s
  | .clip k rd ra rb => Sys2Proof.Machine.execClip k rd ra rb s
  | .shls k rd ra rb => Sys2Proof.Machine.execShls k rd ra rb s
  | .mpy k ac ra rb => Sys2Proof.Machine.execMpy k ac ra rb s
  | .mac k ac ra rb => Sys2Proof.Machine.execMac k ac ra rb s
  | .msu k ac ra rb => Sys2Proof.Machine.execMsu k ac ra rb s
  | .mpyi k ac ra rb => Sys2Proof.Machine.execMpyi k ac ra rb s
  | .maci k ac ra rb => Sys2Proof.Machine.execMaci k ac ra rb s
  | .rnd k rd ac => Sys2Proof.Machine.execRnd k rd ac s
  | .rndc k rd ac => Sys2Proof.Machine.execRndc k rd ac s
  | .trn k rd ac => Sys2Proof.Machine.execTrn k rd ac s
  | .mfah k rd ac => Sys2Proof.Machine.execMfah k rd ac s
  | .mfal k rd ac => Sys2Proof.Machine.execMfal k rd ac s
  | .mfag k rd ac => Sys2Proof.Machine.execMfag k rd ac s
  | .mtah k ac ra => Sys2Proof.Machine.execMtah k ac ra s
  | .mtal k ac ra => Sys2Proof.Machine.execMtal k ac ra s
  | .mtag k ac ra => Sys2Proof.Machine.execMtag k ac ra s
  | .clra k ac ra => Sys2Proof.Machine.execClra k ac ra s
  | .adda k ac ac2 => Sys2Proof.Machine.execAdda k ac ac2 s
  | .suba k ac ac2 => Sys2Proof.Machine.execSuba k ac ac2 s
  | .mova k ac ac2 => Sys2Proof.Machine.execMova k ac ac2 s
  | .nega k ac ac2 => Sys2Proof.Machine.execNega k ac ac2 s
  | .absa k ac ac2 => Sys2Proof.Machine.execAbsa k ac ac2 s
  | .mfas k rd ra => Sys2Proof.Machine.execMfas k rd ra s
  | .mtas k rd ra => Sys2Proof.Machine.execMtas k rd ra s
  | .asha k ac ac2 n => Sys2Proof.Machine.execAsha k ac ac2 n s
  | .rnds k rd ac n => Sys2Proof.Machine.execRnds k rd ac n s
  | .div k rd ra rb => Sys2Proof.Machine.execDiv k rd ra rb s
  | .divu k rd ra rb => Sys2Proof.Machine.execDivu k rd ra rb s
  | .rem k rd ra rb => Sys2Proof.Machine.execRem k rd ra rb s
  | .remu k rd ra rb => Sys2Proof.Machine.execRemu k rd ra rb s
  | .divq k rd ra rb => Sys2Proof.Machine.execDivq k rd ra rb s
  | .wfe k rd ra => Sys2Proof.Machine.execWfe k rd ra s
  | .waitt k rd ra => Sys2Proof.Machine.execWaitt k rd ra s
  | .waittTargetReached k => Sys2Proof.Machine.execWaittTargetReached k s
  | .rdt k rd ra => Sys2Proof.Machine.execRdt k rd ra s
  | .sync k rd ra => Sys2Proof.Machine.execSync k rd ra s
  | .syncComplete k => Sys2Proof.Machine.execSyncComplete k s
  | .fence k rd ra => Sys2Proof.Machine.execFence k rd ra s
  | .fenceComplete k => Sys2Proof.Machine.execFenceComplete k s
  | .retx k rd ra => Sys2Proof.Machine.execRetx k rd ra s
  | .cswap k rd ra => Sys2Proof.Machine.execCswap k rd ra s
  | .tcia k rd ra => Sys2Proof.Machine.execTcia k rd ra s
  | .tcic k rd ra => Sys2Proof.Machine.execTcic k rd ra s
  | .tcip k rd ra => Sys2Proof.Machine.execTcip k rd ra s
  | .btcia k rd ra => Sys2Proof.Machine.execBtcia k rd ra s
  | .btcic k rd ra => Sys2Proof.Machine.execBtcic k rd ra s
  | .btcip k rd ra => Sys2Proof.Machine.execBtcip k rd ra s
  | .sev k ra imm => Sys2Proof.Machine.execSev k ra imm s
  | .sevl k ra imm => Sys2Proof.Machine.execSevl k ra imm s
  | .callk k ra n => Sys2Proof.Machine.execCallk k ra n s
  | .ckpt k ra imm => Sys2Proof.Machine.execCkpt k ra imm s
  | .ckptDrain e => Sys2Proof.Machine.execCkptDrain e s
  | .eventArrival e n => Sys2Proof.Machine.execEventArrival e n s
  | .coalesceTimeLimit e n => Sys2Proof.Machine.execCoalesceTimeLimit e n s
  | .pendWrite e w v => Sys2Proof.Machine.execPendWrite e w v s
  | .eviHoldSet e => Sys2Proof.Machine.execEviHoldSet e s
  | .eviHoldRelease e => Sys2Proof.Machine.execEviHoldRelease e s
  | .eviHoldTimeout e => Sys2Proof.Machine.execEviHoldTimeout e s
  | .wakeDelivery e n => Sys2Proof.Machine.execWakeDelivery e n s
  | .interruptAccept k => Sys2Proof.Machine.execInterruptAccept k s
  | .exceptionEntry k c acc lvl addr => Sys2Proof.Machine.execExceptionEntry k c acc lvl addr s
  | .claim e who => Sys2Proof.Machine.execClaim e who s
  | .eoi e who v => Sys2Proof.Machine.execEoi e who v s
  | .scrubStep => Sys2Proof.Machine.execScrubStep s
  | .mramWordWrite i0 ok => Sys2Proof.Machine.execMramWordWrite i0 ok s
  | .mrmark => Sys2Proof.Machine.execMrmark s
  | .tableWalk k kind va upset => Sys2Proof.Machine.execTableWalk k kind va upset s
  | .reservationRequest v => Sys2Proof.Machine.execReservationRequest v s
  | .tokenRefill => Sys2Proof.Machine.execTokenRefill s
  | .memcPromotion e n => Sys2Proof.Machine.execMemcPromotion e n s
  | .hotbank b => Sys2Proof.Machine.execHotbank b s
  | .hallmark c => Sys2Proof.Machine.execHallmark c s
  | .hallmarkComplete => Sys2Proof.Machine.execHallmarkComplete s
  | .load c => Sys2Proof.Machine.execLoad c s
  | .suspend c => Sys2Proof.Machine.execSuspend c s
  | .resume c => Sys2Proof.Machine.execResume c s
  | .epoch c => Sys2Proof.Machine.execEpoch c s
  | .retire c => Sys2Proof.Machine.execRetire c s
  | .retireComplete => Sys2Proof.Machine.execRetireComplete s
  | .kswitch c => Sys2Proof.Machine.execKswitch c s
  | .refill c => Sys2Proof.Machine.execRefill c s
  | .budgetChunk k => Sys2Proof.Machine.execBudgetChunk k s
  | .budgetExhausted k => Sys2Proof.Machine.execBudgetExhausted k s
  | .periodBoundary c => Sys2Proof.Machine.execPeriodBoundary c s
  | .budgetPromotion c => Sys2Proof.Machine.execBudgetPromotion c s
  | .probe v => Sys2Proof.Machine.execProbe v s
  | .strandPush who i0 v va => Sys2Proof.Machine.execStrandPush who i0 v va s
  | .strandFullTimeout i0 e p => Sys2Proof.Machine.execStrandFullTimeout i0 e p s
  | .strandPop who i0 va => Sys2Proof.Machine.execStrandPop who i0 va s
  | .payloadReadTimeout i0 e p => Sys2Proof.Machine.execPayloadReadTimeout i0 e p s
  | .packetLockTimeout i0 => Sys2Proof.Machine.execPacketLockTimeout i0 s
  | .strandItemAtHead i0 => Sys2Proof.Machine.execStrandItemAtHead i0 s
  | .strandConfig i0 v => Sys2Proof.Machine.execStrandConfig i0 v s
  | .strandFlush i0 => Sys2Proof.Machine.execStrandFlush i0 s
  | .endpointPcidWrite i0 v => Sys2Proof.Machine.execEndpointPcidWrite i0 v s
  | .landingHeader u => Sys2Proof.Machine.execLandingHeader u s
  | .landingPayloadWrite u => Sys2Proof.Machine.execLandingPayloadWrite u s
  | .checkpointComplete u => Sys2Proof.Machine.execCheckpointComplete u s
  | .bridgeQueueToStrand q => Sys2Proof.Machine.execBridgeQueueToStrand q s
  | .claspBridgeQueueWrite q => Sys2Proof.Machine.execClaspBridgeQueueWrite q s
  | .precSample n r ovl lead age => Sys2Proof.Machine.execPrecSample n r ovl lead age s
  | .precRestart n isExc v => Sys2Proof.Machine.execPrecRestart n isExc v s
  | .exsetWaitEnd n => Sys2Proof.Machine.execExsetWaitEnd n s
  | .precSync v => Sys2Proof.Machine.execPrecSync v s
  | .swapRequest n => Sys2Proof.Machine.execSwapRequest n s
  | .precWref n b i0 v => Sys2Proof.Machine.execPrecWref n b i0 v s
  | .precStale n => Sys2Proof.Machine.execPrecStale n s
  | .coldJunctionReading v => Sys2Proof.Machine.execColdJunctionReading v s
  | .precBexlim k => Sys2Proof.Machine.execPrecBexlim k s
  | .bandgapComparison d0 d1 d2 diff => Sys2Proof.Machine.execBandgapComparison d0 d1 d2 diff s
  | .bandgapStateWrite v => Sys2Proof.Machine.execBandgapStateWrite v s
  | .xingCrossing n up age => Sys2Proof.Machine.execXingCrossing n up age s
  | .minivIntervalEnd n => Sys2Proof.Machine.execMinivIntervalEnd n s
  | .xingAcquire n => Sys2Proof.Machine.execXingAcquire n s
  | .acquisitionDone n level => Sys2Proof.Machine.execAcquisitionDone n level s
  | .xingQuiet n ok => Sys2Proof.Machine.execXingQuiet n ok s
  | .sarTrigger k => Sys2Proof.Machine.execSarTrigger k s
  | .sarSwtrig v => Sys2Proof.Machine.execSarSwtrig v s
  | .sarStepDone k us age => Sys2Proof.Machine.execSarStepDone k us age s
  | .sarStale k => Sys2Proof.Machine.execSarStale k s
  | .pulseEdge n level age => Sys2Proof.Machine.execPulseEdge n level age s
  | .pulseGlitch n => Sys2Proof.Machine.execPulseGlitch n s
  | .pulseIntervalEnd n => Sys2Proof.Machine.execPulseIntervalEnd n s
  | .pulseStale n => Sys2Proof.Machine.execPulseStale n s
  | .condResult k g lim => Sys2Proof.Machine.execCondResult k g lim s
  | .condStale k => Sys2Proof.Machine.execCondStale k s
  | .claspCommand i0 late => Sys2Proof.Machine.execClaspCommand i0 late s
  | .keeperCommand out v => Sys2Proof.Machine.execKeeperCommand out v s
  | .claspTick => Sys2Proof.Machine.execClaspTick s
  | .refreshWatchdogExpiry o => Sys2Proof.Machine.execRefreshWatchdogExpiry o s
  | .energyLimit o => Sys2Proof.Machine.execEnergyLimit o s
  | .arm o => Sys2Proof.Machine.execArm o s
  | .disarm o => Sys2Proof.Machine.execDisarm o s
  | .ruleTrip r => Sys2Proof.Machine.execRuleTrip r s
  | .ruleRelease r => Sys2Proof.Machine.execRuleRelease r s
  | .claspHoldSet j => Sys2Proof.Machine.execClaspHoldSet j s
  | .claspHoldRelease j => Sys2Proof.Machine.execClaspHoldRelease j s
  | .claspHoldTimeout j => Sys2Proof.Machine.execClaspHoldTimeout j s
  | .claspSwapRequest => Sys2Proof.Machine.execClaspSwapRequest s
  | .claspSwap => Sys2Proof.Machine.execClaspSwap s
  | .claspWref w v => Sys2Proof.Machine.execClaspWref w v s
  | .pwmPeriodBoundary b => Sys2Proof.Machine.execPwmPeriodBoundary b s
  | .bridgeTriggerPoint b isB => Sys2Proof.Machine.execBridgeTriggerPoint b isB s
  | .brSync v => Sys2Proof.Machine.execBrSync v s
  | .bridgeEnable v => Sys2Proof.Machine.execBridgeEnable v s
  | .overcurrentTrip b p uv => Sys2Proof.Machine.execOvercurrentTrip b p uv s
  | .tripfClear b => Sys2Proof.Machine.execTripfClear b s
  | .vgdUndervoltage => Sys2Proof.Machine.execVgdUndervoltage s
  | .bootstrapUndervoltage b p => Sys2Proof.Machine.execBootstrapUndervoltage b p s
  | .solPeakGrant => Sys2Proof.Machine.execSolPeakGrant s
  | .solPeakEnd c => Sys2Proof.Machine.execSolPeakEnd c s
  | .solOpenCheck c ma => Sys2Proof.Machine.execSolOpenCheck c ma s
  | .solShort c => Sys2Proof.Machine.execSolShort c s
  | .zeroCrossEdge k us => Sys2Proof.Machine.execZeroCrossEdge k us s
  | .zeroCrossLost k => Sys2Proof.Machine.execZeroCrossLost k s
  | .ssrOc o => Sys2Proof.Machine.execSsrOc o s
  | .windowEnd seen c0 c1 c2 awu => Sys2Proof.Machine.execWindowEnd seen c0 c1 c2 awu s
  | .tbAbsent k => Sys2Proof.Machine.execTbAbsent k s
  | .tbStateWrite v => Sys2Proof.Machine.execTbStateWrite v s
  | .timeSlew v => Sys2Proof.Machine.execTimeSlew v s
  | .slewAdjustment => Sys2Proof.Machine.execSlewAdjustment s
  | .timerStart n => Sys2Proof.Machine.execTimerStart n s
  | .timerMatch n => Sys2Proof.Machine.execTimerMatch n s
  | .timerCapture n rise => Sys2Proof.Machine.execTimerCapture n rise s
  | .swcap n => Sys2Proof.Machine.execSwcap n s
  | .captureRead who n => Sys2Proof.Machine.execCaptureRead who n s
  | .gstart v => Sys2Proof.Machine.execGstart v s
  | .timedGlobalStart => Sys2Proof.Machine.execTimedGlobalStart s
  | .ethReceive ws len fcs err age => Sys2Proof.Machine.execEthReceive ws len fcs err age s
  | .ethTransmitDone cause age => Sys2Proof.Machine.execEthTransmitDone cause age s
  | .txpoll => Sys2Proof.Machine.execTxpoll s
  | .mdioAccess v data => Sys2Proof.Machine.execMdioAccess v data s
  | .linkPoll up => Sys2Proof.Machine.execLinkPoll up s
  | .canReceive c f err age => Sys2Proof.Machine.execCanReceive c f err age s
  | .canFifoWrite c v => Sys2Proof.Machine.execCanFifoWrite c v s
  | .canFifoRead c => Sys2Proof.Machine.execCanFifoRead c s
  | .canTransmitDone c r age => Sys2Proof.Machine.execCanTransmitDone c r age s
  | .canTxTimeout c => Sys2Proof.Machine.execCanTxTimeout c s
  | .canAbort c onBus => Sys2Proof.Machine.execCanAbort c onBus s
  | .canRecover c => Sys2Proof.Machine.execCanRecover c s
  | .canBusOffRecovery c => Sys2Proof.Machine.execCanBusOffRecovery c s
  | .uartReceive u byte pe fe brk => Sys2Proof.Machine.execUartReceive u byte pe fe brk s
  | .uartIdleTimeout u => Sys2Proof.Machine.execUartIdleTimeout u s
  | .uartDataWrite u v => Sys2Proof.Machine.execUartDataWrite u v s
  | .uartDataRead u => Sys2Proof.Machine.execUartDataRead u s
  | .uartTransmitDone u => Sys2Proof.Machine.execUartTransmitDone u s
  | .spiDataWrite i0 v => Sys2Proof.Machine.execSpiDataWrite i0 v s
  | .spiDataRead i0 => Sys2Proof.Machine.execSpiDataRead i0 s
  | .spiWordDone i0 v => Sys2Proof.Machine.execSpiWordDone i0 v s
  | .spiStallTimeout i0 => Sys2Proof.Machine.execSpiStallTimeout i0 s
  | .spiEnd i0 => Sys2Proof.Machine.execSpiEnd i0 s
  | .start c byte => Sys2Proof.Machine.execStart c byte s
  | .send c byte => Sys2Proof.Machine.execSend c byte s
  | .readAck c => Sys2Proof.Machine.execReadAck c s
  | .readNack c => Sys2Proof.Machine.execReadNack c s
  | .stop c => Sys2Proof.Machine.execStop c s
  | .i2cRecover c => Sys2Proof.Machine.execI2cRecover c s
  | .i2cCommandDone c ack byte => Sys2Proof.Machine.execI2cCommandDone c ack byte s
  | .arbitrationLost c => Sys2Proof.Machine.execArbitrationLost c s
  | .sclTimeout c => Sys2Proof.Machine.execSclTimeout c s
  | .i2cPortRead c => Sys2Proof.Machine.execI2cPortRead c s
  | .i2ctMatch rd => Sys2Proof.Machine.execI2ctMatch rd s
  | .i2ctByte b => Sys2Proof.Machine.execI2ctByte b s
  | .i2ctDone => Sys2Proof.Machine.execI2ctDone s
  | .i2ctStrto => Sys2Proof.Machine.execI2ctStrto s
  | .i2ctPortAccess store v => Sys2Proof.Machine.execI2ctPortAccess store v s
  | .usbBusReset => Sys2Proof.Machine.execUsbBusReset s
  | .usbSuspend => Sys2Proof.Machine.execUsbSuspend s
  | .usbResume => Sys2Proof.Machine.execUsbResume s
  | .usbOut p ws cnt => Sys2Proof.Machine.execUsbOut p ws cnt s
  | .usbSetup w0 w1 w2 => Sys2Proof.Machine.execUsbSetup w0 w1 w2 s
  | .usbIn p ack => Sys2Proof.Machine.execUsbIn p ack s
  | .usbVbusChange v => Sys2Proof.Machine.execUsbVbusChange v s
  | .xspiWindowRead e i0 d0 d1 => Sys2Proof.Machine.execXspiWindowRead e i0 d0 d1 s
  | .xspiCommand v => Sys2Proof.Machine.execXspiCommand v s
  | .xspiCommandDone ws => Sys2Proof.Machine.execXspiCommandDone ws s
  | .xspiPollTimeout ws => Sys2Proof.Machine.execXspiPollTimeout ws s
  | .sha256 v => Sys2Proof.Machine.execSha256 v s
  | .gcmEncrypt v => Sys2Proof.Machine.execGcmEncrypt v s
  | .gcmDecrypt v => Sys2Proof.Machine.execGcmDecrypt v s
  | .ecdsaVerify v => Sys2Proof.Machine.execEcdsaVerify v s
  | .clearKey v => Sys2Proof.Machine.execClearKey v s
  | .cryptJobDone => Sys2Proof.Machine.execCryptJobDone s
  | .rngBlock fail => Sys2Proof.Machine.execRngBlock fail s
  | .rngPop => Sys2Proof.Machine.execRngPop s
  | .linkUp p => Sys2Proof.Machine.execLinkUp p s
  | .linkDown p => Sys2Proof.Machine.execLinkDown p s
  | .portDead p => Sys2Proof.Machine.execPortDead p s
  | .retransmitTimeout p => Sys2Proof.Machine.execRetransmitTimeout p s
  | .ack p lseq => Sys2Proof.Machine.execAck p lseq s
  | .nak p lseq => Sys2Proof.Machine.execNak p lseq s
  | .echo p => Sys2Proof.Machine.execEcho p s
  | .echr p rt => Sys2Proof.Machine.execEchr p rt s
  | .linkDelayMeasure => Sys2Proof.Machine.execLinkDelayMeasure s
  | .enumerationStart => Sys2Proof.Machine.execEnumerationStart s
  | .enum p n => Sys2Proof.Machine.execEnum p n s
  | .enumr p sysid fin inport more n => Sys2Proof.Machine.execEnumr p sysid fin inport more n s
  | .enumerationTimeout => Sys2Proof.Machine.execEnumerationTimeout s
  | .windowWrite e i0 => Sys2Proof.Machine.execWindowWrite e i0 s
  | .windowRead e i0 => Sys2Proof.Machine.execWindowRead e i0 s
  | .wr p dst cid a seq d0 d1 pair ue ok tck => Sys2Proof.Machine.execWr p dst cid a seq d0 d1 pair ue ok tck s
  | .rd p dst cid a tag pair ue ok tck => Sys2Proof.Machine.execRd p dst cid a tag pair ue ok tck s
  | .rdr p src pair status tag d0 d1 => Sys2Proof.Machine.execRdr p src pair status tag d0 d1 s
  | .wack p src seq => Sys2Proof.Machine.execWack p src seq s
  | .wackTimer => Sys2Proof.Machine.execWackTimer s
  | .wfail p src seq addr cause => Sys2Proof.Machine.execWfail p src seq addr cause s
  | .readTimeout tag => Sys2Proof.Machine.execReadTimeout tag s
  | .writeTimeout seq => Sys2Proof.Machine.execWriteTimeout seq s
  | .chnDrainStore e i0 => Sys2Proof.Machine.execChnDrainStore e i0 s
  | .chnDrainComplete k => Sys2Proof.Machine.execChnDrainComplete k s
  | .chnSeqRead e i0 => Sys2Proof.Machine.execChnSeqRead e i0 s
  | .chnDrainRead e i0 => Sys2Proof.Machine.execChnDrainRead e i0 s
  | .evt p dst src slot => Sys2Proof.Machine.execEvt p dst src slot s
  | .beaconSend => Sys2Proof.Machine.execBeaconSend s
  | .beacon p t corr tq ago res => Sys2Proof.Machine.execBeacon p t corr tq ago res s
  | .beaconLoss => Sys2Proof.Machine.execBeaconLoss s
  | .ring p rev n => Sys2Proof.Machine.execRing p rev n s
  | .upstreamLost => Sys2Proof.Machine.execUpstreamLost s
  | .shedStepEnter k => Sys2Proof.Machine.execShedStepEnter k s
  | .shedStepLeave k => Sys2Proof.Machine.execShedStepLeave k s
  | .shedForce v => Sys2Proof.Machine.execShedForce v s
  | .vsysCollapse => Sys2Proof.Machine.execVsysCollapse s
  | .holdupExhausted => Sys2Proof.Machine.execHoldupExhausted s
  | .vinHigh => Sys2Proof.Machine.execVinHigh s
  | .chargerFull => Sys2Proof.Machine.execChargerFull s
  | .chargerFault => Sys2Proof.Machine.execChargerFault s
  | .holdMeasure vin vsys vh i0 dq => Sys2Proof.Machine.execHoldMeasure vin vsys vh i0 dq s
  | .holdRebase => Sys2Proof.Machine.execHoldRebase s
  | .chargeMeasurement => Sys2Proof.Machine.execChargeMeasurement s
  | .regulatorLimit rail => Sys2Proof.Machine.execRegulatorLimit rail s
  | .planLevelRequest d v => Sys2Proof.Machine.execPlanLevelRequest d v s
  | .planLevelChange d => Sys2Proof.Machine.execPlanLevelChange d s
  | .dozeRequest => Sys2Proof.Machine.execDozeRequest s
  | .patrolRequest => Sys2Proof.Machine.execPatrolRequest s
  | .dormantRequest => Sys2Proof.Machine.execDormantRequest s
  | .cancel => Sys2Proof.Machine.execCancel s
  | .participantAnswer p wire => Sys2Proof.Machine.execParticipantAnswer p wire s
  | .participantTimeout => Sys2Proof.Machine.execParticipantTimeout s
  | .pointOfNoReturn => Sys2Proof.Machine.execPointOfNoReturn s
  | .awuWake b => Sys2Proof.Machine.execAwuWake b s
  | .dozeReturn => Sys2Proof.Machine.execDozeReturn s
  | .fabricRestart n srcOk img => Sys2Proof.Machine.execFabricRestart n srcOk img s
  | .wakePin n rising held => Sys2Proof.Machine.execWakePin n rising held s
  | .chadenWakeDetect p => Sys2Proof.Machine.execChadenWakeDetect p s
  | .lwake v => Sys2Proof.Machine.execLwake v s
  | .timeAlarm n => Sys2Proof.Machine.execTimeAlarm n s
  | .patrolVisit n skip rs => Sys2Proof.Machine.execPatrolVisit n skip rs s
  | .stall k => Sys2Proof.Machine.execStall k s
  | .clusterFault c volt => Sys2Proof.Machine.execClusterFault c volt s
  | .readmit v => Sys2Proof.Machine.execReadmit v s
  | .readmitComplete c => Sys2Proof.Machine.execReadmitComplete c s
  | .pairArm n v => Sys2Proof.Machine.execPairArm n v s
  | .pairDisarm n v => Sys2Proof.Machine.execPairDisarm n v s
  | .ckmiss n => Sys2Proof.Machine.execCkmiss n s
  | .fltTake v => Sys2Proof.Machine.execFltTake v s
  | .takeover n => Sys2Proof.Machine.execTakeover n s
  | .takeoverComplete n => Sys2Proof.Machine.execTakeoverComplete n s
  | .escalationReset straps img => Sys2Proof.Machine.execEscalationReset straps img s
  | .assayHour => Sys2Proof.Machine.execAssayHour s
  | .assayRunCommand => Sys2Proof.Machine.execAssayRunCommand s
  | .assayRunComplete ms bg mrm solr bst => Sys2Proof.Machine.execAssayRunComplete ms bg mrm solr bst s
  | .assayPlanWrite d p v => Sys2Proof.Machine.execAssayPlanWrite d p v s
  | .thermalEvaluation tj => Sys2Proof.Machine.execThermalEvaluation tj s
  | .powerOnReset src vaon straps img => Sys2Proof.Machine.execPowerOnReset src vaon straps img s
  | .resetPin straps img => Sys2Proof.Machine.execResetPin straps img s
  | .keeperReset v straps img => Sys2Proof.Machine.execKeeperReset v straps img s
  | .watchdogKick v n straps img => Sys2Proof.Machine.execWatchdogKick v n straps img s
  | .watchdogWarn n => Sys2Proof.Machine.execWatchdogWarn n s
  | .watchdogTimeout n straps img => Sys2Proof.Machine.execWatchdogTimeout n straps img s
  | .fuseProgram v => Sys2Proof.Machine.execFuseProgram v s
  | .epochFuseBlow v => Sys2Proof.Machine.execEpochFuseBlow v s
  | .fuseDone got => Sys2Proof.Machine.execFuseDone got s
  | .serviceModeWrite v => Sys2Proof.Machine.execServiceModeWrite v s
  | .klock => Sys2Proof.Machine.execKlock s
  | .trst => Sys2Proof.Machine.execTrst s
  | .extest => Sys2Proof.Machine.execExtest s
  | .samplePreload cells => Sys2Proof.Machine.execSamplePreload cells s
  | .idcode => Sys2Proof.Machine.execIdcode s
  | .clamp => Sys2Proof.Machine.execClamp s
  | .highz => Sys2Proof.Machine.execHighz s
  | .loupeSelect => Sys2Proof.Machine.execLoupeSelect s
  | .bypass => Sys2Proof.Machine.execBypass s
  | .nop => Sys2Proof.Machine.execNop s
  | .rdk a ok => Sys2Proof.Machine.execRdk a ok s
  | .wrk a d ok => Sys2Proof.Machine.execWrk a d ok s
  | .rdc a ok => Sys2Proof.Machine.execRdc a ok s
  | .wrc a d ok => Sys2Proof.Machine.execWrc a d ok s
  | .setcid d => Sys2Proof.Machine.execSetcid d s
  | .halt k => Sys2Proof.Machine.execHalt k s
  | .run k => Sys2Proof.Machine.execRun k s
  | .step k => Sys2Proof.Machine.execStep k s
  | .rdreg k c => Sys2Proof.Machine.execRdreg k c s
  | .wrreg k c v => Sys2Proof.Machine.execWrreg k c v s
  | .tstat k => Sys2Proof.Machine.execTstat k s
  | .setbp a d => Sys2Proof.Machine.execSetbp a d s
  | .setwp a d => Sys2Proof.Machine.execSetwp a d s
  | .breakpointHalt k len => Sys2Proof.Machine.execBreakpointHalt k len s
  | .freeze d => Sys2Proof.Machine.execFreeze d s
  | .chal i0 => Sys2Proof.Machine.execChal i0 s
  | .keyw w v => Sys2Proof.Machine.execKeyw w v s
  | .resp w v => Sys2Proof.Machine.execResp w v s
  | .unlock v => Sys2Proof.Machine.execUnlock v s
  | .unlockLockoutEnd => Sys2Proof.Machine.execUnlockLockoutEnd s
  | .lock => Sys2Proof.Machine.execLock s
  | .wake => Sys2Proof.Machine.execWake s
  | .mailw v => Sys2Proof.Machine.execMailw v s
  | .mailr => Sys2Proof.Machine.execMailr s
  | .tpllLock => Sys2Proof.Machine.execTpllLock s
  | .frameCrcFailure p quiet => Sys2Proof.Machine.execFrameCrcFailure p quiet s
  | .vgdRecovery => Sys2Proof.Machine.execVgdRecovery s
  | .bootstrapRecovery b p => Sys2Proof.Machine.execBootstrapRecovery b p s
  | .bexLimitEnd k => Sys2Proof.Machine.execBexLimitEnd k s
  | .vinhiEnd => Sys2Proof.Machine.execVinhiEnd s
  | .ssrOcEnd o => Sys2Proof.Machine.execSsrOcEnd o s
  | .i2cBusFree c => Sys2Proof.Machine.execI2cBusFree c s

end Sys2Proof.Machine
end

