-- ==== Sys2Proof/Safety.lean ====
section
/-!
DEFINITION. What a safe run is, and the terms the claims use: a command that answers a next state, the canonical form of the state's
tables, what an issued instruction leaves alone, and what instructions write into their thread's registers.
-/

namespace Sys2Proof.Machine

open Sys2Proof

/-- The step answers a next state. -/
def State.goesOn (s : State) : Prop := ∃ t, step s = Host.Outcome.next t

/-- The memory of a state is in its canonical form (R38, R191). -/
def State.memOk (s : State) : Bool := memWf s.mem

/-- The tables of words, threads and engines are in their canonical forms: keys strictly rising, no entry equal to what an unlisted
key reads as. -/
def State.canon (s : State) : Prop :=
  memWf s.mem = true ∧ SMap.wf regReset s.regs = true ∧ SMap.wf (fun _ => Thread.off) s.thr = true ∧
  SMap.wf (fun _ => Engine.init) s.eng = true

/-- The command answers a next state of which `P` holds. -/
def Gives (c : Instr) (s : State) (P : State → Prop) : Prop := ∃ t, exec c s = Host.Outcome.next t ∧ P t

/-- The same of a command that is new work of power-state participant `p`, which takes none while it rests (R529). -/
def Takes (p : Nat) (c : Instr) (s : State) (P : State → Prop) : Prop := s.resting p = false → Gives c s P

/-- Everything outside registers, memory, threads, engines and capsules is unchanged. -/
def State.sameRest (s t : State) : Prop :=
  t.pending = s.pending ∧ t.rdata = s.rdata ∧ t.ev = s.ev ∧ t.memc = s.memc ∧ t.str = s.str ∧ t.land = s.land ∧ t.bq = s.bq ∧
  t.time = s.time ∧ t.sys = s.sys ∧ t.meas = s.meas ∧ t.act = s.act ∧ t.comm = s.comm ∧ t.chn = s.chn ∧ t.pwr = s.pwr ∧
  t.flt = s.flt ∧ t.lp = s.lp ∧ t.dl = s.dl

/-- Every device register outside the list `as` reads as before. -/
def State.regsBut (s t : State) (as : List Nat) : Prop := ∀ a, a ∉ as → t.rd a = s.rd a

/-- The threads are unchanged, but for a loop buffer that a store has released, whose owner's loop entries lose their mark of owning it
(R62.3). -/
def State.sameThr (s t : State) : Prop := ∀ j, t.th j = s.th j ∨ t.th j = (s.th j).disown

/-- Every memory word reads as before. -/
def State.sameMem (s t : State) : Prop := ∀ a, t.cell a = s.cell a

/-- What an issued instruction may change in its thread, taken from `u`: context, uncommitted instructions, allotment, post-EOI window, fetch
buffer, lost beats and the stall watch; a breakpoint's pass is used up (R49, R55, R175, R211, R253, R556, R601). -/
def Thread.beaten (t u : Thread) : Thread :=
  { t with ctx := u.ctx, infl := u.infl, al := u.al, postEoi := u.postEoi, skipBp := false, fbuf := u.fbuf, lost := u.lost
           watch := u.watch, stall := u.stall, stalled := u.stalled }

/-- What a beat may change in the other threads of the engine, taken from `u`: the post-EOI window and the count of lost beats (R55, R175). -/
def Thread.idled (t u : Thread) : Thread := { t with postEoi := u.postEoi, lost := u.lost }

/-- The frame of one issue beat of thread `k` (R49, R52, R82, R175, R253): the beat counts, the passed-over counts and the budget run;
of thread `k` nothing else than its context, its issued instructions, its fetch buffer and its stall watch changes, and of the others of its
engine nothing but the post-EOI window and the count of lost beats (R55). -/
def State.beatOnly (s t : State) (k : Nat) : Prop :=
  s.sameRest t ∧
  s.regsBut t [Reg.ENG_TnISS (k / 4) (k % 4), Reg.ENG_PROMO (k / 4)] ∧
  t.rd (Reg.ENG_TnISS (k / 4) (k % 4)) = s.rd (Reg.ENG_TnISS (k / 4) (k % 4)) + 1 ∧
  (∀ j, j ≠ k → t.th j = (s.th j).idled (t.th j)) ∧
  t.th k = (s.th k).beaten (t.th k) ∧
  (∀ e, t.en e = { s.en e with last := (t.en e).last, passed := (t.en e).passed }) ∧
  (∀ c, t.cap c = { s.cap c with used := (t.cap c).used }) ∧ t.bz.check = s.bz.check

/-- Thread `k` can issue an instruction that reads the registers `rs`, the issue rule chooses it, and nobody halts or steps it (R48, R51,
R600). -/
def State.issues (s : State) (k : Nat) (rs : List Nat) : Prop :=
  let t := s.th k
  s.isReady k = true ∧ s.chosen k = true ∧ t.ctx.produced rs = true ∧ t.haltReq = 0 ∧ t.stepping = false ∧ t.settle = false

/-- No breakpoint stops thread `k` at address `p` (R601). -/
def State.passes (s : State) (k : Nat) (p : Word) : Prop := (s.th k).skipBp = true ∨ s.bpHit k p = none

/-- Thread `k` issues its next instruction, of `len` words, reading the registers `rs`, and meets neither a breakpoint, a halt, a delay
slot nor the end of a hardware loop (R48, R110, R115, R600, R601). -/
def State.runs (s : State) (k len : Nat) (rs : List Nat) : Prop :=
  let t := s.th k
  s.issues k rs ∧ t.ctx.slot = none ∧ s.passes k t.ctx.pc ∧
  (∀ l ∈ t.ctx.loops.head?, l.tag = t.depth → l.stop ≠ t.ctx.pc ∧ l.stop ≠ t.ctx.pc + w24 (len - 1))

/-- A loop entry but for the mark that its set-up took the loop buffer (R62.1). -/
def LoopEnt.shape (l : LoopEnt) : Word × Word × Word × Nat := (l.count, l.start, l.stop, l.tag)

/-- The loop stacks of two contexts hold the same entries (R113). -/
def sameLoops (a b : List LoopEnt) : Prop := a.map LoopEnt.shape = b.map LoopEnt.shape

/-- A context that changes at most in which of its loop entries owns the loop buffer (R62). -/
def sameCtx (c d : Ctx) : Prop := d = { c with loops := d.loops } ∧ sameLoops d.loops c.loops

/-- As `beatOnly`, but a loop buffer may be released or taken as well: another thread's loop entries may lose their mark of owning it
(R62). -/
def State.beatLb (s t : State) (k : Nat) : Prop :=
  s.sameRest t ∧
  s.regsBut t [Reg.ENG_TnISS (k / 4) (k % 4), Reg.ENG_PROMO (k / 4), Reg.ENG_LBFILL (k / 4)] ∧
  (∀ j, j ≠ k → t.th j = (s.th j).idled (t.th j) ∨ t.th j = (s.th j).disown.idled (t.th j)) ∧
  t.th k = (s.th k).beaten (t.th k) ∧
  (∀ e, t.en e = { s.en e with last := (t.en e).last, passed := (t.en e).passed, lb := (t.en e).lb }) ∧
  (∀ c, t.cap c = { s.cap c with used := (t.cap c).used }) ∧ t.bz.check = s.bz.check

/-- The command answers a next state in which thread `k` has executed one instruction of `len` words: the frame of a beat, the memory
unchanged, the pc moved past the instruction, and `P` of the thread's context before and after. -/
def Does (c : Instr) (s : State) (k len : Nat) (P : Ctx → Ctx → Prop) : Prop :=
  Gives c s (fun t => s.beatOnly t k ∧ s.sameMem t ∧ (t.th k).ctx.pc = (s.th k).ctx.pc + w24 len ∧ P (s.th k).ctx (t.th k).ctx)

/-- Of the general registers only `rd` changes, to `v`; g0 discards (R89). -/
def writes (rd : Nat) (v : Word) (c d : Ctx) : Prop :=
  ∀ r, d.peekG r = if r = 0 then 0 else if r = rd then v else c.peekG r

/-- Accumulators, ASTAT, loop stack unchanged; no delay slot follows. -/
def keepsAcc (c d : Ctx) : Prop := d.a0 = c.a0 ∧ d.a1 = c.a1 ∧ d.sat = c.sat ∧ d.aov = c.aov ∧ d.loops = c.loops ∧ d.slot = none

/-- The only effect is `v` in general register `rd`. -/
def onlyG (rd : Nat) (v : Word) (c d : Ctx) : Prop := writes rd v c d ∧ keepsAcc c d

/-- `x` clamped to −m … m. -/
def clamp (m x : Int) : Int := max (-m) (min m x)

/-- The only effect is the Q23 value of `x` in `rd`, with SAT set when it was clamped (R121). -/
def onlyQ (rd : Nat) (x : Int) (c d : Ctx) : Prop :=
  (∃ v : Word, v.toInt = clamp 0x7FFFFF x ∧ writes rd v c d) ∧ d.sat = (c.sat || decide (clamp 0x7FFFFF x ≠ x)) ∧
  d.a0 = c.a0 ∧ d.a1 = c.a1 ∧ d.aov = c.aov ∧ d.loops = c.loops ∧ d.slot = none

/-- General registers, SAT and the loop stack unchanged; no delay slot follows. -/
def keepsG (c d : Ctx) : Prop := (∀ r, d.peekG r = c.peekG r) ∧ d.sat = c.sat ∧ d.loops = c.loops ∧ d.slot = none

/-- The only effect is accumulator `ac` holding `v` (R120). -/
def onlyA (ac : Nat) (v : Acc) (c d : Ctx) : Prop :=
  keepsG c d ∧ d.aov = c.aov ∧ d.rdA ac = v ∧ d.rdA (1 - ac) = c.rdA (1 - ac)

/-- The only effect is accumulator `ac` holding `x` clamped to ±(2^55 − 1), with AOV set when it was clamped (R122). -/
def onlyASat (ac : Nat) (x : Int) (c d : Ctx) : Prop :=
  keepsG c d ∧ d.aov = (c.aov || decide (clamp (2 ^ 55 - 1) x ≠ x)) ∧ (d.rdA ac).toInt = clamp (2 ^ 55 - 1) x ∧
  d.rdA (1 - ac) = c.rdA (1 - ac)

/-- A transfer at `c`'s pc has been resolved and its delay slot comes next: nothing but the pc and the slot's record changes (R110). -/
def awaitsSlot (long : Bool) (taken : Prop) [Decidable taken] (target : Word) (link : Option Nat) (c d : Ctx) : Prop :=
  (∀ r, d.peekG r = c.peekG r) ∧ d.a0 = c.a0 ∧ d.a1 = c.a1 ∧ d.sat = c.sat ∧ d.aov = c.aov ∧ d.loops = c.loops ∧
  d.slot = some { xferAt := c.pc, long := long, target := if taken then some target else none, link := link }

/-- Thread `k` has entered its exception vector (R179, R182): one level is pushed that holds the address, cause and faulting address and
the binding that was in force; it is keeper-privileged with capsule 0; its context is the one the instruction found, at the
vector. -/
def State.entered (s t : State) (k : Nat) (xpc xcause xaddr : Word) : Prop :=
  (∃ l, (t.th k).levels = l :: (s.th k).levels ∧ l.xpc = xpc ∧ l.xcause = xcause ∧ l.xaddr = xaddr ∧ l.intr = false ∧ l.live = false ∧
    l.xst.getLsbD 23 = (s.th k).bind.prv ∧ getBits l.xst 22 13 = (s.th k).bind.cid % 1024) ∧
  (t.th k).bind.prv = true ∧ (t.th k).bind.cid = 0 ∧
  (t.th k).ctx = { (s.th k).ctx with pc := s.rd (Reg.EVI_TtXVEC (k / 4) (k % 4)), slot := none, pend := [], shadow := [], shPend := [] } ∧
  (∀ j, j ≠ k → (t.th j).ctx = (s.th j).ctx) ∧ s.sameMem t

/-- The command answers a next state in which its instruction has taken the exception `cause` at its own address. -/
def Traps (c : Instr) (s : State) (k : Nat) (cause addr : Word) : Prop :=
  Gives c s (fun t => s.entered t k (s.th k).ctx.pc cause addr)

/-- Thread `k`'s next instruction reaches physical address `pa` from `va`: at keeper privilege the address itself, at capsule
privilege through a cached translation that permits the access (R212, R215, R218). -/
def State.reaches (s : State) (k : Nat) (kind : AccKind) (va : Word) (pa : Nat) : Prop :=
  ((s.th k).bind.prv = true ∧ pa = va.toNat) ∨
  ((s.th k).bind.prv = false ∧ va.toNat / 0x10000 ≠ 0x80 ∧
    ∃ e, (s.en (k / 4)).tcLookup (s.th k).bind.cid va.toNat = some e ∧ tcAddr e kind va.toNat = .ok pa)

/-- Thread `k` has executed a one-word instruction whose only effects on its thread are the end of the load shadow and the move to the next
address: memory, the other threads' contexts and the device registers outside the beat's counts are unchanged. -/
def State.sysStep (s t : State) (k : Nat) : Prop :=
  (t.th k).ctx = { (s.th k).ctx with shadow := [], pc := (s.th k).ctx.pc + 1 } ∧ (∀ j, j ≠ k → (t.th j).ctx = (s.th j).ctx) ∧
  s.sameMem t ∧ s.regsBut t [Reg.ENG_TnISS (k / 4) (k % 4), Reg.ENG_PROMO (k / 4)]

/-- Thread `k` waits by design in mode `m`: its context, memory, the other threads' contexts and the device registers outside the beat's
counts are unchanged (R47). -/
def State.waitsIn (s t : State) (k : Nat) (m : Mode) : Prop :=
  (t.th k).mode = m ∧ (t.th k).ctx = (s.th k).ctx ∧ (∀ j, j ≠ k → (t.th j).ctx = (s.th j).ctx) ∧
  s.sameMem t ∧ s.regsBut t [Reg.ENG_TnISS (k / 4) (k % 4), Reg.ENG_PROMO (k / 4)] ∧ s.sameRest t

/-- Device time as thread `k` sees it: exact for the keeper, cut to the capsule's granularity otherwise (R137, R138). -/
def State.sees (s : State) (k : Nat) (d : Pair) : Prop :=
  ((s.th k).bind.prv = true → d = s.time.dt) ∧
  ((s.th k).bind.prv = false → d.toNat = s.time.dt.toNat - s.time.dt.toNat % s.tgran (s.th k).bind.cid)

/-- The command acts outside the processing fabric: memory, threads, engines, capsules, the memory controller and the queue of commands
stay as they are. -/
def State.outside (s t : State) : Prop :=
  t.mem = s.mem ∧ t.thr = s.thr ∧ t.eng = s.eng ∧ t.bz = s.bz ∧ t.memc = s.memc ∧ t.pending = s.pending

/-- A load has delivered: the registers where `f` gives a value hold it, every other its own, g0 0 (R99–R103). -/
def loads (f : Nat → Option Word) (c d : Ctx) : Prop :=
  (∀ r, d.peekG r = if r = 0 then 0 else (f r).getD (c.peekG r)) ∧ keepsAcc c d

/-- A store has executed: as `loads`, but loop entries may lose the loop buffer, whose body the store may have changed (R62.3). -/
def updates (f : Nat → Option Word) (c d : Ctx) : Prop :=
  (∀ r, d.peekG r = if r = 0 then 0 else (f r).getD (c.peekG r)) ∧ d.a0 = c.a0 ∧ d.a1 = c.a1 ∧ d.sat = c.sat ∧ d.aov = c.aov ∧
  sameLoops d.loops c.loops ∧ d.slot = none

/-- Nothing keeps an access of thread `k` to the words `ws` of its own local memory from the memory port: no older store or spine
access of the thread touches them, and no fetch takes the port (R55, R104). -/
def State.portFree (s : State) (k : Nat) (ws : List Nat) : Prop :=
  s.heldAt k ws = false ∧ s.spineAtWords k ws = false ∧ s.portTaken k = false

end Sys2Proof.Machine
end

