-- ==== Sys2Proof/Certificates/Slice0/Obligations.lean ====
section
/-!
DEFINITION. The statements for the provers, each a proposition; OBLIGATIONS.json lists them with the rules they rest on.
-/

open Sys2Proof Sys2Proof.Machine

/-- A step takes the command at the front of the queue and runs it on the state with the queue's rest. With an empty queue the step answers a
next state (a tick of TB: the model's choice, log entry 2), and the queue stays empty. -/
def Obligations.StepRunsFront : Prop :=
  (∀ (c : Instr) (rest : List Instr) (s : State), step { s with pending := c :: rest } = exec c { s with pending := rest }) ∧
  (∀ s : State, s.pending = [] → ∃ t, step s = Host.Outcome.next t ∧ t.pending = [])

/-- R93–R95: each register ALU instruction writes its result to G[rd] (g0 discards it, R89) and changes nothing else. -/
def Obligations.AluResults : Prop :=
  ∀ (k : Fin 512) (rd ra rb : Fin 16) (s : State),
    let a := (s.th k).ctx.rdG ra
    let b := (s.th k).ctx.rdG rb
    let n := b.toNat % 32
    (s.runs k 1 [ra, rb] →
      Does (.add k rd ra rb) s k 1 (onlyG rd (BitVec.ofNat 24 (a.toNat + b.toNat))) ∧
      Does (.sub k rd ra rb) s k 1 (onlyG rd (BitVec.ofInt 24 (a.toNat - b.toNat))) ∧
      Does (.and k rd ra rb) s k 1 (onlyG rd (a &&& b)) ∧
      Does (.or k rd ra rb) s k 1 (onlyG rd (a ||| b)) ∧
      Does (.xor k rd ra rb) s k 1 (onlyG rd (a ^^^ b)) ∧
      Does (.andn k rd ra rb) s k 1 (onlyG rd (a &&& ~~~b)) ∧
      Does (.nor k rd ra rb) s k 1 (onlyG rd (~~~(a ||| b))) ∧
      Does (.slt k rd ra rb) s k 1 (onlyG rd (if a.toInt < b.toInt then 1 else 0)) ∧
      Does (.sltu k rd ra rb) s k 1 (onlyG rd (if a.toNat < b.toNat then 1 else 0)) ∧
      Does (.sll k rd ra rb) s k 1 (onlyG rd (if 24 ≤ n then 0 else BitVec.ofNat 24 (a.toNat * 2 ^ n))) ∧
      Does (.srl k rd ra rb) s k 1 (onlyG rd (if 24 ≤ n then 0 else BitVec.ofNat 24 (a.toNat / 2 ^ n))) ∧
      Does (.sra k rd ra rb) s k 1
        (onlyG rd (if 24 ≤ n then (if 0 ≤ a.toInt then 0 else 0xFFFFFF) else BitVec.ofInt 24 (a.toInt / 2 ^ n))) ∧
      Does (.rol k rd ra rb) s k 1 (onlyG rd ((a <<< (n % 24)) ||| (a >>> (24 - n % 24)))) ∧
      Does (.min k rd ra rb) s k 1 (onlyG rd (if a.toInt ≤ b.toInt then a else b)) ∧
      Does (.max k rd ra rb) s k 1 (onlyG rd (if a.toInt ≤ b.toInt then b else a)) ∧
      Does (.minu k rd ra rb) s k 1 (onlyG rd (if a.toNat ≤ b.toNat then a else b)) ∧
      Does (.maxu k rd ra rb) s k 1 (onlyG rd (if a.toNat ≤ b.toNat then b else a)) ∧
      Does (.mul k rd ra rb) s k 1 (onlyG rd (BitVec.ofNat 24 (a.toNat * b.toNat))) ∧
      Does (.mulhs k rd ra rb) s k 1 (onlyG rd (BitVec.ofInt 24 (a.toInt * b.toInt / 2 ^ 24))) ∧
      Does (.mulhu k rd ra rb) s k 1 (onlyG rd (BitVec.ofNat 24 (a.toNat * b.toNat / 2 ^ 24)))) ∧
    (s.runs k 1 [ra] →
      ∃ z : Nat, z ≤ 24 ∧ a.toNat < 2 ^ (24 - z) ∧ (z < 24 → 2 ^ (23 - z) ≤ a.toNat) ∧
        Does (.clz k rd ra 0) s k 1 (onlyG rd (BitVec.ofNat 24 z)))

/-- R96–R98: each immediate instruction writes its result to G[rd] (g0 discards it) and changes nothing else; a shift amount below 24, a
field inside the word. -/
def Obligations.ImmediateResults : Prop :=
  ∀ (k : Fin 512) (rd ra : Fin 16) (i10 : BitVec 10) (n pos len1 : BitVec 5) (i14 : BitVec 14) (w : BitVec 24) (s : State),
    let a := (s.th k).ctx.rdG ra
    let se := BitVec.ofInt 24 i10.toInt
    let ze := BitVec.ofNat 24 i10.toNat
    let x := a.toNat / 2 ^ pos.toNat % 2 ^ (len1.toNat + 1)
    (s.runs k 1 [ra] →
      Does (.addi k rd ra i10) s k 1 (onlyG rd (a + se)) ∧
      Does (.andi k rd ra i10) s k 1 (onlyG rd (a &&& ze)) ∧
      Does (.ori k rd ra i10) s k 1 (onlyG rd (a ||| ze)) ∧
      Does (.xori k rd ra i10) s k 1 (onlyG rd (a ^^^ ze)) ∧
      Does (.slti k rd ra i10) s k 1 (onlyG rd (if a.toInt < i10.toInt then 1 else 0)) ∧
      Does (.sltiu k rd ra i10) s k 1 (onlyG rd (if a.toNat < i10.toNat then 1 else 0)) ∧
      (n.toNat < 24 →
        Does (.slli k rd ra n) s k 1 (onlyG rd (BitVec.ofNat 24 (a.toNat * 2 ^ n.toNat))) ∧
        Does (.srli k rd ra n) s k 1 (onlyG rd (BitVec.ofNat 24 (a.toNat / 2 ^ n.toNat))) ∧
        Does (.srai k rd ra n) s k 1 (onlyG rd (BitVec.ofInt 24 (a.toInt / 2 ^ n.toNat))) ∧
        Does (.roli k rd ra n) s k 1 (onlyG rd ((a <<< n.toNat) ||| (a >>> (24 - n.toNat))))) ∧
      (pos.toNat + len1.toNat < 24 →
        Does (.extu k rd ra pos len1) s k 1 (onlyG rd (BitVec.ofNat 24 x)) ∧
        Does (.exts k rd ra pos len1) s k 1
          (onlyG rd (BitVec.ofInt 24 (if 2 ^ len1.toNat ≤ x then (x : Int) - 2 ^ (len1.toNat + 1) else x))))) ∧
    (s.runs k 1 [rd, ra] → pos.toNat + len1.toNat < 24 →
      ∃ v : Word, (∀ i, i < 24 → v.getLsbD i =
          if pos.toNat ≤ i ∧ i ≤ pos.toNat + len1.toNat then a.getLsbD (i - pos.toNat) else ((s.th k).ctx.rdG rd).getLsbD i) ∧
        Does (.ins k rd ra pos len1) s k 1 (onlyG rd v)) ∧
    (s.runs k 1 [] → Does (.lui k rd i14) s k 1 (onlyG rd (BitVec.ofNat 24 (i14.toNat * 1024)))) ∧
    (s.runs k 2 [0] → Does (.li k rd 0 w) s k 2 (onlyG rd w)) ∧
    (s.runs k 2 [ra] →
      Does (.addl k rd ra w) s k 2 (onlyG rd (a + w)) ∧
      Does (.andl k rd ra w) s k 2 (onlyG rd (a &&& w)) ∧
      Does (.orl k rd ra w) s k 2 (onlyG rd (a ||| w)) ∧
      Does (.xorl k rd ra w) s k 2 (onlyG rd (a ^^^ w)) ∧
      Does (.sltl k rd ra w) s k 2 (onlyG rd (if a.toInt < w.toInt then 1 else 0)) ∧
      Does (.sltul k rd ra w) s k 2 (onlyG rd (if a.toNat < w.toNat then 1 else 0)))

/-- R121, R123, R124: each Q23 instruction writes its exact result through sat23, SAT is sticky, nothing else changes. -/
def Obligations.SaturatingResults : Prop :=
  ∀ (k : Fin 512) (rd ra rb : Fin 16) (s : State),
    let a := ((s.th k).ctx.rdG ra).toInt
    let b := ((s.th k).ctx.rdG rb).toInt
    let lim : Int := min (b.natAbs : Int) 0x7FFFFF
    (s.runs k 1 [ra, rb] →
      Does (.adds k rd ra rb) s k 1 (onlyQ rd (a + b)) ∧
      Does (.subs k rd ra rb) s k 1 (onlyQ rd (a - b)) ∧
      Does (.mulr k rd ra rb) s k 1 (onlyQ rd ((a * b + 2 ^ 22) / 2 ^ 23)) ∧
      Does (.clip k rd ra rb) s k 1 (onlyQ rd (clamp lim a)) ∧
      Does (.shls k rd ra rb) s k 1 (onlyQ rd (a * 2 ^ (((s.th k).ctx.rdG rb).toNat % 32)))) ∧
    (s.runs k 1 [rb] → Does (.negs k rd 0 rb) s k 1 (onlyQ rd (-b))) ∧
    (s.runs k 1 [ra] → Does (.abss k rd ra 0) s k 1 (onlyQ rd (if 0 ≤ a then a else -a)))

/-- R122, R125, R126, R128, R130: each accumulator instruction writes its result to the accumulator its ac field names, AOV is sticky, and
the general registers, SAT and the other accumulator are unchanged. -/
def Obligations.AccumulatorResults : Prop :=
  ∀ (k : Fin 512) (ac ac2 ra rb : Fin 16) (n : BitVec 7) (s : State), ac.val ≤ 1 → ac2.val ≤ 1 →
    let w := (s.th k).ctx.rdG ra
    let a := w.toInt
    let b := ((s.th k).ctx.rdG rb).toInt
    let acc := (s.th k).ctx.rdA ac
    let x := acc.toInt
    let y := ((s.th k).ctx.rdA ac2).toInt
    (s.runs k 1 [ra, rb] →
      Does (.mpy k ac ra rb) s k 1 (onlyA ac (BitVec.ofInt 56 (2 * (a * b)))) ∧
      Does (.mac k ac ra rb) s k 1 (onlyASat ac (x + 2 * (a * b))) ∧
      Does (.msu k ac ra rb) s k 1 (onlyASat ac (x - 2 * (a * b))) ∧
      Does (.mpyi k ac ra rb) s k 1 (onlyA ac (BitVec.ofInt 56 (a * b))) ∧
      Does (.maci k ac ra rb) s k 1 (onlyASat ac (x + a * b))) ∧
    (s.runs k 1 [ra] →
      Does (.mtah k ac ra) s k 1 (onlyA ac (BitVec.ofInt 56 (a * 2 ^ 24))) ∧
      Does (.mtal k ac ra) s k 1 (onlyA ac (BitVec.ofNat 56 (acc.toNat / 2 ^ 24 * 2 ^ 24 + w.toNat))) ∧
      Does (.mtag k ac ra) s k 1 (onlyA ac (BitVec.ofNat 56 (w.toNat % 256 * 2 ^ 48 + acc.toNat % 2 ^ 48)))) ∧
    (s.runs k 1 [] →
      Does (.clra k ac 0) s k 1 (onlyA ac 0) ∧
      Does (.adda k ac ac2) s k 1 (onlyASat ac (x + y)) ∧
      Does (.suba k ac ac2) s k 1 (onlyASat ac (x - y)) ∧
      Does (.mova k ac ac2) s k 1 (onlyA ac ((s.th k).ctx.rdA ac2)) ∧
      Does (.nega k ac ac2) s k 1 (onlyASat ac (-y)) ∧
      Does (.absa k ac ac2) s k 1 (onlyASat ac (if 0 ≤ y then y else -y)) ∧
      (-48 ≤ n.toInt → n.toInt ≤ 48 →
        Does (.asha k ac ac2 n) s k 1
          (onlyASat ac (if 0 ≤ n.toInt then y * 2 ^ n.toInt.toNat else y / 2 ^ (-n.toInt).toNat))))

/-- R127–R132: the rounded, read and divided results; rounding to even is stated by its two bounds. -/
def Obligations.RoundingAndDivision : Prop :=
  ∀ (k : Fin 512) (rd ac ra rb : Fin 16) (n : BitVec 7) (s : State), ac.val ≤ 1 →
    let c := (s.th k).ctx
    let x := (c.rdA ac).toInt
    let u := (c.rdA ac).toNat
    let a := c.rdG ra
    let b := c.rdG rb
    (s.runs k 1 [] →
      Does (.rnd k rd ac) s k 1 (onlyQ rd ((x + 2 ^ 23) / 2 ^ 24)) ∧
      (∃ r : Int, 2 * (x - r * 2 ^ 24) ≤ 2 ^ 24 ∧ -(2 ^ 24) ≤ 2 * (x - r * 2 ^ 24) ∧
        (2 * (x - r * 2 ^ 24) = 2 ^ 24 ∨ 2 * (x - r * 2 ^ 24) = -(2 ^ 24) → r % 2 = 0) ∧ Does (.rndc k rd ac) s k 1 (onlyQ rd r)) ∧
      Does (.trn k rd ac) s k 1 (onlyQ rd (x / 2 ^ 24)) ∧
      Does (.mfah k rd ac) s k 1 (onlyG rd (BitVec.ofNat 24 (u / 2 ^ 24))) ∧
      Does (.mfal k rd ac) s k 1 (onlyG rd (BitVec.ofNat 24 u)) ∧
      Does (.mfag k rd ac) s k 1 (onlyG rd (BitVec.ofInt 24 (x / 2 ^ 48))) ∧
      (-24 ≤ n.toInt → n.toInt ≤ 24 →
        Does (.rnds k rd ac n) s k 1
          (onlyQ rd (if 0 ≤ n.toInt then (x * 2 ^ n.toInt.toNat + 2 ^ 23) / 2 ^ 24
            else (x + 2 ^ (23 + (-n.toInt).toNat)) / 2 ^ (24 + (-n.toInt).toNat)))) ∧
      Does (.mfas k rd 0) s k 1 (onlyG rd (BitVec.ofNat 24 ((if c.sat then 1 else 0) + (if c.aov then 2 else 0))))) ∧
    (s.runs k 1 [ra] →
      Does (.mtas k 0 ra) s k 1 (fun c d => (∀ r, d.peekG r = c.peekG r) ∧ d.sat = a.getLsbD 0 ∧ d.aov = a.getLsbD 1 ∧ d.a0 = c.a0 ∧
        d.a1 = c.a1 ∧ d.loops = c.loops ∧ d.slot = none)) ∧
    (s.runs k 1 [ra, rb] →
      (b ≠ 0 →
        Does (.div k rd ra rb) s k 1 (onlyG rd (BitVec.ofInt 24 (a.toInt.tdiv b.toInt))) ∧
        Does (.divu k rd ra rb) s k 1 (onlyG rd (BitVec.ofNat 24 (a.toNat / b.toNat))) ∧
        Does (.rem k rd ra rb) s k 1 (onlyG rd (BitVec.ofInt 24 (a.toInt.tmod b.toInt))) ∧
        Does (.remu k rd ra rb) s k 1 (onlyG rd (BitVec.ofNat 24 (a.toNat % b.toNat))) ∧
        Does (.divq k rd ra rb) s k 1 (onlyQ rd ((a.toInt * 2 ^ 23).tdiv b.toInt))) ∧
      (b = 0 →
        Does (.div k rd ra rb) s k 1 (onlyG rd (if 0 ≤ a.toInt then 0x7FFFFF else 0x800001)) ∧
        Does (.divu k rd ra rb) s k 1 (onlyG rd 0xFFFFFF) ∧
        Does (.rem k rd ra rb) s k 1 (onlyG rd a) ∧
        Does (.remu k rd ra rb) s k 1 (onlyG rd a) ∧
        Does (.divq k rd ra rb) s k 1 (fun c d => writes rd (if 0 ≤ a.toInt then 0x7FFFFF else 0x800001) c d ∧ d.sat = true ∧
          d.a0 = c.a0 ∧ d.a1 = c.a1 ∧ d.aov = c.aov ∧ d.loops = c.loops ∧ d.slot = none)))

/-- R107–R110: the decision, the target and the link of every control transfer, resolved at issue; the delay slot comes next. -/
def Obligations.TransfersResolve : Prop :=
  ∀ (k : Fin 512) (rd ra rb : Fin 16) (d10 : BitVec 10) (d18 : BitVec 18) (i4 : BitVec 4) (w : BitVec 24) (s : State),
    let p := (s.th k).ctx.pc
    let a := (s.th k).ctx.rdG ra
    let b := (s.th k).ctx.rdG rb
    let short := p + BitVec.ofInt 24 d10.toInt
    let rel := p + BitVec.ofInt 24 d18.toInt
    (s.runs k 1 [ra, rb] → s.passes k (p + 1) →
      Does (.beq k ra rb d10) s k 1 (awaitsSlot false (a = b) short none) ∧
      Does (.bne k ra rb d10) s k 1 (awaitsSlot false (a ≠ b) short none) ∧
      Does (.blt k ra rb d10) s k 1 (awaitsSlot false (a.toInt < b.toInt) short none) ∧
      Does (.bge k ra rb d10) s k 1 (awaitsSlot false (b.toInt ≤ a.toInt) short none) ∧
      Does (.bltu k ra rb d10) s k 1 (awaitsSlot false (a.toNat < b.toNat) short none) ∧
      Does (.bgeu k ra rb d10) s k 1 (awaitsSlot false (b.toNat ≤ a.toNat) short none)) ∧
    (s.runs k 1 [ra] → s.passes k (p + 1) →
      Does (.beqi k ra i4 d10) s k 1 (awaitsSlot false (a.toInt = i4.toInt) short none) ∧
      Does (.bnei k ra i4 d10) s k 1 (awaitsSlot false (a.toInt ≠ i4.toInt) short none) ∧
      Does (.blti k ra i4 d10) s k 1 (awaitsSlot false (a.toInt < i4.toInt) short none) ∧
      Does (.bgei k ra i4 d10) s k 1 (awaitsSlot false (i4.toInt ≤ a.toInt) short none) ∧
      Does (.bltui k ra i4 d10) s k 1 (awaitsSlot false (a.toNat < i4.toNat) short none) ∧
      Does (.bgeui k ra i4 d10) s k 1 (awaitsSlot false (i4.toNat ≤ a.toNat) short none) ∧
      Does (.jr k 0 ra) s k 1 (awaitsSlot false True a none) ∧
      Does (.callr k rd ra) s k 1 (awaitsSlot false True a (some rd))) ∧
    (s.runs k 2 [ra, rb] → s.passes k (p + 2) →
      Does (.beqLong k ra rb w) s k 2 (awaitsSlot true (a = b) w none) ∧
      Does (.bneLong k ra rb w) s k 2 (awaitsSlot true (a ≠ b) w none) ∧
      Does (.bltLong k ra rb w) s k 2 (awaitsSlot true (a.toInt < b.toInt) w none) ∧
      Does (.bgeLong k ra rb w) s k 2 (awaitsSlot true (b.toInt ≤ a.toInt) w none) ∧
      Does (.bltuLong k ra rb w) s k 2 (awaitsSlot true (a.toNat < b.toNat) w none) ∧
      Does (.bgeuLong k ra rb w) s k 2 (awaitsSlot true (b.toNat ≤ a.toNat) w none)) ∧
    (s.runs k 1 [] → s.passes k (p + 1) →
      Does (.j k d18) s k 1 (awaitsSlot false True rel none) ∧
      Does (.call k d18) s k 1 (awaitsSlot false True rel (some 15))) ∧
    (s.runs k 2 [] → s.passes k (p + 2) →
      Does (.jl k 0 0 w) s k 2 (awaitsSlot true True w none) ∧
      Does (.calll k rd 0 w) s k 2 (awaitsSlot true True w (some rd)))

/-- R110, R115: where the thread continues after a delay slot and at LE, the link written after the slot, and the cascade of loops that end
together. -/
def Obligations.NextAddress : Prop :=
  ∀ (k : Fin 512) (rd ra rb : Fin 16) (w : BitVec 24) (s : State),
    let t := s.th k
    let c := t.ctx
    let v := c.rdG ra + c.rdG rb
    (∀ sl, c.slot = some sl → (∀ l ∈ c.loops.head?, l.tag = t.depth → l.stop ≠ c.pc ∧ l.stop ≠ c.pc + 1) →
      let after := fun (n : Nat) (x : Word) (u : State) =>
        s.beatOnly u k ∧ s.sameMem u ∧ (u.th k).ctx.slot = none ∧ (u.th k).ctx.pc = (sl.target).getD (c.pc + w24 n) ∧
        (∀ r, (u.th k).ctx.peekG r = if r = 0 then 0 else if sl.link = some r then c.pc + w24 n else if r = rd then x else c.peekG r)
      (s.issues k [ra, rb] → Gives (.add k rd ra rb) s (after 1 v)) ∧
      (s.issues k [0] → Gives (.li k rd 0 w) s (after 2 w))) ∧
    (∀ l r, c.slot = none → s.passes k c.pc → s.issues k [ra, rb] → c.loops = l :: r → l.tag = t.depth → l.stop = c.pc →
      let done := fun (q : Word) (ls : List LoopEnt) (u : State) =>
        s.beatLb u k ∧ s.sameMem u ∧ (u.th k).ctx.pc = q ∧ sameLoops (u.th k).ctx.loops ls ∧ writes rd v c (u.th k).ctx
      (1 < l.count.toNat → Gives (.add k rd ra rb) s (done l.start ({ l with count := l.count - 1 } :: r))) ∧
      (l.count.toNat ≤ 1 → (∀ m ∈ r.head?, m.stop ≠ l.stop ∨ m.tag ≠ t.depth) → Gives (.add k rd ra rb) s (done (c.pc + 1) r)) ∧
      (l.count.toNat ≤ 1 → ∀ m q, r = m :: q → m.stop = l.stop → m.tag = t.depth → 1 < m.count.toNat →
        Gives (.add k rd ra rb) s (done m.start ({ m with count := m.count - 1 } :: q))))

/-- R113, R114, R119: the loop instructions, with their STACK exceptions (CODE 0x0C; XADDR 1 for a full stack, 2 for an empty one). -/
def Obligations.LoopInstructions : Prop :=
  ∀ (k : Fin 512) (rd ra : Fin 16) (off : BitVec 14) (cnt : BitVec 8) (o10 : BitVec 10) (s : State),
    let t := s.th k
    let c := t.ctx
    let p := c.pc
    let n8 := BitVec.ofNat 24 cnt.toNat
    let e14 := p + 1 + BitVec.ofNat 24 off.toNat
    let e10 := p + 1 + BitVec.ofNat 24 o10.toNat
    let pushed := fun (n e : Word) (u : State) => s.beatLb u k ∧ s.sameMem u ∧ (u.th k).ctx.pc = p + 1 ∧
      (∀ r, (u.th k).ctx.peekG r = c.peekG r) ∧
      ∃ l, (u.th k).ctx.loops = l :: c.loops ∧ l.count = n ∧ l.start = p + 1 ∧ l.stop = e ∧ l.tag = t.depth
    let skipped := fun (e : Word) (u : State) => s.beatOnly u k ∧ s.sameMem u ∧ (u.th k).ctx.pc = e + 1 ∧
      (u.th k).ctx.loops = c.loops ∧ ∀ r, (u.th k).ctx.peekG r = c.peekG r
    (s.runs k 1 [ra] →
      (c.rdG ra ≠ 0 → c.loops.length < 3 → Gives (.loop k ra off) s (pushed (c.rdG ra) e14)) ∧
      (c.rdG ra = 0 → Gives (.loop k ra off) s (skipped e14)) ∧
      (c.rdG ra ≠ 0 → 3 ≤ c.loops.length → t.infl = [] → t.depth < 16 → Traps (.loop k ra off) s k 0x00C 1)) ∧
    (s.runs k 1 [] →
      (n8 ≠ 0 → c.loops.length < 3 → Gives (.loopi k cnt o10) s (pushed (n8) e10)) ∧
      (n8 = 0 → Gives (.loopi k cnt o10) s (skipped e10)) ∧
      (n8 ≠ 0 → 3 ≤ c.loops.length → t.infl = [] → t.depth < 16 → Traps (.loopi k cnt o10) s k 0x00C 1)) ∧
    (s.runs k 1 [] → (∀ l ∈ c.loops, l.stop ≠ p) → ∀ l r, c.loops = l :: r →
      Gives (.lpop k 0 0) s (fun u => s.beatLb u k ∧ s.sameMem u ∧ (u.th k).ctx.pc = p + 1 ∧ sameLoops (u.th k).ctx.loops r ∧
        ∀ x, (u.th k).ctx.peekG x = c.peekG x) ∧
      Does (.mflLc k rd 0) s k 1 (onlyG rd l.count) ∧
      Does (.mflLs k rd 0) s k 1 (onlyG rd l.start) ∧
      Does (.mflLe k rd 0) s k 1 (onlyG rd l.stop)) ∧
    (s.runs k 1 [ra] → (∀ l ∈ c.loops, l.stop ≠ p) → ∀ l r, c.loops = l :: r →
      Does (.mtlLc k 0 ra) s k 1 (fun c d => (∀ x, d.peekG x = c.peekG x) ∧ d.a0 = c.a0 ∧ d.a1 = c.a1 ∧ d.sat = c.sat ∧ d.aov = c.aov ∧
        d.loops = { l with count := c.rdG ra } :: r)) ∧
    (s.runs k 1 [] → Does (.ldepth k rd 0) s k 1 (onlyG rd (BitVec.ofNat 24 c.loops.length))) ∧
    (s.runs k 1 [] → c.loops = [] →
      Does (.mflLc k rd 0) s k 1 (onlyG rd 0) ∧
      Does (.mflLs k rd 0) s k 1 (onlyG rd 0) ∧
      Does (.mflLe k rd 0) s k 1 (onlyG rd 0) ∧
      (t.infl = [] → t.depth < 16 → Traps (.lpop k 0 0) s k 0x00C 2)) ∧
    (s.runs k 1 [ra] → c.loops = [] → t.infl = [] → t.depth < 16 → Traps (.mtlLc k 0 ra) s k 0x00C 2)

/-- R64, R99–R104: loads through the memory port, at keeper privilege or through a cached translation. -/
def Obligations.LocalLoads : Prop :=
  ∀ (k : Fin 512) (rd ra rb : Fin 16) (i10 : BitVec 10) (w : BitVec 24) (s : State) (pa : Nat) (x y : Word),
    let c := (s.th k).ctx
    let e := k.val / 4
    let off := c.rdG ra + BitVec.ofInt 24 i10.toInt
    let one := fun (ea : Word) => s.reaches k .load ea pa ∧ ownLocal e pa = true ∧ s.cell pa = .good x ∧
      s.wpHit k .load ea 0 = none ∧ c.pend = [] ∧ s.portFree k [pa]
    let two := fun (ea : Word) => s.reaches k .load ea pa ∧ ownLocal e pa = true ∧ ownLocal e (pa + 1) = true ∧ s.cell pa = .good x ∧
      s.cell (pa + 1) = .good y ∧ ea.getLsbD 0 = false ∧ rd.val % 2 = 0 ∧ s.wpHit k .load ea 1 = none ∧ c.pend = [] ∧
      s.portFree k [pa, pa + 1]
    let word := fun (r : Nat) => if r = rd.val then some x else none
    let pair := fun (r : Nat) => if r = rd.val then some x else if r = rd.val + 1 then some y else none
    let post := fun (f : Nat → Option Word) (r : Nat) => (f r).or (if r = ra.val then some off else none)
    let shadowed := fun (f : Nat → Option Word) (c d : Ctx) => ∀ r, f r ≠ none → d.rdG r = c.peekG r
    (s.runs k 1 [ra] → one off → Does (.ld k rd ra i10) s k 1 (fun c d => loads word c d ∧ shadowed word c d)) ∧
    (s.runs k 1 [ra] → two off → Does (.ldp k rd ra i10) s k 1 (fun c d => loads pair c d ∧ shadowed pair c d)) ∧
    (s.runs k 1 [ra] → one (c.rdG ra) → (ra.val ≠ 0 → rd ≠ ra) →
      Does (.ldPostModify k rd ra i10) s k 1 (fun c d => loads (post word) c d ∧ shadowed word c d)) ∧
    (s.runs k 1 [ra] → two (c.rdG ra) → (ra.val ≠ 0 → rd ≠ ra ∧ rd.val + 1 ≠ ra.val) →
      Does (.ldpPostModify k rd ra i10) s k 1 (fun c d => loads (post pair) c d ∧ shadowed pair c d)) ∧
    (s.runs k 1 [ra, rb] → one (c.rdG ra + c.rdG rb) →
      Does (.ldx k rd ra rb) s k 1 (fun c d => loads word c d ∧ shadowed word c d)) ∧
    (s.runs k 1 [ra, rb] → two (c.rdG ra + c.rdG rb) →
      Does (.ldpx k rd ra rb) s k 1 (fun c d => loads pair c d ∧ shadowed pair c d)) ∧
    (s.runs k 2 [ra] → one (c.rdG ra + w) → Does (.ldLong k rd ra w) s k 2 (fun c d => loads word c d ∧ shadowed word c d)) ∧
    (s.runs k 2 [ra] → two (c.rdG ra + w) →
      Does (.ldpLong k rd ra w) s k 2 (fun c d => loads pair c d ∧ shadowed pair c d))

/-- R99–R103, R105, R197: stores through the memory port. The words stored are named by the physical address the effective address
reaches; every other word of memory reads as before. -/
def Obligations.LocalStores : Prop :=
  ∀ (k : Fin 512) (rd ra rb : Fin 16) (i10 : BitVec 10) (w : BitVec 24) (s : State) (pa : Nat) (x : Word),
    let c := (s.th k).ctx
    let e := k.val / 4
    let off := c.rdG ra + BitVec.ofInt 24 i10.toInt
    let u := c.rdG rd
    let v := c.rdG (rd.val + 1)
    let one := fun (ea : Word) => s.reaches k .store ea pa ∧ ownLocal e pa = true ∧ s.wpHit k .store ea 0 = none ∧
      (s.th k).infl = [] ∧ s.portFree k [pa]
    let two := fun (ea : Word) => s.reaches k .store ea pa ∧ ownLocal e pa = true ∧ ownLocal e (pa + 1) = true ∧
      ea.getLsbD 0 = false ∧ rd.val % 2 = 0 ∧ s.wpHit k .store ea 1 = none ∧
      (s.th k).infl = [] ∧ s.portFree k [pa, pa + 1]
    let did := fun (n : Nat) (words : List (Nat × Word)) (upd : Nat → Option Word) (t : State) =>
      s.beatLb t k ∧ (t.th k).ctx.pc = c.pc + w24 n ∧ updates upd c (t.th k).ctx ∧
      (∀ q ∈ words, t.cell q.1 = .good q.2) ∧ ∀ a, a ∉ words.map (fun q => q.1) → t.cell a = s.cell a
    let none' := fun (_ : Nat) => (none : Option Word)
    let base := fun (r : Nat) => if r = ra.val then some off else none
    (s.runs k 1 [rd, ra] → one off → Gives (.st k rd ra i10) s (did 1 [(pa, u)] none')) ∧
    (s.runs k 1 [rd, rd.val + 1, ra] → two off → Gives (.stp k rd ra i10) s (did 1 [(pa, u), (pa + 1, v)] none')) ∧
    (s.runs k 1 [rd, ra] → one (c.rdG ra) → Gives (.stPostModify k rd ra i10) s (did 1 [(pa, u)] base)) ∧
    (s.runs k 1 [rd, rd.val + 1, ra] → two (c.rdG ra) → Gives (.stpPostModify k rd ra i10) s (did 1 [(pa, u), (pa + 1, v)] base)) ∧
    (s.runs k 1 [rd, ra, rb] → one (c.rdG ra + c.rdG rb) → Gives (.stx k rd ra rb) s (did 1 [(pa, u)] none')) ∧
    (s.runs k 1 [rd, rd.val + 1, ra, rb] → two (c.rdG ra + c.rdG rb) → Gives (.stpx k rd ra rb) s (did 1 [(pa, u), (pa + 1, v)] none')) ∧
    (s.runs k 2 [rd, ra] → one (c.rdG ra + w) → Gives (.stLong k rd ra w) s (did 2 [(pa, u)] none')) ∧
    (s.runs k 2 [rd, rd.val + 1, ra] → two (c.rdG ra + w) → Gives (.stpLong k rd ra w) s (did 2 [(pa, u), (pa + 1, v)] none')) ∧
    (s.runs k 1 [rd, ra] → s.reaches k .xchg off pa → ownLocal e pa = true → s.cell pa = .good x → s.wpHit k .xchg off 0 = none →
      (s.th k).infl = [] → c.pend = [] →
      s.portFree k [pa] → Gives (.xchg k rd ra i10) s (did 1 [(pa, u)] (fun r => if r = rd.val then some x else none)))

/-- R49, R58, R66, R99, R105, R106, R208: an access outside the engine's own local memory at keeper privilege, issued and then completed. -/
def Obligations.SpineAccesses : Prop :=
  (∀ (k : Fin 512) (rd ra : Fin 16) (i10 : BitVec 10) (s : State),
    let c := (s.th k).ctx
    let e := k.val / 4
    let ea := c.rdG ra + BitVec.ofInt 24 i10.toInt
    let pa := ea.toNat
    (s.th k).bind.prv = true → (s.th k).infl = [] → c.pend = [] → (s.en e).spine.length < 4 → sramRegion pa = true →
    ownLocal e pa = false →
    let sent := fun (kind : AccKind) (t : State) => ∃ a : Access, (t.en e).spine = (s.en e).spine ++ [a] ∧ a.k = k.val ∧ a.kind = kind ∧ a.pair = false ∧
      a.pa = pa ∧ a.rd = rd.val ∧ a.d0 = c.rdG rd ∧ a.prv = true ∧ s.sameMem t ∧ (t.th k).ctx.pc = c.pc + 1 ∧
      (∀ r, (t.th k).ctx.peekG r = c.peekG r) ∧ (∀ j, j ≠ k.val → (t.th j).ctx = (s.th j).ctx) ∧
      (kind = .store → (t.th k).infl = []) ∧
      (kind ≠ .store → (∃ i, (t.th k).infl = [i] ∧ i.id = a.id ∧ i.st = .waiting) ∧
        (rd.val ≠ 0 → (rd.val, a.id) ∈ (t.th k).ctx.pend))
    (s.runs k 1 [ra] → s.wpHit k .load ea 0 = none → Gives (.ld k rd ra i10) s (sent .load)) ∧
    (s.runs k 1 [rd, ra] → s.wpHit k .store ea 0 = none → Gives (.st k rd ra i10) s (sent .store)) ∧
    (s.runs k 1 [rd, ra] → s.wpHit k .xchg ea 0 = none → Gives (.xchg k rd ra i10) s (sent .xchg))) ∧
  (∀ (e : Fin 128) (ok tck : Bool) (a : Access) (r : List Access) (s : State),
    s.quarantined (e.val / 16) = false → (s.en e).spine = a :: r → (∀ b ∈ r, b.id ≠ a.id) → a.pair = false → sramRegion a.pa = true →
    s.closed a.pa = false → s.bankTurn e a = true → (s.th a.k).replay = [] →
    (a.kind = .store → (s.th a.k).infl = [] →
      Gives (.accessComplete e 0 ok tck) s (fun t => t.cell a.pa = .good a.d0 ∧ (∀ q, q ≠ a.pa → t.cell q = s.cell q) ∧
        (t.en e).spine = r ∧ ∀ j, sameCtx (s.th j).ctx (t.th j).ctx)) ∧
    (∀ (i : Infl) (w : Word), a.kind = .load → (s.th a.k).infl = [i] → i.id = a.id → i.st = .waiting → s.cell a.pa = .good w →
      (s.th a.k).ctx.pend = [(a.rd, a.id)] → a.rd ≠ 0 → (s.th a.k).haltReq = 0 → (s.th a.k).stepping = false →
      Gives (.accessComplete e 0 ok tck) s (fun t => s.sameMem t ∧ (t.en e).spine = r ∧ (t.th a.k).infl = [] ∧ (t.th a.k).ctx.pend = [] ∧
        (t.th a.k).ctx.pc = (s.th a.k).ctx.pc ∧
        (∀ q, (t.th a.k).ctx.peekG q = if q = 0 then 0 else if q = a.rd then w else (s.th a.k).ctx.peekG q) ∧
        ∀ j, j ≠ a.k → (t.th j).ctx = (s.th j).ctx)))

/-- R133–R142: each waiting instruction completes or waits in its mode, and its completion command ends the wait. -/
def Obligations.WaitsAndCompletions : Prop :=
  ∀ (k : Fin 512) (rd ra : Fin 16) (d : Pair) (s : State),
    let t := s.th k
    let c := t.ctx
    let target : Pair := c.rdG (ra.val + 1) ++ c.rdG ra
    let late := fun (d x : Pair) => s.time.locked = true ∧ (d.toNat + 2 ^ 48 - x.toNat) % 2 ^ 48 < 2 ^ 47
    let plain := t.haltReq = 0 ∧ t.stepping = false ∧ t.rom = false ∧ t.infl = [] ∧ c.slot = none ∧ s.chn.drains = [] ∧
      (∀ l ∈ c.loops.head?, l.tag = t.depth → l.stop ≠ c.pc)
    let resumed := fun (u : State) => s.sysStep u k ∧ (u.th k).mode = .run
    (s.runs k 1 [] → t.infl = [] →
      (t.el = true → Gives (.wfe k 0 0) s (fun u => s.sysStep u k ∧ s.sameRest u ∧ (u.th k).el = false ∧ (u.th k).mode = .run)) ∧
      (t.el = false → Gives (.wfe k 0 0) s (fun u => s.waitsIn u k .event ∧ (u.th k).el = false)) ∧
      (t.rws = [] → Gives (.sync k 0 0) s (fun u => s.sysStep u k ∧ s.sameRest u ∧ (u.th k).mode = .run)) ∧
      (t.rws ≠ [] → Gives (.sync k 0 0) s (fun u => s.waitsIn u k .sync))) ∧
    (s.runs k 1 [ra, ra.val + 1] → t.infl = [] → ra.val % 2 = 0 → s.sees k d →
      (late d target → Gives (.waitt k 0 ra) s (fun u => s.sysStep u k ∧ s.sameRest u ∧ (u.th k).mode = .run)) ∧
      (¬ late d target → Gives (.waitt k 0 ra) s (fun u => s.waitsIn u k (.time target)))) ∧
    (s.runs k 1 [] → rd.val % 2 = 0 → s.sees k d →
      Does (.rdt k rd 0) s k 1 (fun c e => keepsAcc c e ∧ ∀ r, e.peekG r = if r = 0 then 0 else if r = rd.val then d.extractLsb' 0 24
        else if r = rd.val + 1 then d.extractLsb' 24 24 else c.peekG r)) ∧
    (s.runs k 1 [] →
      ((∀ a ∈ (s.en (k / 4)).spine, a.k ≠ k.val) → Gives (.fence k 0 0) s (fun u => s.sysStep u k ∧ s.sameRest u ∧ (u.th k).mode = .run)) ∧
      ((∃ a ∈ (s.en (k / 4)).spine, a.k = k.val) → Gives (.fence k 0 0) s (fun u => s.waitsIn u k .fence))) ∧
    (∀ x, t.mode = .time x → s.pwr.state = 0 → s.resting 0 = false → s.sees k d → late d x → plain →
      Gives (.waittTargetReached k) s resumed) ∧
    (t.mode = .fence → (∀ a ∈ (s.en (k / 4)).spine, a.k ≠ k.val) → plain → Gives (.fenceComplete k) s resumed) ∧
    (t.mode = .sync → plain → Gives (.syncComplete k) s resumed) ∧
    (∀ v : Word,
      (t.rws = [(Reg.EVI_CTL (k / 4), v)] → t.mode ≠ .sync → Gives (.syncComplete k) s (fun u => (u.th k).rws = [] ∧
        (u.en (k / 4)).modeEff = v.getLsbD 0 ∧ (u.th k).ctx = c ∧ s.sameMem u)) ∧
      (t.rws = [(Reg.EVI_TtBASE (k / 4) (k % 4), v)] → t.mode ≠ .sync → Gives (.syncComplete k) s (fun u => (u.th k).rws = [] ∧
        u.baseOf k = min (v.toNat % 32) 16 ∧ (u.th k).ctx = c ∧ s.sameMem u)))

/-- R150: what each invalidation instruction removes and what it keeps, and PRIV at capsule privilege (CODE 0x04, XADDR the word). -/
def Obligations.TranslationInvalidation : Prop :=
  ∀ (k : Fin 512) (rd ra : Fin 16) (s : State),
    let t := s.th k
    let e := k.val / 4
    let cap := fun (r : Fin 16) => (t.ctx.rdG r).toNat % 1024
    let va := (t.ctx.rdG ra).toNat
    let hit := fun (u : State) (x c v : Nat) => (u.en x).tcLookup c v
    (t.bind.prv = true → t.infl = [] →
      (s.runs k 1 [] →
        Gives (.tcia k 0 0) s (fun u => s.sysStep u k ∧ s.sameRest u ∧ (∀ c v, hit u e c v = none) ∧
          ∀ x, x ≠ e → ∀ c v, hit u x c v = hit s x c v) ∧
        Gives (.btcia k 0 0) s (fun u => s.sysStep u k ∧ s.sameRest u ∧ ∀ x c v, hit u x c v = none)) ∧
      (s.runs k 1 [ra] →
        Gives (.tcic k 0 ra) s (fun u => s.sysStep u k ∧ s.sameRest u ∧ (∀ v, hit u e (cap ra) v = none) ∧
          (∀ c v, c ≠ cap ra → hit u e c v = hit s e c v) ∧ ∀ x, x ≠ e → ∀ c v, hit u x c v = hit s x c v) ∧
        Gives (.btcic k 0 ra) s (fun u => s.sysStep u k ∧ s.sameRest u ∧ (∀ x v, hit u x (cap ra) v = none) ∧
          ∀ x c v, c ≠ cap ra → hit u x c v = hit s x c v)) ∧
      (s.runs k 1 [rd, ra] →
        Gives (.tcip k rd ra) s (fun u => s.sysStep u k ∧ s.sameRest u ∧ hit u e (cap rd) va = none ∧
          (∀ c v, c ≠ cap rd → hit u e c v = hit s e c v) ∧ ∀ x, x ≠ e → ∀ c v, hit u x c v = hit s x c v) ∧
        Gives (.btcip k rd ra) s (fun u => s.sysStep u k ∧ s.sameRest u ∧ (∀ x, hit u x (cap rd) va = none) ∧
          ∀ x c v, c ≠ cap rd → hit u x c v = hit s x c v))) ∧
    (t.bind.prv = false → t.infl = [] → t.depth < 16 →
      let word := fun (d r f : Nat) => BitVec.ofNat 24 (0x39 * 2 ^ 18 + d * 2 ^ 14 + r * 2 ^ 10 + f * 2 ^ 4)
      (s.runs k 1 [] → Traps (.tcia k 0 0) s k 0x004 (word 0 0 7) ∧ Traps (.btcia k 0 0) s k 0x004 (word 0 0 10)) ∧
      (s.runs k 1 [ra] → Traps (.tcic k 0 ra) s k 0x004 (word 0 ra 8) ∧ Traps (.btcic k 0 ra) s k 0x004 (word 0 ra 11)) ∧
      (s.runs k 1 [rd, ra] → Traps (.tcip k rd ra) s k 0x004 (word rd ra 9) ∧ Traps (.btcip k rd ra) s k 0x004 (word rd ra 12) ∧
        Traps (.cswap k rd ra) s k 0x004 (word rd ra 6)))

/-- R139, R140, R143, R148: the signalling instructions, the gate and the checkpoint. -/
def Obligations.SignalGateCheckpoint : Prop :=
  ∀ (k : Fin 512) (ra : Fin 16) (n : BitVec 10) (s : State),
    let t := s.th k
    let c := t.ctx
    let e := k.val / 4
    let ev := 976 + n.toNat
    let bit := if n.toNat < 24 then (s.desc t.bind.cid 8).getLsbD n.toNat else (s.desc t.bind.cid 9).getLsbD (n.toNat - 24)
    t.infl = [] → t.depth < 16 →
    (s.runs k 1 [] → n.toNat < 32 →
      ((t.bind.prv = true ∨ bit = true) → Gives (.sev k 0 n) s (fun u => s.sysStep u k ∧ u.ev.router = s.ev.router ++ [ev] ∧
        u.ev.crossing = s.ev.crossing)) ∧
      (t.bind.prv = false → bit = false → Gives (.sev k 0 n) s (fun u => s.entered u k c.pc 0x006 (BitVec.ofNat 24 ev) ∧
        u.ev.router = s.ev.router ++ [0x01D] ∧ u.ev.crossing = s.ev.crossing))) ∧
    (s.runs k 1 [] → s.fl (Reg.EVI_HOLD e) Reg.EVI_HOLD_HOLD = 0 → s.fl (Reg.EVI_SsCOAL e 2) Reg.EVI_SsCOAL_CCNT ≤ 1 →
      Gives (.sevl k 0 0) s (fun u => (u.th k).ctx = { c with shadow := [], pc := c.pc + 1 } ∧ u.pendB e 2 = true ∧
        (∀ m, m < 72 → m ≠ 2 → u.pendB e m = s.pendB e m) ∧ s.sameMem u ∧ s.sameRest u)) ∧
    (s.runs k 1 [] →
      (t.bind.prv = false → Gives (.callk k 0 n) s (fun u => s.entered u k (c.pc + 1) 0x001 (BitVec.ofNat 24 n.toNat))) ∧
      (t.bind.prv = true → Traps (.callk k 0 n) s k 0x003 (BitVec.ofNat 24 (0x3A * 2 ^ 18 + 2 * 2 ^ 14 + n.toNat)))) ∧
    (∀ ws : List Word, s.runs k 1 [ra] → t.bind.prv = true → n.toNat < 64 → ws.length = n.toNat + 1 → (s.en e).stag.items = [] →
      (s.desc 0 16).getLsbD 23 = true →
      (∀ i, i < ws.length → ownLocal e (c.rdG ra + w24 i).toNat = true ∧ s.cell (c.rdG ra + w24 i).toNat = .good (ws.getD i 0)) →
      Gives (.ckpt k ra n) s (fun u => s.sysStep u k ∧
        (u.en e).stag.items = BitVec.ofNat 24 (3 * 2 ^ 20 + ((s.en e).ckseq + 1) % 8192 * 2 ^ 7 + ws.length) :: ws ∧
        (u.en e).stag.strand = (s.desc 0 16).toNat % 512 ∧ (u.en e).stag.thread = k.val ∧ (u.en e).stag.epoch = s.epoch 0 ∧
        (u.en e).ckseq = ((s.en e).ckseq + 1) % 8192 ∧ s.sameRest u))

/-- R72, R73, R166–R170, R179, R182, R184: what an entry saves and where the thread goes on. -/
def Obligations.EntriesSaveState : Prop :=
  (∀ (k : Fin 512) (cs : Cause) (acc : AccKind) (lvl : Fin 4) (addr : BitVec 24) (s : State),
    let t := s.th k
    s.isReady k = true → t.infl = [] → t.depth < 16 → t.haltReq = 0 → t.stepping = false →
    raises cs addr = true →
    let code : Nat := match cs with
      | .align => 2 | .illegal => 3 | .priv => 4 | .xlate => 5 | .perm => 6 | .walkDev => 7 | .walkEcc => 8 | .bus => 9 | .ecc => 10
      | .parity => 11 | .stack => 12 | _ => 0
    let kind : Nat := match acc with
      | .fetch => 0 | .load => 1 | .store => 2 | .xchg => 3
    let shown : Nat := match cs with
      | .illegal | .priv | .parity | .stack => 0
      | _ => kind
    let cause := BitVec.ofNat 24 (shown * 256 + lvl.val * 64 + code)
    (t.ctx.slot = none → Gives (.exceptionEntry k cs acc lvl addr) s (fun u => s.entered u k t.ctx.pc cause addr ∧
      ∃ l, (u.th k).levels.head? = some l ∧ l.xst.getLsbD 0 = false)) ∧
    (∀ sl q, t.ctx.slot = some sl → sl.target = some q → sl.link = none →
      Gives (.exceptionEntry k cs acc lvl addr) s (fun u => s.entered u k sl.xferAt cause addr ∧
        ∃ l, (u.th k).levels.head? = some l ∧ l.xst.getLsbD 0 = true ∧ l.xst.getLsbD 2 = sl.long ∧ l.xtgt = q))) ∧
  (∀ (k : Fin 512) (n : Fin 64) (s : State),
    let t := s.th k
    let e := k.val / 4
    let p := fun (m : Nat) => getF (s.rd (Reg.EVI_SsCFG e m)) Reg.EVI_SsCFG_PRIO
    let eligible := fun (m : Nat) => getF (s.rd (Reg.EVI_SsCFG e m)) Reg.EVI_SsCFG_KIND = 0 ∧
      getF (s.rd (Reg.EVI_SsCFG e m)) Reg.EVI_SsCFG_THR = k.val % 4 ∧ s.pendB e m = true ∧ s.maskB e m = false ∧ s.actB e m = false
    s.pwr.state = 0 → t.mode = .run → t.halt = 0 → t.haltReq = 0 → t.stepping = false → t.rom = false → t.postEoi = 0 → t.infl = [] →
    t.ctx.slot = none → t.depth ≤ 14 → eligible n → s.baseOf k ≤ p n → (∀ l ∈ t.levels, l.live = true → l.prio < p n) →
    (∀ m, m < 64 → eligible m → m ≠ n → p m < p n ∨ (p m = p n ∧ n.val < m)) →
    Takes 0 (.interruptAccept k) s (fun u =>
      (∃ l, (u.th k).levels = l :: t.levels ∧ l.xpc = t.ctx.pc ∧ l.xcause = BitVec.ofNat 24 (n.val * 1024) ∧ l.intr = true ∧ l.live = true ∧
        l.src = n.val ∧ l.prio = p n ∧ l.claimed = false ∧ l.xst.getLsbD 23 = t.bind.prv ∧ getBits l.xst 22 13 = t.bind.cid % 1024 ∧
        getBits l.xst 7 4 = p n) ∧
      (u.th k).ctx = { t.ctx with pc := s.rd (Reg.EVI_TtIVEC e (k.val % 4)), pend := [], shadow := [], shPend := [] } ∧ (u.th k).el = true ∧
      (u.th k).bind.prv = true ∧ (u.th k).bind.cid = 0 ∧ (∀ j, j ≠ k.val → (u.th j).ctx = (s.th j).ctx) ∧ s.sameMem u ∧
      (∀ a, u.rd a = s.rd a)))

/-- R144–R147, R176, R185: retx and cswap. The words of the out-area hold what the thread held; every word outside it reads as before. -/
def Obligations.ReturnAndSwap : Prop :=
  (∀ (k : Fin 512) (l : Level) (rest : List Level) (s : State),
    let t := s.th k
    let e := k.val / 4
    s.runs k 1 [] → t.infl = [] → t.levels = l :: rest → (l.xst.getLsbD 23 = true ↔ getBits l.xst 22 13 = 0) → t.al = 0 → t.replay = [] →
    (∀ m, m < 64 → getF (s.rd (Reg.EVI_SsCFG e m)) Reg.EVI_SsCFG_KIND = 0 → s.pendB e m = false) →
    (∀ x ∈ t.ctx.loops, x.tag ≤ rest.length) →
    Gives (.retx k 0 0) s (fun u => (u.th k).levels = rest ∧ (u.th k).bind.prv = l.xst.getLsbD 23 ∧
      (u.th k).bind.cid = getBits l.xst 22 13 ∧ (∀ r, (u.th k).ctx.peekG r = t.ctx.peekG r) ∧ (u.th k).ctx.a0 = t.ctx.a0 ∧
      (u.th k).ctx.a1 = t.ctx.a1 ∧ (u.th k).ctx.loops = t.ctx.loops ∧ s.sameMem u ∧ (∀ j, j ≠ k.val → (u.th j).ctx = (s.th j).ctx) ∧
      (l.xst.getLsbD 0 = false → (u.th k).ctx.pc = l.xpc ∧ (u.th k).ctx.slot = none) ∧
      (l.xst.getLsbD 0 = true → (u.th k).ctx.pc = l.xpc + (if l.xst.getLsbD 2 then 2 else 1) ∧
        ∃ sl, (u.th k).ctx.slot = some sl ∧ sl.target = some l.xtgt ∧ sl.xferAt = l.xpc) ∧
      (l.live = true → l.claimed = true → l.src < 64 → u.actB e l.src = false))) ∧
  (∀ (k : Fin 512) (s : State), s.runs k 1 [] → (s.th k).infl = [] → (s.th k).levels = [] → Traps (.retx k 0 0) s k 0x00C 3) ∧
  (∀ (k : Fin 512) (rd ra : Fin 16) (l : Level) (rest : List Level) (W : Nat → Word) (s : State),
    let t := s.th k
    let c := t.ctx
    let e := k.val / 4
    let out := (c.rdG rd).toNat
    let inn := (c.rdG ra).toNat
    s.runs k 1 [rd, ra] → t.bind.prv = true → t.infl = [] → t.levels = l :: rest → l.live = false → t.replay = [] → t.al = 0 → c.loops = [] →
    (s.en e).lb.owner ≠ some k.val →
    (∀ m, m < 64 → getF (s.rd (Reg.EVI_SsCFG e m)) Reg.EVI_SsCFG_KIND = 0 → s.pendB e m = false) →
    (t.depth < 16 → out % 2 = 1 ∨ inn % 2 = 1 ∨ (out < inn + 144 ∧ inn < out + 144) →
      Traps (.cswap k rd ra) s k 0x003 (BitVec.ofNat 24 (0x39 * 2 ^ 18 + rd.val * 2 ^ 14 + ra.val * 2 ^ 10 + 6 * 2 ^ 4))) ∧
    (out % 2 = 0 → inn % 2 = 0 → (s.en e).spine.length < 4 → (∀ x ∈ (s.en e).spine, x.k ≠ k.val) →
      (out + 144 ≤ inn ∨ inn + 144 ≤ out) →
      (∀ i, i < 144 → sramRegion (out + i) = true ∧ sramRegion (inn + i) = true ∧ s.closed (out + i) = false ∧ s.closed (inn + i) = false ∧
        s.cell (inn + i) = .good (W i)) →
      W 24 = 0 → W 25 = 0 → ((W 43).getLsbD 23 = true ↔ getBits (W 43) 9 0 = 0) → (W 39).getLsbD 0 = false →
      Gives (.cswap k rd ra) s (fun u =>
        (∀ r, r < 16 → (u.th k).ctx.peekG r = if r = 0 then 0 else W r) ∧
        (u.th k).ctx.a0 = (W 18).extractLsb' 0 8 ++ W 17 ++ W 16 ∧ (u.th k).ctx.a1 = (W 22).extractLsb' 0 8 ++ W 21 ++ W 20 ∧
        (u.th k).ctx.sat = (W 19).getLsbD 0 ∧ (u.th k).ctx.aov = (W 19).getLsbD 1 ∧ (u.th k).el = (W 23).getLsbD 0 ∧
        (u.th k).ctx.pc = W 38 ∧ (u.th k).ctx.slot = none ∧ (u.th k).levels = rest ∧ (u.th k).bind.prv = (W 43).getLsbD 23 ∧
        (u.th k).bind.cid = getBits (W 43) 9 0 ∧
        (∀ r, 1 ≤ r → r < 16 → r ≠ rd.val → r ≠ ra.val → u.cell (out + r) = .good (c.rdG r)) ∧
        u.cell (out + 38) = .good l.xpc ∧ u.cell (out + 39) = .good l.xst ∧
        (∀ a, a < out ∨ out + 144 ≤ a → u.cell a = s.cell a) ∧ ∀ j, j ≠ k.val → sameCtx (s.th j).ctx (u.th j).ctx)))

/-- R86: forbidden encodings take ILLEGAL, with the first word of the instruction in XADDR (R87, R182). -/
def Obligations.IllegalEncodings : Prop :=
  ∀ (k : Fin 512) (rd ra rb : Fin 16) (pos len1 n5 : BitVec 5) (n : BitVec 7) (w : BitVec 24) (s : State),
    let t := s.th k
    let word := fun (op d a b f : Nat) => BitVec.ofNat 24 (op * 2 ^ 18 + d * 2 ^ 14 + a * 2 ^ 10 + b * 2 ^ 6 + f)
    let ill := fun (i : Instr) (x : Word) => Traps i s k 0x003 x
    t.infl = [] → t.depth < 16 →
    (s.runs k 1 [ra] →
      (rb.val ≠ 0 → ill (.clz k rd ra rb) (word 0 rd ra rb 0x14) ∧ ill (.abss k rd ra rb) (word 0x34 rd ra rb 3)) ∧
      (24 ≤ n5.toNat → ill (.slli k rd ra n5) (word 7 rd ra 0 n5.toNat) ∧ ill (.srli k rd ra n5) (word 7 rd ra 4 n5.toNat) ∧
        ill (.srai k rd ra n5) (word 7 rd ra 8 n5.toNat) ∧ ill (.roli k rd ra n5) (word 7 rd ra 12 n5.toNat)) ∧
      (24 ≤ pos.toNat + len1.toNat → ill (.extu k rd ra pos len1) (word 9 rd ra 0 (pos.toNat * 32 + len1.toNat)) ∧
        ill (.exts k rd ra pos len1) (word 10 rd ra 0 (pos.toNat * 32 + len1.toNat))) ∧
      (rd.val ≠ 0 → s.passes k (t.ctx.pc + 1) → ill (.jr k rd ra) (word 0x2F rd ra 0 0)) ∧
      (rd.val ≠ 0 → ill (.mtas k rd ra) (word 0x36 rd ra 4 0) ∧
        ill (.mtlLc k rd ra) (word 0x32 rd ra 1 0)) ∧
      (1 < rd.val → ill (.mtah k rd ra) (word 0x36 rd ra 1 0x20) ∧ ill (.mtal k rd ra) (word 0x36 rd ra 1 0x30) ∧
        ill (.mtag k rd ra) (word 0x36 rd ra 2 0))) ∧
    (s.runs k 1 [rd, ra] → 24 ≤ pos.toNat + len1.toNat → ill (.ins k rd ra pos len1) (word 11 rd ra 0 (pos.toNat * 32 + len1.toNat))) ∧
    (s.runs k 1 [rb] → ra.val ≠ 0 → ill (.negs k rd ra rb) (word 0x34 rd ra rb 2)) ∧
    (s.runs k 2 [ra] → ra.val ≠ 0 → ill (.li k rd ra w) (word 0x3C rd ra 0 0)) ∧
    (s.runs k 1 [ra, rb] → 1 < rd.val →
      ill (.mpy k rd ra rb) (word 0x35 rd ra rb 0) ∧ ill (.mac k rd ra rb) (word 0x35 rd ra rb 1) ∧
      ill (.msu k rd ra rb) (word 0x35 rd ra rb 2) ∧ ill (.mpyi k rd ra rb) (word 0x35 rd ra rb 3) ∧
      ill (.maci k rd ra rb) (word 0x35 rd ra rb 4)) ∧
    (s.runs k 1 [ra, ra.val + 1] → ra.val % 2 = 1 → ill (.waitt k 0 ra) (word 0x39 0 ra 0 0x10)) ∧
    (s.runs k 1 [] →
      (1 < ra.val → ill (.rnd k rd ra) (word 0x36 rd ra 0 0) ∧ ill (.rndc k rd ra) (word 0x36 rd ra 0 0x10) ∧
        ill (.trn k rd ra) (word 0x36 rd ra 0 0x20) ∧ ill (.mfah k rd ra) (word 0x36 rd ra 0 0x30) ∧
        ill (.mfal k rd ra) (word 0x36 rd ra 1 0) ∧ ill (.mfag k rd ra) (word 0x36 rd ra 1 0x10)) ∧
      (1 < rd.val ∨ 1 < ra.val → ill (.adda k rd ra) (word 0x36 rd ra 2 0x20) ∧ ill (.suba k rd ra) (word 0x36 rd ra 2 0x30) ∧
        ill (.mova k rd ra) (word 0x36 rd ra 3 0) ∧ ill (.nega k rd ra) (word 0x36 rd ra 3 0x10) ∧
        ill (.absa k rd ra) (word 0x36 rd ra 3 0x20)) ∧
      (1 < rd.val ∨ ra.val ≠ 0 → ill (.clra k rd ra) (word 0x36 rd ra 2 0x10)) ∧
      (1 < rd.val ∨ 1 < ra.val ∨ n.toInt < -48 ∨ 48 < n.toInt → ill (.asha k rd ra n) (word 0x37 rd ra 0 n.toNat)) ∧
      (1 < ra.val ∨ n.toInt < -24 ∨ 24 < n.toInt → ill (.rnds k rd ra n) (word 0x37 rd ra 2 n.toNat)) ∧
      (ra.val ≠ 0 → ill (.mfas k rd ra) (word 0x36 rd ra 3 0x30) ∧ ill (.ldepth k rd ra) (word 0x32 rd ra 1 0x10) ∧
        ill (.mflLc k rd ra) (word 0x32 rd ra 0 0x10) ∧ ill (.mflLs k rd ra) (word 0x32 rd ra 0 0x20) ∧
        ill (.mflLe k rd ra) (word 0x32 rd ra 0 0x30)) ∧
      (rd.val ≠ 0 ∨ ra.val ≠ 0 → ill (.lpop k rd ra) (word 0x32 rd ra 0 0) ∧ ill (.wfe k rd ra) (word 0x39 rd ra 0 0) ∧
        ill (.sync k rd ra) (word 0x39 rd ra 0 0x30) ∧ ill (.fence k rd ra) (word 0x39 rd ra 1 0) ∧
        ill (.retx k rd ra) (word 0x39 rd ra 1 0x10)) ∧
      (rd.val % 2 = 1 → ill (.rdt k rd 0) (word 0x39 rd 0 0 0x20))) ∧
    (s.runs k 2 [] → s.passes k (t.ctx.pc + 2) → (rd.val ≠ 0 ∨ ra.val ≠ 0 → ill (.jl k rd ra w) (word 0x3E rd ra 0 0)) ∧
      (ra.val ≠ 0 → ill (.calll k rd ra w) (word 0x3E rd ra 0 0x10)))

/-- R159–R165: one source of one engine, and the bits of its pending registers. The frame: no memory, no thread (but a woken one), no other
register changes. -/
def Obligations.EventInterface : Prop :=
  ∀ (e : Fin 128) (n : Fin 64) (w : Fin 3) (v : BitVec 24) (s : State),
    let x := s.src e n
    let limit := s.fl (Reg.EVI_SsCOAL e n) Reg.EVI_SsCOAL_CCNT
    let time := s.fl (Reg.EVI_SsCOAL e n) Reg.EVI_SsCOAL_CTIME
    let hold := s.fl (Reg.EVI_HOLD e) Reg.EVI_HOLD_HOLD
    let pends := fun (r : List Nat) (u : State) => (∀ m, m < 72 → u.pendB e m = (s.pendB e m || r.contains m)) ∧
      (∀ a, a ≠ Reg.EVI_PENDk e 0 → a ≠ Reg.EVI_PENDk e 1 → a ≠ Reg.EVI_PENDk e 2 → a ≠ Reg.EVI_CNT1 e → u.rd a = s.rd a) ∧
      s.sameMem u ∧ s.sameRest u ∧ u.thr = s.thr
    (hold = 0 → x.isOpen = false → limit ≤ 1 → Gives (.eventArrival e n) s (fun u => pends [n.val] u ∧ (u.src e n).isOpen = false)) ∧
    (x.isOpen = false → 1 < limit → Gives (.eventArrival e n) s (fun u => pends [] u ∧ (u.src e n).isOpen = true ∧ (u.src e n).k = 1 ∧
      (u.src e n).t0 = s.time.dt)) ∧
    (x.isOpen = true → 1 < limit → x.k + 1 < limit → Gives (.eventArrival e n) s (fun u => pends [] u ∧ (u.src e n).isOpen = true ∧
      (u.src e n).k = x.k + 1 ∧ (u.src e n).t0 = x.t0)) ∧
    (hold = 1 → x.isOpen = false → limit ≤ 1 → Gives (.eventArrival e n) s (fun u => pends [] u ∧ (u.src e n).latch = true)) ∧
    (s.pwr.state = 0 → hold = 0 → x.isOpen = true → time ≠ 0 → s.time.locked = true → time * 1000 ≤ (s.time.dt - x.t0).toNat →
      Gives (.coalesceTimeLimit e n) s (fun u => pends [n.val] u ∧ (u.src e n).isOpen = false)) ∧
    Gives (.pendWrite e w v) s (fun u => (∀ i, i < (if w.val = 2 then 16 else 24) → u.pendB e (24 * w.val + i) = v.getLsbD i) ∧
      (∀ m, m < 72 → m / 24 ≠ w.val → u.pendB e m = s.pendB e m) ∧ s.sameMem u ∧ s.sameRest u ∧ u.thr = s.thr) ∧
    Gives (.eviHoldSet e) s (fun u => u.fl (Reg.EVI_HOLD e) Reg.EVI_HOLD_HOLD = 1 ∧ (∀ a, a ≠ Reg.EVI_HOLD e → u.rd a = s.rd a) ∧
      s.sameMem u ∧ s.sameRest u ∧ u.thr = s.thr ∧ u.eng = s.eng) ∧
    (hold = 1 →
      Gives (.eviHoldRelease e) s (fun u => u.fl (Reg.EVI_HOLD e) Reg.EVI_HOLD_HOLD = 0 ∧
        (∀ m, m < 64 → u.pendB e m = (s.pendB e m || (s.src e m).latch) ∧ (u.src e m).latch = false) ∧ s.sameMem u ∧ s.sameRest u ∧
        u.thr = s.thr) ∧
      (s.fl (Reg.EVI_SsCOAL e 7) Reg.EVI_SsCOAL_CCNT ≤ 1 →
        Gives (.eviHoldTimeout e) s (fun u => u.fl (Reg.EVI_HOLD e) Reg.EVI_HOLD_HOLD = 0 ∧ u.fl (Reg.EVI_HOLD e) Reg.EVI_HOLD_TO = 1 ∧
          u.pendB e 7 = true ∧ (∀ m, m < 64 → (s.src e m).latch = true → u.pendB e m = true) ∧ s.sameMem u ∧ s.sameRest u ∧
          u.thr = s.thr))) ∧
    (let k := e.val * 4 + getF (s.rd (Reg.EVI_SsCFG e n)) Reg.EVI_SsCFG_THR
     let t := s.th k
     s.pwr.state = 0 → getF (s.rd (Reg.EVI_SsCFG e n)) Reg.EVI_SsCFG_KIND = 1 → s.pendB e n = true → s.maskB e n = false → t.mode ≠ .off →
      t.rom = false → (n.val < 8 ∨ t.bind.prv = true ∧ t.levels = []) →
      (t.mode ≠ .event → Takes 0 (.wakeDelivery e n) s (fun u => (u.th k).el = true ∧ (u.th k).ctx = t.ctx ∧ u.pendB e n = false ∧
        s.sameMem u ∧ s.sameRest u)) ∧
      (t.mode = .event → t.infl = [] → t.ctx.slot = none → t.haltReq = 0 → t.stepping = false →
        (∀ l ∈ t.ctx.loops.head?, l.tag = t.depth → l.stop ≠ t.ctx.pc) →
        Takes 0 (.wakeDelivery e n) s (fun u => (u.th k).mode = .run ∧ (u.th k).el = false ∧
          (u.th k).ctx = { t.ctx with shadow := [], pc := t.ctx.pc + 1 } ∧ u.pendB e n = false ∧ s.sameMem u ∧ s.sameRest u)))

/-- R171, whole: `claims` says that the top entry can claim. -/
def Obligations.ClaimReads : Prop :=
  ∀ (e : Fin 128) (who : Who) (s : State),
    let lv := fun (k : Nat) => (s.th k).levels
    let claims := fun (k : Nat) (l : Level) (r : List Level) => lv k = l :: r ∧ l.live = true ∧ l.intr = true ∧ l.scan = false ∧
      l.claimed = false ∧ s.pendB e l.src = true
    (∀ k l r, who = .thread k → k / 4 = e.val → l.src < 64 → claims k l r →
      Gives (.claim e who) s (fun u => u.rdata = BitVec.ofNat 24 l.src ∧ u.pendB e l.src = false ∧ u.actB e l.src = true ∧
        (u.th k).levels = { l with claimed := true } :: r ∧ (u.th k).ctx = (s.th k).ctx ∧ (∀ j, j ≠ k → u.th j = s.th j) ∧
        (∀ m, m < 64 → m ≠ l.src → u.pendB e m = s.pendB e m ∧ u.actB e m = s.actB e m) ∧ s.sameMem u)) ∧
    ((∀ k l r, who = .thread k → lv k = l :: r → l.intr = true → l.src < 64) →
      (∀ k l r, who = .thread k → k / 4 = e.val → ¬ claims k l r) →
      Gives (.claim e who) s (fun u => u.rdata.getLsbD 6 = true ∧ u.thr = s.thr ∧ u.eng = s.eng ∧
        u.fl (Reg.EVI_CNT1 e) Reg.EVI_CNT1_SPUR = satInc (s.fl (Reg.EVI_CNT1 e) Reg.EVI_CNT1_SPUR) Reg.EVI_CNT1_SPUR.max ∧
        s.regsBut u [Reg.EVI_CNT1 e] ∧ s.sameMem u ∧
        ∀ k l r, who = .thread k → lv k = l :: r → l.intr = true → l.src < 64 → u.rdata = BitVec.ofNat 24 (64 + l.src)))

/-- R174: a match, a mismatch, and a write by a stranger. -/
def Obligations.EndOfInterrupt : Prop :=
  ∀ (e : Fin 128) (who : Who) (v : BitVec 24) (s : State),
    let top := fun (k : Nat) => (s.th k).levels.find? (fun l => l.live)
    let fits := fun (l : Level) => if l.scan = true then getF v Reg.EVI_EOI_PRIO = l.prio else getF v Reg.EVI_EOI_SRC = l.src
    (∀ k l, who = .thread k → k / 4 = e.val → top k = some l → fits l →
      Gives (.eoi e who v) s (fun u => (u.th k).levels.length = (s.th k).levels.length ∧ (u.th k).postEoi = 16 ∧
        (u.th k).ctx = (s.th k).ctx ∧ (∀ j, j ≠ k → u.th j = s.th j) ∧ s.sameMem u ∧ s.sameRest u ∧
        ((u.th k).levels.filter (fun l => l.live)).length + 1 = ((s.th k).levels.filter (fun l => l.live)).length ∧
        (l.claimed = true → l.src < 64 → u.actB e l.src = false) ∧ ∀ m, m < 64 → m ≠ l.src → u.actB e m = s.actB e m)) ∧
    (∀ k, who = .thread k → k / 4 = e.val → (∀ l, top k = some l → ¬ fits l) → s.fl (Reg.EVI_SsCOAL e 1) Reg.EVI_SsCOAL_CCNT ≤ 1 →
      s.fl (Reg.EVI_HOLD e) Reg.EVI_HOLD_HOLD = 0 →
      Gives (.eoi e who v) s (fun u => u.thr = s.thr ∧ s.sameMem u ∧ u.pendB e 1 = true ∧
        (let r := u.rd (Reg.EVI_SFSTAT e)
         getF r Reg.EVI_SFSTAT_SF = 1 ∧ getF r Reg.EVI_SFSTAT_THR = k % 4 ∧ getF r Reg.EVI_SFSTAT_WPRIO = getF v Reg.EVI_EOI_PRIO ∧
         getF r Reg.EVI_SFSTAT_WSRC = getF v Reg.EVI_EOI_SRC ∧ (top k = none → getF r Reg.EVI_SFSTAT_NOLIVE = 1) ∧
         (∀ l, top k = some l → l.src < 64 → l.prio < 16 → getF r Reg.EVI_SFSTAT_NOLIVE = 0 ∧ getF r Reg.EVI_SFSTAT_TSRC = l.src ∧
          getF r Reg.EVI_SFSTAT_TPRIO = l.prio)) ∧
        u.fl (Reg.EVI_CNT0 e) Reg.EVI_CNT0_SF = satInc (s.fl (Reg.EVI_CNT0 e) Reg.EVI_CNT0_SF) Reg.EVI_CNT0_SF.max)) ∧
    ((∀ k, who = .thread k → k / 4 ≠ e.val) → exec (.eoi e who v) s = Host.Outcome.next s)

/-- R31–R34, R56, R62, R79, R80, R158, R190: the router's two entries and its delivery, threads starting and stopping, a fetch from local
memory, the loop buffer's control register. -/
def Obligations.EventsAndThreads : Prop :=
  ∀ (ev : Fin 1024) (e : Fin 128) (n : Fin 64) (k : Fin 512) (v : BitVec 24) (x y : Word) (s : State),
    let t := s.th k
    let en := k.val / 4
    let i := k.val % 4
    (ev.val ∈ s.ev.crossing → Gives (.islandEventCrossing ev) s (fun u => u.ev.router = s.ev.router ++ [ev.val] ∧ ev.val ∉ u.ev.crossing ∧
      (∀ z, z ≠ ev.val → (z ∈ u.ev.crossing ↔ z ∈ s.ev.crossing)) ∧ { u with ev := s.ev } = s)) ∧
    Gives (.evrForce v) s (fun u => u.ev.router = s.ev.router ++ [v.toNat % 1024] ∧ u.ev.crossing = s.ev.crossing ∧
      { u with ev := s.ev } = s) ∧
    (s.canon → s.pwr.state = 0 → ev.val ∈ s.ev.router → 8 ≤ n.val → getF (s.rd (Reg.EVI_SsCFG e n)) Reg.EVI_SsCFG_RTE = 1 →
      getF (s.rd (Reg.EVI_SsCFG e n)) Reg.EVI_SsCFG_ROUTE = ev.val → s.fl (Reg.EVI_SsCOAL e n) Reg.EVI_SsCOAL_CCNT ≤ 1 →
      s.fl (Reg.EVI_HOLD e) Reg.EVI_HOLD_HOLD = 0 → s.quarantined (e.val / 16) = false →
      Gives (.routerDelivery ev) s (fun u => u.pendB e n = true ∧ u.thr = s.thr ∧ s.sameMem u)) ∧
    (let a := Reg.ENG_TCTL en
     let b := s.rd (Reg.BZ_TSTARTk k)
     s.fb a (bitF i) = false → t.mode = .off → t.haltReq = 0 → t.stepping = false →
      Gives (.threadEnable k) s (fun u => u.fb a (bitF i) = true ∧ (u.th k).mode = .run ∧
        (u.th k).ctx.pc = s.rd (Reg.ENG_TnSTART en i) ∧ (u.th k).el = false ∧ (u.th k).levels = [] ∧ (u.th k).replay = [] ∧
        (u.th k).ctx.loops = [] ∧ (u.th k).ctx.g = t.ctx.g ∧ (u.th k).ctx.a0 = t.ctx.a0 ∧ (u.th k).ctx.a1 = t.ctx.a1 ∧
        (u.th k).bind.prv = decide (getF b Reg.BZ_TSTARTk_PRV = 1) ∧
        (getF b Reg.BZ_TSTARTk_PRV = 0 → (u.th k).bind.cid = getF b Reg.BZ_TSTARTk_CID) ∧
        (∀ j, j ≠ k.val → u.th j = s.th j) ∧ s.sameMem u)) ∧
    (s.fb (Reg.ENG_TCTL en) (bitF i) = true → t.mode = .run →
      Gives (.threadDisable k) s (fun u => u.fb (Reg.ENG_TCTL en) (bitF i) = false ∧ (u.th k).mode = .stopping ∧ (u.th k).replay = [] ∧
        sameCtx t.ctx (u.th k).ctx ∧ (∀ j, j ≠ k.val → u.th j = s.th j) ∧ s.sameMem u)) ∧
    (t.mode = .stopping → t.infl = [] → t.ctx.slot = none → (∀ a ∈ (s.en en).spine, a.k ≠ k.val) → t.restart = false →
      Gives (.threadStopComplete k) s (fun u => (u.th k).mode = .off ∧ (u.th k).ctx = t.ctx ∧ (∀ j, j ≠ k.val → u.th j = s.th j) ∧
        (∀ a, u.rd a = s.rd a) ∧ s.sameMem u)) ∧
    Gives (.lbctlWrite e v) s (fun u => u.fl (Reg.ENG_LBCTL e) Reg.ENG_LBCTL_MODE = getF v Reg.ENG_LBCTL_MODE ∧
      u.fl (Reg.ENG_LBCTL e) Reg.ENG_LBCTL_THR = getF v Reg.ENG_LBCTL_THR ∧ (u.en e).lb = LoopBuf.free ∧
      s.regsBut u [Reg.ENG_LBCTL e] ∧ s.sameMem u ∧ ∀ j, sameCtx (s.th j).ctx (u.th j).ctx) ∧
    (let p := t.ctx.pc.toNat
     let q := if p % 2 = 1 then p - 1 else p + 1
     s.isReady k = true → t.fbuf = [] → t.bind.prv = true → ownLocal en p = true → s.quarantined (en / 16) = false →
      s.cell p = .good x → s.cell q = .good y →
      s.lbWord k t.ctx.pc = none → Gives (.fetch k false) s (fun u => (u.th k).fbuf = [(p, x), (q, y)] ∧ (u.th k).ctx = t.ctx ∧ (u.th k).infl = t.infl ∧
        (∀ j, j ≠ k.val → u.th j = s.th j) ∧ s.regsBut u [Reg.ENG_FPROMO en] ∧ s.sameMem u))

/-- R267–R281, R287: a strand in word mode on which no watch is enabled. -/
def Obligations.StrandsInWordMode : Prop :=
  ∀ (who : Who) (i : Fin 512) (q : Fin 64) (v va : BitVec 24) (s : State),
    let x := s.strand i
    let cfg := fun (f : Fld) => s.fl (Reg.STR_sCFG i) f
    let open' := cfg Reg.STR_sCFG_EN = 1 ∧ cfg Reg.STR_sCFG_DST ≠ 3 ∧ x.mid = none
    let quiet := ∀ c, s.watches i c = []
    let allowed := match who with | .thread k => (s.th k).bind.prv = true | _ => True
    let only := fun (u : State) (y : Strand) => u.strand i = y ∧ (∀ j, j ≠ i.val → u.strand j = s.strand j) ∧ u.mem = s.mem ∧
      u.thr = s.thr ∧ u.eng = s.eng
    (quiet → cfg Reg.STR_sCFG_FMT = 0 →
      (allowed → open' → cfg Reg.STR_sCFG_SRC = 0 → v ≠ 0x800000 → x.items.length < 16 →
        Takes 4 (.strandPush who i v va) s (fun u => only u { x with items := x.items ++ [{ w := v, e := s.whoEpoch who, h := false }] } ∧
          u.regs = s.regs ∧ u.ev = s.ev)) ∧
      (allowed → cfg Reg.STR_sCFG_EN = 0 ∨ cfg Reg.STR_sCFG_DST = 3 ∨ v = 0x800000 ∧ cfg Reg.STR_sCFG_SRC = 0 →
        Takes 4 (.strandPush who i v va) s (fun u => only u x ∧ s.regsBut u [Reg.STR_sDROP i] ∧
          u.fl (Reg.STR_sDROP i) Reg.STR_sDROP_REF = satInc (s.fl (Reg.STR_sDROP i) Reg.STR_sDROP_REF) Reg.STR_sDROP_REF.max)) ∧
      (allowed → open' → cfg Reg.STR_sCFG_SRC = 0 → v ≠ 0x800000 → 16 ≤ x.items.length → cfg Reg.STR_sCFG_FULLPOL = 1 →
        Takes 4 (.strandPush who i v va) s (fun u => only u { x with waiting := x.waiting ++ [(who.prod, v, s.whoTep who)] } ∧
          u.regs = s.regs ∧ u.ev = s.ev)) ∧
      (allowed → open' → cfg Reg.STR_sCFG_SRC = 0 → v ≠ 0x800000 → 16 ≤ x.items.length → cfg Reg.STR_sCFG_FULLPOL = 0 →
        Takes 4 (.strandPush who i v va) s (fun u => only u x ∧ s.regsBut u [Reg.STR_sDROP i] ∧
          u.fl (Reg.STR_sDROP i) Reg.STR_sDROP_FULL = satInc (s.fl (Reg.STR_sDROP i) Reg.STR_sDROP_FULL) Reg.STR_sDROP_FULL.max)) ∧
      (∀ y r, allowed → cfg Reg.STR_sCFG_EN = 1 → cfg Reg.STR_sCFG_DST = 0 → x.items = y :: r → x.atHead = true → x.waiting = [] →
        Takes 4 (.strandPop who i va) s (fun u => u.rdata = y.w ∧ only u { x with items := r, atHead := false } ∧ u.regs = s.regs)) ∧
      (allowed → cfg Reg.STR_sCFG_EN = 0 ∨ cfg Reg.STR_sCFG_DST ≠ 0 ∨ x.items = [] →
        Takes 4 (.strandPop who i va) s (fun u => u.rdata = 0x800000 ∧ only u x ∧ u.regs = s.regs)) ∧
      (∀ y r, x.items = y :: r → x.atHead = false → x.waiting = [] → cfg Reg.STR_sCFG_DST ≠ 2 →
        (y.e = s.strExp i → x.discard = false → Gives (.strandItemAtHead i) s (fun u => only u { x with atHead := true } ∧ u.regs = s.regs)) ∧
        (y.e ≠ s.strExp i → Gives (.strandItemAtHead i) s (fun u => only u { x with items := r } ∧
          u.rd Reg.STR_EPLAST = BitVec.ofNat 24 i ∧ s.regsBut u [Reg.STR_EPLAST, Reg.STR_EPDROP, Reg.STR_sDROP i]))) ∧
      (x.waiting = [] → Takes 4 (.endpointPcidWrite i v) s (fun u => u.fl (Reg.STR_sEP i) Reg.STR_sEP_PCID = getF v Reg.STR_sEP_PCID ∧
        (∀ y ∈ (u.strand i).items, y.e = u.strExp i) ∧ (∀ y ∈ x.items, y.e = u.strExp i → y ∈ (u.strand i).items) ∧ u.mem = s.mem ∧
        u.thr = s.thr)) ∧
      (∀ y r, s.bqGet q = y :: r → s.fl (Reg.STR_BQqCFG q) Reg.STR_BQqCFG_EN = 1 → s.fl (Reg.STR_BQqCFG q) Reg.STR_BQqCFG_STRAND = i.val →
        open' → cfg Reg.STR_sCFG_SRC = 1 → x.items.length < 16 → s.islandRuns (bqIsland q) = true →
        Gives (.bridgeQueueToStrand q) s (fun u => only u { x with items := x.items ++ [{ w := y.w, e := s.strExp i, h := false }] } ∧
          u.bqGet q = r))) ∧
    (∀ k, who = .thread k → (s.th k).bind.prv = false → s.isReady k = true → (s.th k).infl = [] → (s.th k).ctx.slot = none →
      (s.th k).depth < 16 →
      (s.strandWin (s.th k).bind.cid i 22 = false → Takes 4 (.strandPush who i v va) s (fun u =>
        s.entered u k (s.th k).ctx.pc 0x206 va ∧ u.str = s.str)) ∧
      (s.strandWin (s.th k).bind.cid i 21 = false → Takes 4 (.strandPop who i va) s (fun u =>
        s.entered u k (s.th k).ctx.pc 0x106 va ∧ u.str = s.str))) ∧
    (x.waiting = [] → Takes 4 (.strandFlush i) s (fun u => only u { x with items := [], atHead := false, lock := none, rdy := x.rdy && decide (0 < x.remain) } ∧
      u.regs = s.regs)) ∧
    (x.waiting = [] → v.getLsbD 16 = false → cfg Reg.STR_sCFG_EN = 1 → v.getLsbD 23 = false →
      Takes 4 (.strandConfig i v) s (fun u => only u { x with items := [], atHead := false, lock := none, rdy := x.rdy && decide (0 < x.remain) } ∧
        u.rd (Reg.STR_sCFG i) = v &&& 0xFEFF00 ∧ s.regsBut u [Reg.STR_sCFG i])) ∧
    (∀ l, quiet → x.lock = some l → x.waiting = [] → s.landOf i = none → Gives (.packetLockTimeout i) s (fun u =>
      only u { x with lock := none } ∧ u.fl (Reg.STR_sSTAT i) Reg.STR_sSTAT_TRUNC = 1 ∧ s.regsBut u [Reg.STR_sSTAT i]))

/-- R148, R283, R284: one checkpoint on its way. `landStrand` names the strand whose items unit `u` takes. -/
def Obligations.CheckpointLanding : Prop :=
  ∀ (e : Fin 128) (u : Fin 64) (i : Nat) (s : State),
    let x := s.strand i
    let cfg := fun (f : Fld) => s.fl (Reg.STR_sCFG i) f
    let stat := Reg.STR_CKuSTAT u
    (∀ w r, (s.en e).stag.items = w :: r → r ≠ [] → (s.en e).stag.strand = i → s.quarantined (e.val / 16) = false → (∀ c, s.watches i c = []) →
      cfg Reg.STR_sCFG_EN = 1 → cfg Reg.STR_sCFG_SRC = 2 → cfg Reg.STR_sCFG_FMT = 1 → cfg Reg.STR_sCFG_DST = 2 → x.lock = none →
      x.items.length < 16 → hdrOk w = true → hdrLen w ≠ 0 → x.waiting = [] → x.mid = none →
      Gives (.ckptDrain e) s (fun t => (t.en e).stag.items = r ∧
        (t.strand i).items = x.items ++ [{ w := w, e := (s.en e).stag.epoch, h := true }] ∧
        (t.strand i).lock = some (.staging e, hdrLen w) ∧ t.mem = s.mem ∧ t.thr = s.thr)) ∧
    (∀ y r, s.landStrand u = some i → x.items = y :: r → x.atHead = true → y.h = true → x.waiting = [] →
      (∀ f, SMap.get none s.land u = some f → f.bank ≤ 1 ∧ f.len < 128 ∧ f.seq < 8192) →
      (let cur := match SMap.get none s.land u with
         | some f => if f.len ≤ f.taken then f.bank else s.fl stat Reg.STR_CKuSTAT_CUR
         | none => s.fl stat Reg.STR_CKuSTAT_CUR
       let bank := 1 - cur
       sramRegion (s.landBase u bank) = true → sramRegion (s.landBase u bank + 63) = true →
       Takes 4 (.landingHeader u) s (fun t => SMap.get none t.land u = some
          { bank := bank, len := y.w.toNat % 128, seq := y.w.toNat / 128 % 8192, taken := 0 } ∧ t.fl stat Reg.STR_CKuSTAT_FILL = 1 ∧ (t.strand i).items = r ∧ t.mem = s.mem))) ∧
    (∀ y r f, s.landStrand u = some i → x.items = y :: r → x.atHead = true → y.h = false → x.waiting = [] →
      SMap.get none s.land u = some f →
      (let a := s.landBase u f.bank + f.taken
       sramRegion a = true → s.closed a = false →
       Gives (.landingPayloadWrite u) s (fun t => t.cell a = .good y.w ∧ (∀ b, b ≠ a → t.cell b = s.cell b) ∧ (t.strand i).items = r ∧
         SMap.get none t.land u = some { f with taken := f.taken + 1 } ∧ s.regsBut t [Reg.MEMC_OVF]))) ∧
    (∀ f, SMap.get none s.land u = some f → f.len ≤ f.taken → f.bank ≤ 1 → f.len < 128 → f.seq < 8192 →
      Gives (.checkpointComplete u) s (fun t => SMap.get none t.land u = none ∧ t.fl stat Reg.STR_CKuSTAT_VALID = 1 ∧
        t.fl stat Reg.STR_CKuSTAT_CUR = f.bank ∧ t.fl stat Reg.STR_CKuSTAT_LEN = f.len ∧ t.fl stat Reg.STR_CKuSTAT_SEQ = f.seq ∧
        s.regsBut t [stat] ∧ t.mem = s.mem ∧ t.thr = s.thr))

/-- R195–R226: the memory controller's commands. -/
def Obligations.MemoryController : Prop :=
  ∀ (k : Fin 512) (kind : AccKind) (va v : BitVec 24) (b : Fin 32) (w : Word) (y : BitVec 6) (s : State),
    let m := s.memc
    let only := fun (u : State) => u.thr = s.thr ∧ u.eng = s.eng ∧ u.bz = s.bz ∧ u.str = s.str
    (s.time.locked = true → s.fl Reg.MEMC_CTL Reg.MEMC_CTL_SCRUB = 1 → s.cell (scrubAddr m.scrub) = .corr w y →
      region (scrubAddr m.scrub) ≠ .mram → s.closed (scrubAddr m.scrub) = false → s.bankHeld (scrubAddr m.scrub) = false →
      s.pwr.state = 0 →
      Gives .scrubStep s (fun u => u.cell (scrubAddr m.scrub) = .good w ∧ (∀ a, a ≠ scrubAddr m.scrub → u.cell a = s.cell a) ∧
        u.memc.scrub = (m.scrub + 1) % scrubWords ∧ u.ev.router = s.ev.router ++ [0x010] ∧ only u)) ∧
    (s.time.locked = false → exec .scrubStep s = Host.Outcome.next s) ∧
    (∀ x r, m.wbuf = x :: r → x.marked = false → region x.addr = .mram →
      Gives (.mramWordWrite 0 true) s (fun u => u.cell x.addr = .good x.val ∧ (∀ a, a ≠ x.addr → u.cell a = s.cell a) ∧ u.memc.wbuf = r ∧
        u.fl Reg.MEMC_MRSTAT Reg.MEMC_MRSTAT_PEND = r.length % 32 ∧ s.regsBut u [Reg.MEMC_MRSTAT] ∧ only u) ∧
      Gives (.mramWordWrite 0 false) s (fun u => (u.cell x.addr = s.cell x.addr ∨ u.cell x.addr = .bad) ∧
        (∀ a, a ≠ x.addr → u.cell a = s.cell a) ∧ u.memc.wbuf = r ∧ u.rd Reg.MEMC_MRFADDR = BitVec.ofNat 24 x.addr ∧ only u)) ∧
    (m.wbuf = [] → s.pwr.state = 0 → Takes 1 .mrmark s (fun u => u.fl Reg.MEMC_MRSTAT Reg.MEMC_MRSTAT_MARKDONE = 1 ∧
      u.ev.router = s.ev.router ++ [0x013] ∧ s.regsBut u [Reg.MEMC_MRSTAT] ∧ s.sameMem u ∧ only u)) ∧
    (m.wbuf ≠ [] → Takes 1 .mrmark s (fun u => u.fl Reg.MEMC_MRSTAT Reg.MEMC_MRSTAT_MARKDONE = 0 ∧ (∀ x ∈ u.memc.wbuf, x.marked = true) ∧
      u.memc.wbuf.map (fun x => (x.addr, x.val)) = m.wbuf.map (fun x => (x.addr, x.val)) ∧ s.sameMem u ∧ only u)) ∧
    (∀ e1 e2 : Word, let c := (s.th k).bind.cid
      let t1 := (s.desc c 1).toNat + va.toNat / 0x20000
      let t2 := e1.toNat / 128 * 128 + va.toNat / 0x400 % 128
      (s.th k).bind.prv = false → va.toNat / 0x10000 ≠ 0x80 → (s.en (k / 4)).tcLookup c va.toNat = none → sramRegion t1 = true →
      s.cell t1 = .good e1 → getBits e1 1 0 = 1 → getBits e1 6 2 = 0 → sramRegion t2 = true → s.cell t2 = .good e2 → getBits e2 1 0 = 2 →
      getBits e2 9 6 = 0 → e2.toNat / 0x400 * 0x400 / 0x10000 ≠ 0x80 → (e2.toNat / 0x400 * 0x400 < 0xC00000 ∨ getBits e2 5 2 &&& 8 = 8) → getBits e2 5 2 &&& kind.need = kind.need →
      Gives (.tableWalk k kind va false) s (fun u => (u.en (k / 4)).tcLookup c va.toNat = some
          { cid := c, block := false, vpn := va.toNat / 0x400, base := e2.toNat / 0x400 * 0x400, perms := getBits e2 5 2 } ∧
        s.sameMem u ∧ u.thr = s.thr ∧ u.regs = s.regs)) ∧
    (let cid := s.fl Reg.MEMC_RSEL Reg.MEMC_RSEL_CID
     let r := s.resv cid
     let rate := getF v Reg.MEMC_RENT_RATE
     let sum := s.fl Reg.MEMC_RSUM Reg.MEMC_RSUM_SUM
     let need := sum - (if r.adm && !r.dem then r.rate else 0) + rate
     (rate ≠ 0 → need ≤ admLimit (s.planLevel 8) → Takes 1 (.reservationRequest v) s (fun u => (u.resv cid).adm = true ∧
        (u.resv cid).dem = false ∧ (u.resv cid).rate = rate ∧ u.fl Reg.MEMC_RSUM Reg.MEMC_RSUM_SUM = need ∧ u.rd Reg.MEMC_RSTAT = 0x400000 ∧
        s.regsBut u [Reg.MEMC_RSUM, Reg.MEMC_RSTAT] ∧ s.sameMem u ∧ only u)) ∧
     (rate = 0 → Takes 1 (.reservationRequest v) s (fun u => (u.resv cid).adm = false ∧ u.rd Reg.MEMC_RSTAT = 0x400000 ∧
        s.regsBut u [Reg.MEMC_RSUM, Reg.MEMC_RSTAT] ∧ s.sameMem u ∧ only u)) ∧
     (rate ≠ 0 → admLimit (s.planLevel 8) < need → Takes 1 (.reservationRequest v) s (fun u => u.memc = m ∧
        u.rd Reg.MEMC_RSTAT = BitVec.ofNat 24 (2 ^ 23 + min (need - admLimit (s.planLevel 8)) 0x3FFF) ∧
        s.regsBut u [Reg.MEMC_RSTAT] ∧ s.sameMem u ∧ only u))) ∧
    (m.due = true → Gives .tokenRefill s (fun u => u.regs = s.regs ∧ u.memc.due = false ∧ s.sameMem u ∧ only u ∧
      ∀ c, (u.resv c).tokens = if (s.resv c).adm && !(s.resv c).dem then (s.resv c).rate else (s.resv c).tokens)) ∧
    (m.due = false → exec .tokenRefill s = Host.Outcome.next s) ∧
    (∀ (e : Fin 128) (i : Fin 4) (a : Access), (s.en e).spine[i.val]? = some a → region a.pa = .glob → a.ord = none → s.sent e a = true →
      Gives (.memcPromotion e i) s (fun u => (u.rd Reg.MEMC_PROMOCNT).toNat = min ((s.rd Reg.MEMC_PROMOCNT).toNat + 1) 0xFFFFFF ∧
        s.regsBut u [Reg.MEMC_PROMOCNT] ∧ s.sameMem u ∧ u.thr = s.thr ∧ u.bz = s.bz ∧ u.str = s.str ∧
        (u.en e).spine = (s.en e).spine.map (fun b => if b.id = a.id then { b with ord := some s.fresh } else b) ∧
        ∀ j, j ≠ e.val → u.en j = s.en j)) ∧
    (s.pwr.state = 0 → Gives (.hotbank b) s (fun u => (u.rd Reg.MEMC_HOTCNT).toNat = min ((s.rd Reg.MEMC_HOTCNT).toNat + 1) 0xFFFFFF ∧
      u.rd Reg.MEMC_HOTBANK = BitVec.ofNat 24 b ∧ u.ev.router = s.ev.router ++ [0x015] ∧
      s.regsBut u [Reg.MEMC_HOTCNT, Reg.MEMC_HOTBANK] ∧ s.sameMem u ∧ only u))

/-- R242–R263: the commands of the bezel. States of a capsule: 0 EMPTY, 1 CHECKING, 2 HALLMARKED, 3 LOADED, 4 SUSPENDED, 5 RETIRING. -/
def Obligations.CapsuleLifecycle : Prop :=
  ∀ (c : Fin 1024) (s : State),
    let st := s.capState c
    let stag := fun (i : Nat) => SMap.get 0 (s.cap c).stag i
    let ends := fun (r : Nat) (u : State) => u.rd Reg.BZ_CSTAT = BitVec.ofNat 24 (r * 2 ^ 20 + c.val) ∧ (∃ q, u.ev.router = q ++ [0x018])
    let keeps := fun (u : State) => u.memc.wbuf = s.memc.wbuf ∧ u.mem = s.mem
    let others := fun (u : State) => ∀ d, d ≠ c.val → d ≠ 0 → u.capState d = s.capState d
    s.fl Reg.BZ_CSTAT Reg.BZ_CSTAT_BUSY = 0 → s.pwr.state = 0 → c.val ≠ 0 →
    (st = 0 ∨ st = 2 → s.bz.check = none → Takes 3 (.hallmark c) s (fun u => u.capState c = 1 ∧
      u.bz.check = some { cid := c, kmode := false, addr := (s.rd Reg.BZ_HMADDR).toNat } ∧ u.fl Reg.BZ_HMSTAT Reg.BZ_HMSTAT_BUSY = 1 ∧
      u.fl Reg.BZ_HMSTAT Reg.BZ_HMSTAT_CID = c.val ∧ ends 0 u ∧ keeps u ∧ others u)) ∧
    (st ≠ 0 → st ≠ 2 → Takes 3 (.hallmark c) s (fun u => u.fl Reg.BZ_HMSTAT Reg.BZ_HMSTAT_FAIL = 10 ∧ u.bz = s.bz ∧
      ends 1 u ∧ keeps u)) ∧
    (∀ h, s.bz.check = some h → h.kmode = false → h.cid = c.val → Gives .hallmarkComplete s (fun u => u.bz.check = none ∧
      u.fl Reg.BZ_HMSTAT Reg.BZ_HMSTAT_BUSY = 0 ∧ (u.fl Reg.BZ_HMSTAT Reg.BZ_HMSTAT_PASS = 1 → u.capState c = 2) ∧
      (u.fl Reg.BZ_HMSTAT Reg.BZ_HMSTAT_PASS = 0 → u.capState c = 0) ∧ ∃ q, u.ev.router = q ++ [0x019])) ∧
    (st = 2 → getBits (stag 1) 6 0 = 0 → sramRegion (stag 1).toNat = true → stag 2 = 0 → stag 4 = 0 →
      (∀ i, 10 ≤ i → i < 32 → (stag i).getLsbD 23 = false) → Takes 3 (.load c) s (fun u => u.capState c = 3 ∧ u.desc c 1 = stag 1 ∧
        getBits (u.desc c 0) 11 6 = getBits (stag 0) 11 6 ∧ u.epoch c = s.epoch c ∧ ends 0 u ∧ keeps u ∧ others u)) ∧
    (st = 3 → Takes 3 (.suspend c) s (fun u => u.capState c = 4 ∧ ends 0 u ∧ keeps u ∧ others u)) ∧
    (st ≠ 3 → Takes 3 (.suspend c) s (fun u => u.bz = s.bz ∧ ends 1 u ∧ keeps u)) ∧
    (st = 4 → Takes 3 (.resume c) s (fun u => u.capState c = 3 ∧ ends 0 u ∧ keeps u ∧ others u ∧ u.thr = s.thr)) ∧
    (st ≠ 4 → Takes 3 (.resume c) s (fun u => u.bz = s.bz ∧ ends 1 u ∧ keeps u)) ∧
    (st = 3 ∨ st = 4 → Takes 3 (.epoch c) s (fun u => u.epoch c = (s.epoch c + 1) % 16 ∧ u.capState c = st ∧ ends 0 u ∧ keeps u ∧ others u)) ∧
    (st ≠ 3 → st ≠ 4 → Takes 3 (.epoch c) s (fun u => u.bz = s.bz ∧ ends 1 u ∧ keeps u)) ∧
    (st = 3 ∨ st = 4 → Takes 3 (.refill c) s (fun u => (u.cap c).rem = (s.desc c 3).toNat * 64 ∧ (u.cap c).used = 0 ∧
      (u.cap c).last = (s.cap c).used ∧ u.capState c = st ∧ ends 0 u ∧ keeps u ∧ others u)) ∧
    (st = 2 ∨ st = 3 ∨ st = 4 → Takes 3 (.retire c) s (fun u => u.capState c = 5 ∧ u.fl Reg.BZ_CSTAT Reg.BZ_CSTAT_BUSY = 1 ∧
      u.fl Reg.BZ_CSTAT Reg.BZ_CSTAT_CID = c.val ∧ keeps u ∧ others u)) ∧
    (∀ u : State, u = s.wr Reg.BZ_CSTAT (BitVec.ofNat 24 (2 ^ 23 + c.val)) → st = 5 → s.boundThreads c = 0 →
      Gives .retireComplete u (fun w => w.capState c = 0 ∧ w.epoch c = (s.epoch c + 1) % 16 ∧ w.fl Reg.BZ_CSTAT Reg.BZ_CSTAT_BUSY = 0 ∧
        (w.resv c).adm = false ∧ (∃ q, w.ev.router = q ++ [0x018, 0x01A]) ∧ keeps w)) ∧
    (let cur := s.fl Reg.BZ_KGEN Reg.BZ_KGEN_CUR
     let en := fun (u : State) (k : Nat) => u.fb (Reg.ENG_TCTL (k / 4)) (bitF (k % 4))
     s.fl Reg.BZ_KGEN Reg.BZ_KGEN_ARMED = 1 →
     (∃ k t, (k, t) ∈ s.thr ∧ en s k = true ∧ t.startPrv = true ∧ b2n t.startKg ≠ cur) →
     Takes 3 (.kswitch 0) s (fun u => u.fl Reg.BZ_KGEN Reg.BZ_KGEN_CUR = 1 - cur ∧ u.fl Reg.BZ_KGEN Reg.BZ_KGEN_ARMED = 0 ∧
       (∀ k t, (k, t) ∈ s.thr → t.startPrv = true → b2n t.startKg = cur → en u k = false) ∧ u.rd Reg.BZ_CSTAT = 0 ∧ keeps u))

/-- R253–R256, R261: one capsule's budget and the probe of its tables. -/
def Obligations.BudgetsAndProbe : Prop :=
  ∀ (k : Fin 512) (c : Fin 1024) (v : BitVec 24) (s : State),
    let t := s.th k
    let x := s.cap c
    let budget := getBits (s.desc c 2) 19 0
    (t.bind.prv = false → t.bind.cid = c.val → t.mode ≠ .off → budget ≠ 0 → t.al ≤ 64 →
      Gives (.budgetChunk k) s (fun u => (u.th k).al = t.al + min 1024 x.rem ∧ (u.th k).alCid = c.val ∧
        (u.cap c).rem = x.rem - min 1024 x.rem ∧ (u.th k).ctx = t.ctx ∧ (∀ j, j ≠ k.val → u.th j = s.th j) ∧ u.regs = s.regs ∧
        u.mem = s.mem)) ∧
    (t.bind.prv = false → t.bind.cid = c.val → t.mode = .run → t.halt = 0 → budget ≠ 0 → t.al = 0 → x.rem = 0 → s.capState c = 3 →
      s.shedFloor ≤ getBits (s.desc c 0) 10 8 → s.pwr.state = 0 →
      ((s.desc c 0).getLsbD 11 = true → x.heldEv = false → Gives (.budgetExhausted k) s (fun u => (u.cap c).heldEv = true ∧
        u.ev.router = s.ev.router ++ [0x01B] ∧ u.thr = s.thr ∧ u.regs = s.regs ∧ u.mem = s.mem)) ∧
      ((s.desc c 0).getLsbD 11 = false → t.infl = [] → t.ctx.slot = none → t.depth < 16 → t.stepping = false →
        s.fl (Reg.EVI_SsCOAL (k / 4) 4) Reg.EVI_SsCOAL_CCNT ≤ 1 → s.fl (Reg.EVI_HOLD (k / 4)) Reg.EVI_HOLD_HOLD = 0 →
        Gives (.budgetExhausted k) s (fun u => s.entered u k t.ctx.pc 0x00D (BitVec.ofNat 24 c) ∧ u.pendB (k / 4) 4 = true))) ∧
    (x.due = true → Gives (.periodBoundary c) s (fun u => (u.cap c).due = false ∧ (u.cap c).rem = (s.desc c 3).toNat * 64 ∧
      (u.cap c).used = 0 ∧ (u.cap c).last = x.used ∧ (u.cap c).heldEv = false ∧ (∀ j, (u.th j).ctx = (s.th j).ctx) ∧ u.regs = s.regs ∧
      u.mem = s.mem)) ∧
    (x.due = false → exec (.periodBoundary c) s = Host.Outcome.next s) ∧
    ((k.val, t) ∈ s.thr → t.bind.prv = false → t.bind.cid = c.val → t.mode ≠ .off → s.holdOf k = 3 → getBits (s.desc c 5) 15 0 ≠ 0 →
      getBits (s.desc c 5) 15 0 ≤ x.waitc →
      s.pwr.state = 0 → Gives (.budgetPromotion c) s (fun u => (u.cap c).rem = x.rem + 1024 ∧ (u.cap c).waitc = 0 ∧
        (u.rd Reg.BZ_PROMOCNT).toNat = min ((s.rd Reg.BZ_PROMOCNT).toNat + 1) 0xFFFFFF ∧ u.ev.router = s.ev.router ++ [0x01C] ∧
        u.thr = s.thr ∧ u.mem = s.mem)) ∧
    (∀ w : Word, let t1 := (s.desc c 1).toNat + v.toNat / 0x20000
      s.fl Reg.BZ_PRCID Reg.BZ_PRCID_CID = c.val → c.val ≠ 0 → s.capState c = 3 ∨ s.capState c = 4 → v.toNat / 0x10000 ≠ 0x80 →
      sramRegion t1 = true → s.cell t1 = .good w → getBits w 1 0 = 2 → getBits w 16 6 = 0 → getBits w 23 17 ≠ 0x40 →
      Takes 3 (.probe v) s (fun u => u.rd Reg.BZ_PRSTAT = BitVec.ofNat 24 (getBits w 5 2) ∧ u.rd Reg.BZ_PRVA = v ∧
        u.rd Reg.BZ_PRPA = BitVec.ofNat 24 (getBits w 23 17 * 0x20000 + v.toNat % 0x20000) ∧
        s.regsBut u [Reg.BZ_PRSTAT, Reg.BZ_PRPA, Reg.BZ_PRVA] ∧ u.thr = s.thr ∧ s.sameMem u)) ∧
    (s.fl Reg.BZ_PRCID Reg.BZ_PRCID_CID = 0 → Takes 3 (.probe v) s (fun u => getF (u.rd Reg.BZ_PRSTAT) Reg.BZ_PRSTAT_CODE = 5 ∧
      s.regsBut u [Reg.BZ_PRSTAT, Reg.BZ_PRVA] ∧ u.thr = s.thr ∧ s.sameMem u))

/-- R290, R291, R301–R307, R313, R314: one sample. Stage 6 is stated for the channels that R290 lets pass it unchanged. -/
def Obligations.PrecisionSample : Prop :=
  ∀ (n : Fin 24) (r : BitVec 25) (ovl lead : Bool) (age : BitVec 8) (s : State),
    let x := s.prec n
    let cfg := fun (f : Fld) => s.fl (Reg.PREC_CHnCFG n) f
    let full : Int := 0x7FFFFF
    let r4 := if ovl then (if r.toInt < 0 then -full else full) else clamp full r.toInt
    let c := clamp full ((r4 - (s.rd (Reg.PREC_CHnOFS n)).toInt) * (s.rd (Reg.PREC_CHnGAIN n)).toNat / 2 ^ 22)
    let act := s.fl (Reg.PREC_CHnLCTL n) Reg.PREC_CHnLCTL_ACT
    let bank := if s.fl (Reg.PREC_CHnLCTL n) Reg.PREC_CHnLCTL_PEND = 1 then 1 - act else act
    let u := (c + 0x800000).toNat
    let y0 := (s.rd (Reg.PREC_CHnLb n bank (u / 65536))).toInt
    let y1 := (s.rd (Reg.PREC_CHnLb n bank (u / 65536 + 1))).toInt
    let y := if cfg Reg.PREC_CHnCFG_LINEN = 1 then clamp full (y0 + ((y1 - y0) * (u % 65536 : Nat) + 0x8000) / 0x10000) else c
    let q := fun (t : State) => t.rd (Reg.PREC_CHnQUAL n)
    let room := (s.bqGet n).length + (if cfg Reg.PREC_CHnCFG_PKT = 1 then 4 else 1) ≤ 30
    s.islandRuns 7 = true → s.fl (Reg.PREC_CHnSTAT n) Reg.PREC_CHnSTAT_RUN = 1 →
    (getF x.cfg Reg.PREC_CHnCFG_MODE ≠ 3 ∨ cfg Reg.PREC_CHnCFG_CJC = 0) →
    Gives (.precSample n r ovl lead age) s (fun t => s.outside t ∧
      (t.rd (Reg.PREC_CHnRAW n)).toInt = c ∧ (t.rd (Reg.PREC_CHnDATA n)).toInt = y ∧
      t.rd (Reg.PREC_CHnTIME n) = BitVec.ofNat 24 (s.time.dt - BitVec.ofNat 48 age.toNat).toNat ∧
      t.rd (Reg.PREC_CHnCNT n) = s.rd (Reg.PREC_CHnCNT n) + 1 ∧
      getBits (q t) 12 8 = n ∧ getBits (q t) 7 0 = (x.seq + 1) % 256 ∧ (q t).getLsbD 14 = false ∧
      (q t).getLsbD 20 = (ovl || decide (clamp full r.toInt ≠ r.toInt)) ∧
      (q t).getLsbD 16 = decide (cfg Reg.PREC_CHnCFG_LINEN = 1) ∧ (q t).getLsbD 21 = decide (0 < x.setl) ∧
      (t.prec n).seq = (x.seq + 1) % 256 ∧
      (room → cfg Reg.PREC_CHnCFG_PKT = 0 →
        t.bqGet n = s.bqGet n ++ [{ w := t.rd (Reg.PREC_CHnDATA n), ev := some (0x120 + n) }]) ∧
      (room → cfg Reg.PREC_CHnCFG_PKT = 1 →
        (t.bqGet n).map (fun i => i.w) = (s.bqGet n).map (fun i => i.w) ++
          [BitVec.ofNat 24 (0x100003 + n.val * 2 ^ 15 + (x.seq + 1) % 256 * 2 ^ 7), t.rd (Reg.PREC_CHnDATA n), q t,
            t.rd (Reg.PREC_CHnTIME n)]) ∧
      (∀ m, m ≠ n.val → t.bqGet m = s.bqGet m ∧ t.prec m = s.prec m) ∧ t.comm = s.comm ∧ t.time = s.time ∧ t.str = s.str)

/-- R296–R303, R310, R314, R315: the precision block's other commands. -/
def Obligations.PrecisionControl : Prop :=
  ∀ (n : Fin 24) (k : Fin 4) (b : Fin 2) (i : Fin 257) (isExc : Bool) (v : BitVec 24) (s : State),
    let st := Reg.PREC_CHnSTAT n
    let cfg := Reg.PREC_CHnCFG n
    let exc := Reg.PREC_CHnEXC n
    let a := if isExc then exc else cfg
    let keep : Word := if isExc then 0x00FF3F else 0xFFFFF0
    let change := (s.rd a ^^^ v) &&& (if isExc then 0x00003F else 0xFFFF80)
    let lctl := Reg.PREC_CHnLCTL n
    let running := s.fl st Reg.PREC_CHnSTAT_RUN = 1
    let start := fun (c : Word) => if getF c Reg.PREC_CHnCFG_FILT = 0 then 2 else 0
    s.islandRuns 7 = true →
    (change ≠ 0 → running →
      Gives (.precRestart n isExc v) s (fun t => s.outside t ∧ t.rd a = v &&& keep ∧ (t.prec n).pend = true ∧
        (t.prec n).cfg = (s.prec n).cfg ∧ (t.prec n).exc = (s.prec n).exc ∧ s.regsBut t [a])) ∧
    (change ≠ 0 → ¬ running → s.fl lctl Reg.PREC_CHnLCTL_PEND = 0 →
      Gives (.precRestart n isExc v) s (fun t => s.outside t ∧ t.rd a = v &&& keep ∧ (t.prec n).cfg = t.rd cfg ∧
        (t.prec n).exc = t.rd exc ∧ (t.prec n).setl = start (t.rd cfg) ∧ (t.prec n).win = [] ∧ s.regsBut t [a, st] ∧
        (t.fl cfg Reg.PREC_CHnCFG_EN = 1 → s.fl Reg.PREC_CTL Reg.PREC_CTL_EN = 1 →
          let w := decide (t.fl exc Reg.PREC_CHnEXC_EXSET ≠ 0)
          t.fl st Reg.PREC_CHnSTAT_WAIT = b2n w ∧ t.fl st Reg.PREC_CHnSTAT_RUN = b2n (!w)))) ∧
    (change = 0 →
      Gives (.precRestart n isExc v) s (fun t => s.outside t ∧ t.rd a = v &&& keep ∧ s.regsBut t [a] ∧ t.meas = s.meas)) ∧
    (s.fl st Reg.PREC_CHnSTAT_WAIT = 1 →
      Gives (.exsetWaitEnd n) s (fun t => s.outside t ∧ t.fl st Reg.PREC_CHnSTAT_WAIT = 0 ∧ t.fl st Reg.PREC_CHnSTAT_RUN = 1 ∧
        (t.prec n).win = [] ∧ (t.prec n).setl = start (s.prec n).cfg ∧ s.regsBut t [st])) ∧
    Gives (.precSync v) s (fun t => s.outside t ∧ (∀ a, t.rd a = s.rd a) ∧ ∀ m < 24,
      if v.getLsbD m = true ∧ s.fl (Reg.PREC_CHnSTAT m) Reg.PREC_CHnSTAT_RUN = 1 then
        (t.prec m).win = [] ∧ (t.prec m).setl = start (s.prec m).cfg ∧ (t.prec m).seq = (s.prec m).seq
      else t.prec m = s.prec m) ∧
    (s.fl lctl Reg.PREC_CHnLCTL_PEND = 0 → running →
      Gives (.swapRequest n) s (fun t => s.outside t ∧ t.fl lctl Reg.PREC_CHnLCTL_PEND = 1 ∧
        t.fl lctl Reg.PREC_CHnLCTL_ACT = s.fl lctl Reg.PREC_CHnLCTL_ACT ∧ s.regsBut t [lctl] ∧ t.meas = s.meas)) ∧
    (s.fl lctl Reg.PREC_CHnLCTL_PEND = 0 → ¬ running →
      Gives (.swapRequest n) s (fun t => s.outside t ∧ t.fl lctl Reg.PREC_CHnLCTL_PEND = 0 ∧
        t.fl lctl Reg.PREC_CHnLCTL_ACT = 1 - s.fl lctl Reg.PREC_CHnLCTL_ACT ∧ (0x180 + n.val) ∈ t.ev.crossing)) ∧
    (s.fl lctl Reg.PREC_CHnLCTL_PEND = 0 → s.fl lctl Reg.PREC_CHnLCTL_ACT ≠ b →
      Gives (.precWref n b i v) s (fun t => s.outside t ∧ t.rd (Reg.PREC_CHnLb n b i) = v ∧ s.regsBut t [Reg.PREC_CHnLb n b i] ∧
        t.ev = s.ev)) ∧
    (s.fl lctl Reg.PREC_CHnLCTL_PEND = 1 ∨ s.fl lctl Reg.PREC_CHnLCTL_ACT = b →
      Gives (.precWref n b i v) s (fun t => s.outside t ∧ (∀ m < 24, ∀ c < 2, ∀ j < 257, t.rd (Reg.PREC_CHnLb m c j) = s.rd (Reg.PREC_CHnLb m c j)) ∧
        t.rd Reg.PREC_WREFCNT = satInc (s.rd Reg.PREC_WREFCNT).toNat 0xFFFFFF ∧ 0x199 ∈ t.ev.crossing)) ∧
    (s.fl cfg Reg.PREC_CHnCFG_EN = 1 → s.fl Reg.PREC_CTL Reg.PREC_CTL_EN = 1 → (s.prec n).off = false →
      Gives (.precStale n) s (fun t => s.outside t ∧ (t.rd (Reg.PREC_CHnQUAL n)).getLsbD 14 = true ∧
        t.fl st Reg.PREC_CHnSTAT_STALEF = 1 ∧ (t.prec n).off = true ∧ (0x150 + n.val) ∈ t.ev.crossing ∧
        t.rd (Reg.PREC_CHnDATA n) = s.rd (Reg.PREC_CHnDATA n))) ∧
    (s.fl Reg.PREC_CTL Reg.PREC_CTL_CJEN = 1 →
      Gives (.coldJunctionReading v) s (fun t => s.outside t ∧
        t.rd Reg.PREC_CJT = v ∧ t.fl Reg.PREC_CJSTAT Reg.PREC_CJSTAT_SREF = b2n s.meas.cj.sus ∧
        (-204800 ≤ v.toInt ∧ v.toInt ≤ 614400 → t.meas.cj.good = some (v, s.time.dt.toNat, s.meas.cj.sus) ∧ t.meas.cj.bad = false ∧
          t.fl Reg.PREC_CJSTAT Reg.PREC_CJSTAT_V = 1 ∧ s.regsBut t [Reg.PREC_CJT, Reg.PREC_CJSTAT] ∧ t.ev = s.ev) ∧
        (v.toInt < -204800 ∨ 614400 < v.toInt → t.meas.cj.good = s.meas.cj.good ∧
          t.fl Reg.PREC_CJSTAT Reg.PREC_CJSTAT_FAIL = 1 ∧ t.meas.cj.bad = true ∧ 0x198 ∈ t.ev.crossing))) ∧
    (s.bexOn k = true → (s.rd Reg.PREC_BEXSTAT).getLsbD (4 + k) = false →
      Gives (.precBexlim k) s (fun t => s.outside t ∧ (t.rd Reg.PREC_BEXSTAT).getLsbD k = true ∧
        (t.rd Reg.PREC_BEXSTAT).getLsbD (4 + k) = true ∧ 0x19A ∈ t.ev.crossing ∧ t.meas = s.meas)) ∧
    Gives (.bexLimitEnd k) s (fun t => s.outside t ∧ (t.rd Reg.PREC_BEXSTAT).getLsbD (4 + k) = false ∧
      (∀ j, j ≠ 4 + k.val → (t.rd Reg.PREC_BEXSTAT).getLsbD j = (s.rd Reg.PREC_BEXSTAT).getLsbD j) ∧
      s.regsBut t [Reg.PREC_BEXSTAT] ∧ t.meas = s.meas ∧ t.ev = s.ev)

/-- R316–R318, R320, R427. Deviations are in units of 20 µV; states are 0 OK, 1 SUSPECT, 2 OUT. -/
def Obligations.Bandgaps : Prop :=
  ∀ (d0 d1 d2 diff v : BitVec 24) (s : State),
    let st := fun (t : State) (k : Nat) => getBits (t.rd Reg.REF_BGSTAT) (2 * k + 1) (2 * k)
    let sel := fun (t : State) => t.fl Reg.REF_BGSTAT Reg.REF_BGSTAT_SEL
    let d : Nat → Word := fun k => if k = 0 then d0 else if k = 1 then d1 else d2
    let mag : Nat → Nat := fun k => (d k).toInt.natAbs
    let run := fun (t : State) (k : Nat) => SMap.get 0 t.meas.bg12 k
    s.islandRuns 0 = true →
    ((∀ k < 3, st s k < 2) → sel s < 3 →
      Gives (.bandgapComparison d0 d1 d2 diff) s (fun t => s.outside t ∧ t.time = s.time ∧ t.act = s.act ∧
        (∀ k < 3, t.rd (Reg.REF_BGDk k) = d k) ∧
        (∀ k < 3, st s k = 0 → (run s k < 9 ∨ mag k ≤ 600) → st t k = if 75 < mag k then 1 else 0) ∧
        (∀ k < 3, st s k = 0 → 600 < mag k → 9 ≤ run s k → st t k = 2) ∧
        (∀ k < 3, st s k = 1 → mag k ≤ 50 → st t k = 0) ∧
        (st t (sel s) < 2 → sel t = sel s))) ∧
    Gives (.bandgapStateWrite v) s (fun t => s.outside t ∧ t.time = s.time ∧ t.act = s.act ∧
      (∀ k < 3, getBits v (2 * k + 1) (2 * k) = 2 → st t k = 2) ∧
      (∀ k < 3, getBits v (2 * k + 1) (2 * k) = 0 → st s k = 2 → st t k = 0 ∧ run t k = 0) ∧
      (∀ k < 3, getBits v (2 * k + 1) (2 * k) = 0 → st s k ≠ 2 → st t k = st s k) ∧
      (∀ k < 3, getBits v (2 * k + 1) (2 * k) = 1 ∨ getBits v (2 * k + 1) (2 * k) = 3 → st t k = st s k) ∧
      (sel s < 3 → st t (sel s) < 2 → sel t = sel s) ∧
      (let top := getBits (s.rd Reg.REF_BGCTL) 1 0
       top < 3 → sel s < 3 → st t (sel s) = 2 → st t top = 0 → t.fl Reg.REF_BGSTAT Reg.REF_BGSTAT_DIS = 0 → sel t = top))

/-- R324–R333: the commands of a crossing converter. -/
def Obligations.CrossingConverters : Prop :=
  ∀ (n : Fin 16) (up ok : Bool) (age : BitVec 8) (level : BitVec 12) (s : State),
    let x := s.xing n
    let st := Reg.XING_CHnSTAT n
    let lvl := Reg.XING_CHnLVL n
    let base := s.fl (Reg.XING_CHnCFG n) Reg.XING_CHnCFG_LBASE
    let top := min (s.fl (Reg.XING_CHnSTEP n) Reg.XING_CHnSTEP_LMAX) ((65535 - base) / max 1 (s.fl (Reg.XING_CHnSTEP n) Reg.XING_CHnSTEP_LSTEP))
    let l := s.fl lvl Reg.XING_CHnLVL_LVL
    let now := s.time.dt.toNat
    let tq := s.fl Reg.TIME_STAT Reg.TIME_STAT_TQ
    let pkt := s.fl (Reg.XING_CHnCFG n) Reg.XING_CHnCFG_PKT = 1
    let words := fun (dir mrg rk q lev : Nat) (stamp : Word) =>
      let w : Word := BitVec.ofNat 24 (dir * 2 ^ 22 + q * 2 ^ 20 + mrg * 2 ^ 19 + b2n x.lost * 2 ^ 18 + rk * 2 ^ 16 + x.cnt % 16 * 2 ^ 12 + lev)
      if pkt then [BitVec.ofNat 24 (0x200002 + n.val * 2 ^ 15 + x.cnt % 256 * 2 ^ 7), w, stamp] else [w]
    let pushed := fun (t : State) (ws : List Word) => (t.xing n).cnt = (x.cnt + 1) % 256 ∧ (t.xing n).held = false ∧
      ((s.bqGet (28 + n)).length + ws.length ≤ 30 → (t.bqGet (28 + n)).map (fun i => i.w) = (s.bqGet (28 + n)).map (fun i => i.w) ++ ws ∧
        (t.xing n).lost = false) ∧
      (s.fl (Reg.STR_BQqCFG (28 + n)) Reg.STR_BQqCFG_EN = 1 → 30 < (s.bqGet (28 + n)).length + ws.length → t.bqGet (28 + n) = s.bqGet (28 + n) ∧ (t.xing n).lost = true ∧
        t.fl st Reg.XING_CHnSTAT_LOSTCNT = satInc (s.fl st Reg.XING_CHnSTAT_LOSTCNT) 255 ∧ (0x1E0 + n.val) ∈ t.ev.crossing)
    let quiet := fun (t : State) => t.bqGet (28 + n) = s.bqGet (28 + n)
    let on := s.fl Reg.XING_CTL Reg.XING_CTL_EN = 1 ∧ s.fl (Reg.XING_CHnCFG n) Reg.XING_CHnCFG_EN = 1
    s.islandRuns 0 = true → on →
    (s.fl st Reg.XING_CHnSTAT_ACQ = 0 → s.fl lvl Reg.XING_CHnLVL_V = 1 → (if up then l < top else 0 < l) →
      let l1 := if up then l + 1 else l - 1
      let stamp : Word := BitVec.ofNat 24 now - BitVec.ofNat 24 (age.toNat + 15)
      let early := ∃ t0, x.at? = some t0 ∧ (s.time.dt - BitVec.ofNat 48 t0).toNat < max 25 (s.fl (Reg.XING_CHnRATE n) Reg.XING_CHnRATE_MINIV)
      Gives (.xingCrossing n up age) s (fun t => s.outside t ∧ t.fl lvl Reg.XING_CHnLVL_LVL = l1 ∧
        t.fl lvl Reg.XING_CHnLVL_DIR = b2n up ∧ t.fl lvl Reg.XING_CHnLVL_V = 1 ∧ t.rd (Reg.XING_CHnTIME n) = stamp ∧
        (x.held = true ∨ early → quiet t ∧ (t.xing n).held = true ∧
          t.fl st Reg.XING_CHnSTAT_MRGCNT = satInc (s.fl st Reg.XING_CHnSTAT_MRGCNT) 255) ∧
        (x.held = false → ¬ early → pushed t (words (b2n up) 0 0 (s.tqAt (age.toNat + 15)) l1 stamp)) ∧ t.comm = s.comm ∧ t.time = s.time)) ∧
    (x.held = true →
      Gives (.minivIntervalEnd n) s (fun t => s.outside t ∧ (t.xing n).held = false ∧ t.rd lvl = s.rd lvl ∧ t.act = s.act ∧
        (l = x.rep → quiet t) ∧
        (l ≠ x.rep → pushed t (words (b2n (decide (x.rep < l))) 1 0 x.tq l (s.rd (Reg.XING_CHnTIME n)))))) ∧
    Gives (.xingAcquire n) s (fun t => s.outside t ∧ t.fl st Reg.XING_CHnSTAT_ACQ = 1 ∧ s.regsBut t [st] ∧ quiet t ∧ t.meas = s.meas) ∧
    (s.fl st Reg.XING_CHnSTAT_ACQ = 1 →
      Gives (.acquisitionDone n level) s (fun t => s.outside t ∧ t.fl st Reg.XING_CHnSTAT_ACQ = 0 ∧
        t.fl lvl Reg.XING_CHnLVL_LVL = min level.toNat top ∧ t.fl lvl Reg.XING_CHnLVL_V = 1 ∧
        pushed t (words 0 0 1 tq (min level.toNat top) (BitVec.ofNat 24 now)))) ∧
    (s.fl (Reg.XING_CHnTMO n) Reg.XING_CHnTMO_TMO ≠ 0 → x.off = false →
      Gives (.xingQuiet n ok) s (fun t => s.outside t ∧ t.fl st Reg.XING_CHnSTAT_QUIETF = 1 ∧ (0x1C0 + n.val) ∈ t.ev.crossing ∧
        t.rd lvl = s.rd lvl ∧
        (s.fl (Reg.XING_CHnCFG n) Reg.XING_CHnCFG_HBEN = 0 → quiet t ∧ t.xing n = { x with off := true }) ∧
        (s.fl (Reg.XING_CHnCFG n) Reg.XING_CHnCFG_HBEN = 1 → ok = true → pushed t (words 0 0 2 tq l (BitVec.ofNat 24 now))) ∧
        (s.fl (Reg.XING_CHnCFG n) Reg.XING_CHnCFG_HBEN = 1 → ok = false → quiet t ∧ t.fl st Reg.XING_CHnSTAT_FAULTF = 1 ∧
          t.fl st Reg.XING_CHnSTAT_ACQ = 1 ∧ (0x1D0 + n.val) ∈ t.ev.crossing)))

/-- R336–R344, R387: the sampler cores. -/
def Obligations.SynchronousSamplers : Prop :=
  ∀ (k b : Fin 4) (isB : Bool) (v : BitVec 24) (us : List (BitVec 24)) (age : BitVec 10) (s : State),
    let st := fun (m : Nat) => Reg.SAR_KkSTAT m
    let on := fun (m : Nat) => (s.rd Reg.SAR_CTL).getLsbD m = true
    let tsel := fun (m : Nat) => s.fl (Reg.SAR_KkCFG m) Reg.SAR_KkCFG_TSEL
    let busy := fun (t : State) (m : Nat) => t.fl (st m) Reg.SAR_KkSTAT_BUSY
    let runs := fun (t : State) (m : Nat) => t.fl (st m) Reg.SAR_KkSTAT_RUNS
    let started := fun (t : State) (m : Nat) => busy t m = 1 ∧ runs t m = (runs s m + 1) % 256 ∧ (t.core m).step = 0 ∧ (t.core m).off = false
    (s.islandRuns 6 = true →
      (on k → tsel k ≤ 9 → busy s k = 0 →
        Gives (.sarTrigger k) s (fun t => s.outside t ∧ started t k ∧ s.regsBut t [st k] ∧ t.ev = s.ev)) ∧
      (on k → tsel k ≤ 9 → busy s k = 1 →
        Gives (.sarTrigger k) s (fun t => s.outside t ∧ busy t k = 1 ∧ runs t k = runs s k ∧ (t.core k).step = (s.core k).step ∧
          t.fl (st k) Reg.SAR_KkSTAT_TLOSTF = 1 ∧ t.fl (st k) Reg.SAR_KkSTAT_TLOSTCNT = satInc (s.fl (st k) Reg.SAR_KkSTAT_TLOSTCNT) 255 ∧
          (0x218 + k.val) ∈ t.ev.crossing ∧ ∀ i < 3, (t.sarIn (3 * k + i)).x = true)) ∧
      Gives (.sarSwtrig v) s (fun t => s.outside t ∧ ∀ m < 4,
        (v.getLsbD m = true → tsel m = 8 → on m → busy s m = 0 → started t m) ∧
        (v.getLsbD m = false ∨ tsel m ≠ 8 ∨ ¬ on m → t.rd (st m) = s.rd (st m) ∧ t.core m = s.core m)) ∧
      (busy s k = 1 →
        let j := (s.core k).step
        let i := s.fl (Reg.SAR_KkSTEPj k j) Reg.SAR_KkSTEPj_IN
        let m := 3 * k.val + i
        let runs : Nat := 2 ^ s.fl (Reg.SAR_KkCFG k) Reg.SAR_KkCFG_AVG
        let c : Int := ((us.take runs).map (fun u => sarCode (s.sarVolts k i u.toInt))).foldl (· + ·) (0 : Int) / (runs : Int)
        let y := (c * 1024 - (s.rd (Reg.SAR_INnOFS m)).toInt) * (s.rd (Reg.SAR_INnGAIN m)).toNat / 2 ^ 22
        let q := fun (t : State) => t.rd (Reg.SAR_INnQUAL m)
        Gives (.sarStepDone k us age) s (fun t => s.outside t ∧
          (i < 3 → (t.rd (Reg.SAR_INnDATA m)).toInt = clamp 0x7FFFFF y ∧
            t.rd (Reg.SAR_INnTIME m) = BitVec.ofNat 24 s.time.dt.toNat - BitVec.ofNat 24 age.toNat ∧
            getBits (q t) 12 8 = m ∧ getBits (q t) 7 0 = ((s.sarIn m).seq + 1) % 256 ∧ (q t).getLsbD 22 = (s.sarIn m).x ∧
            (q t).getLsbD 20 = decide (c = -8192 ∨ c = 8191 ∨ clamp 0x7FFFFF y ≠ y) ∧
            (s.fl (Reg.SAR_KkSTEPj k j) Reg.SAR_KkSTEPj_PUSH = 1 → s.fl (Reg.SAR_INnCFG m) Reg.SAR_INnCFG_PKT = 0 →
              (s.bqGet (52 + m)).length < 30 →
              t.bqGet (52 + m) = s.bqGet (52 + m) ++ [{ w := t.rd (Reg.SAR_INnDATA m), ev := some (0x200 + m) }]) ∧
            (s.fl (Reg.SAR_KkSTEPj k j) Reg.SAR_KkSTEPj_PUSH = 0 → t.bqGet (52 + m) = s.bqGet (52 + m))) ∧
          (3 ≤ i → (t.rd (Reg.SAR_KkCHK k)).toInt = clamp 0x7FFFFF (c * 1024)) ∧
          (j < s.fl (Reg.SAR_KkCFG k) Reg.SAR_KkCFG_NSTEP → (t.core k).step = j + 1 ∧ busy t k = 1) ∧
          (s.fl (Reg.SAR_KkCFG k) Reg.SAR_KkCFG_NSTEP ≤ j → tsel k ≠ 9 → (t.core k).step = 0 ∧ busy t k = 0) ∧ t.comm = s.comm)) ∧
      (on k → s.fl (Reg.SAR_KkCFG k) Reg.SAR_KkCFG_TMO ≠ 0 → (s.core k).off = false →
        Gives (.sarStale k) s (fun t => s.outside t ∧ t.fl (st k) Reg.SAR_KkSTAT_STALEF = 1 ∧ (t.core k).off = true ∧
          (∀ i < 3, (t.rd (Reg.SAR_INnQUAL (3 * k + i))).getLsbD 14 = true) ∧ (0x21C + k.val) ∈ t.ev.crossing))) ∧
    (s.islandRuns 5 = true → s.islandRuns 6 = true → (s.br b).count = true →
      s.fl (if isB then Reg.BR_bTRGB b else Reg.BR_bTRGA b) Reg.BR_bTRGA_CYC < (s.br b).per →
      Gives (.bridgeTriggerPoint b isB) s (fun t => s.outside t ∧ t.act = s.act ∧ ∀ m < 4,
        (tsel m = 2 * b + b2n isB → on m → busy s m = 0 → started t m) ∧
        (tsel m ≠ 2 * b + b2n isB → t.rd (st m) = s.rd (st m) ∧ t.core m = s.core m)))

/-- R335–R338, R345–R350: pulse inputs and conductivity probes. -/
def Obligations.PulseAndConductivity : Prop :=
  ∀ (n : Fin 8) (k : Fin 4) (level lim : Bool) (age : BitVec 12) (g : BitVec 40) (s : State),
    let cfg := fun (f : Fld) => s.fl (Reg.PULSE_INnCFG n) f
    let st := Reg.PULSE_INnSTAT n
    let e := s.edge n
    let data := fun (t : State) => t.rd (Reg.PULSE_INnDATA n)
    let reports := fun (t : State) (v : Nat) => data t = BitVec.ofNat 24 (min v 0x7FFFFF) ∧
      (t.rd (Reg.PULSE_INnQUAL n)).getLsbD 20 = decide (0x7FFFFF ≤ v) ∧
      getBits (t.rd (Reg.PULSE_INnQUAL n)) 7 0 = ((s.pulse n).seq + 1) % 256 ∧
      (cfg Reg.PULSE_INnCFG_PKT = 0 → (s.bqGet (44 + n)).length < 30 →
        t.bqGet (44 + n) = s.bqGet (44 + n) ++ [{ w := data t, ev := some (0x240 + n) }])
    let silent := fun (t : State) => data t = data s ∧ t.bqGet (44 + n) = s.bqGet (44 + n)
    (s.islandRuns 0 = true → cfg Reg.PULSE_INnCFG_EN = 1 →
      (let sel := (cfg Reg.PULSE_INnCFG_EDGE).testBit (if level then 0 else 1)
       let mode := cfg Reg.PULSE_INnCFG_MODE
       let due := cfg Reg.PULSE_INnCFG_N ≤ e.edges
       let now := s.time.dt - BitVec.ofNat 48 age.toNat
       Gives (.pulseEdge n level age) s (fun t => s.outside t ∧ t.fl st Reg.PULSE_INnSTAT_LEVEL = b2n level ∧
        (sel = false → silent t ∧ t.rd (Reg.PULSE_INnCOUNT n) = s.rd (Reg.PULSE_INnCOUNT n) ∧ t.meas = s.meas) ∧
        (sel = true → t.rd (Reg.PULSE_INnCOUNT n) = s.rd (Reg.PULSE_INnCOUNT n) + 1 ∧
          (mode ≠ 1 → mode ≠ 2 → silent t ∧ t.edge n = e) ∧
          (mode = 2 → silent t ∧ t.edge n = { e with cnt := e.cnt + 1, last? := some now.toNat }) ∧
          (mode = 1 → ¬ due → silent t ∧ t.edge n = { e with edges := e.edges + 1 }) ∧
          (mode = 1 → due →
            reports t (match e.ref? with | some t0 => (now - BitVec.ofNat 48 t0).toNat | none => 0x7FFFFF) ∧
            t.edge n = { e with edges := 0, ref? := some now.toNat } ∧ t.rd (Reg.PULSE_INnTIME n) = BitVec.ofNat 24 now.toNat)))) ∧
      Gives (.pulseGlitch n) s (fun t => s.outside t ∧ t.fl st Reg.PULSE_INnSTAT_GLITCH = satInc (s.fl st Reg.PULSE_INnSTAT_GLITCH) 255 ∧
        (t.pulse n).x = true ∧ s.regsBut t [st] ∧ silent t) ∧
      (cfg Reg.PULSE_INnCFG_MODE = 2 →
        Gives (.pulseIntervalEnd n) s (fun t => s.outside t ∧ reports t e.cnt ∧ (t.edge n).cnt = 0 ∧
          t.rd (Reg.PULSE_INnTIME n) = BitVec.ofNat 24 (e.last?.getD s.time.dt.toNat))) ∧
      (s.fl (Reg.PULSE_INnHYG n) Reg.PULSE_INnHYG_TMO ≠ 0 → (s.pulse n).off = false →
        Gives (.pulseStale n) s (fun t => s.outside t ∧ t.fl st Reg.PULSE_INnSTAT_STALEF = 1 ∧
          (t.rd (Reg.PULSE_INnQUAL n)).getLsbD 14 = true ∧ (0x250 + n.val) ∈ t.ev.crossing ∧
          (cfg Reg.PULSE_INnCFG_MODE = 1 → reports t 0x7FFFFF ∧ (t.edge n).ref? = none) ∧
          (cfg Reg.PULSE_INnCFG_MODE ≠ 1 → silent t)))) ∧
    (s.islandRuns 7 = true → s.fl (Reg.COND_PkCFG k) Reg.COND_PkCFG_EN = 1 →
      (let gfs := 10 ^ (7 + s.fl (Reg.COND_PkCFG k) Reg.COND_PkCFG_RANGE)
       let v := g.toNat * 2 ^ 23 * (s.rd (Reg.COND_PkGAIN k)).toNat / (gfs * 2 ^ 22)
       let y := min v 0x7FFFFF
       let q := fun (t : State) => t.rd (Reg.COND_PkQUAL k)
       Gives (.condResult k g lim) s (fun t => s.outside t ∧ t.rd (Reg.COND_PkDATA k) = BitVec.ofNat 24 y ∧
        t.rd (Reg.COND_PkTIME k) = BitVec.ofNat 24 s.time.dt.toNat ∧ getBits (q t) 12 8 = k ∧
        getBits (q t) 7 0 = ((s.cond k).seq + 1) % 256 ∧ (q t).getLsbD 22 = lim ∧
        (q t).getLsbD 20 = (decide (gfs ≤ g.toNat ∨ y ≠ v) || lim) ∧ t.fl (Reg.COND_PkSTAT k) Reg.COND_PkSTAT_LIMNOW = b2n lim ∧
        (lim = true → (s.cond k).lim = false → t.fl (Reg.COND_PkSTAT k) Reg.COND_PkSTAT_FAULTF = 1 ∧ (0x264 + k.val) ∈ t.ev.crossing) ∧
        (s.fl (Reg.COND_PkCFG k) Reg.COND_PkCFG_PKT = 0 → (s.bqGet (24 + k)).length < 30 →
          t.bqGet (24 + k) = s.bqGet (24 + k) ++ [{ w := BitVec.ofNat 24 y, ev := some (0x258 + k) }]))) ∧
      ((s.cond k).off = false →
        Gives (.condStale k) s (fun t => s.outside t ∧ t.fl (Reg.COND_PkSTAT k) Reg.COND_PkSTAT_STALEF = 1 ∧
          t.fl (Reg.COND_PkSTAT k) Reg.COND_PkSTAT_STALECNT = satInc (s.fl (Reg.COND_PkSTAT k) Reg.COND_PkSTAT_STALECNT) 255 ∧
          (t.rd (Reg.COND_PkQUAL k)).getLsbD 14 = true ∧ (0x260 + k.val) ∈ t.ev.crossing ∧
          t.rd (Reg.COND_PkDATA k) = s.rd (Reg.COND_PkDATA k))))

/-- R384, R385, R388, R390, R399: the bridges. -/
def Obligations.Bridges : Prop :=
  ∀ (b : Fin 4) (p : Fin 3) (v uv : BitVec 24) (s : State),
    let st := Reg.BR_bSTAT b
    let bounded := fun (t : State) (c : Nat) => (t.br c).count = true ∧ (t.br c).per = max 64 (s.fl (Reg.BR_bCFG c) Reg.BR_bCFG_PER) ∧
      (t.br c).align = decide (s.fl (Reg.BR_bCFG c) Reg.BR_bCFG_ALIGN = 1) ∧ (t.br c).dt = s.fl (Reg.BR_bDT c) Reg.BR_bDT_DT ∧
      (t.br c).tripPh = 0 ∧ ∀ q < 3, SMap.get none (t.br c).vals q = s.shadow (3 * c + q)
    let others := fun (t : State) => ∀ c < 4, c ≠ b.val → t.br c = s.br c ∧ t.rd (Reg.BR_bSTAT c) = s.rd (Reg.BR_bSTAT c)
    (s.islandRuns 5 = true →
      ((s.br b).count = true → Gives (.pwmPeriodBoundary b) s (fun t => s.outside t ∧ bounded t b ∧ others t ∧
        (s.fl (Reg.BR_bCFG b) Reg.BR_bCFG_PEREV = 1 → (0x280 + b.val) ∈ t.ev.crossing) ∧
        (s.fl (Reg.BR_bCFG b) Reg.BR_bCFG_PEREV = 0 → (∀ n < 64, s.fl (Reg.TCn_CFG n) Reg.TCn_CFG_CSEL ≠ 15 + b.val) → t.ev = s.ev))) ∧
      Gives (.brSync v) s (fun t => s.outside t ∧ ∀ c < 4,
        (v.getLsbD c = true → (s.br c).count = true → bounded t c) ∧
        (v.getLsbD c = false ∨ (s.br c).count = false → t.br c = s.br c)) ∧
      Gives (.bridgeEnable v) s (fun t => s.outside t ∧ t.rd Reg.BR_CTL = v &&& 0x80000F ∧ ∀ c < 4,
        ((s.rd Reg.BR_CTL).getLsbD c ≠ v.getLsbD c → (t.br c).count = v.getLsbD c) ∧
        ((s.rd Reg.BR_CTL).getLsbD c = v.getLsbD c → t.br c = s.br c) ∧
        ((s.rd Reg.BR_CTL).getLsbD c = false → v.getLsbD c = true → bounded t c) ∧
        (v.getLsbD c = false → ∀ q < 3, t.phaseOut c q = .off)) ∧
      (s.overcurrent b uv.toInt = true → Gives (.overcurrentTrip b p uv) s (fun t => s.outside t ∧ others t ∧
        t.fl st Reg.BR_bSTAT_TRIPF = 1 ∧ t.fl st Reg.BR_bSTAT_TRIPNOW = 1 ∧
        t.fl st Reg.BR_bSTAT_TRIPCNT = satInc (s.fl st Reg.BR_bSTAT_TRIPCNT) Reg.BR_bSTAT_TRIPCNT.max ∧ t.phaseOut b p = .off ∧
        (s.fl (Reg.BR_bCFG b) Reg.BR_bCFG_TRIPMODE = 0 → ∀ q < 3, t.phaseOut b q = .off) ∧
        (s.fl (Reg.BR_bCFG b) Reg.BR_bCFG_TRIPMODE = 1 → ∀ q < 3, q ≠ p.val → t.phaseOut b q = s.phaseOut b q) ∧
        (0x284 + b.val) ∈ t.ev.crossing)) ∧
      (s.overcurrent b uv.toInt = false → Gives (.overcurrentTrip b p uv) s (fun t => t = s)) ∧
      Gives (.tripfClear b) s (fun t => s.outside t ∧ others t ∧ t.fl st Reg.BR_bSTAT_TRIPF = 0 ∧
        t.br b = { s.br b with tripAll := false } ∧ t.ev = s.ev) ∧
      ((s.rd st).getLsbD (16 + p) = false → Gives (.bootstrapUndervoltage b p) s (fun t => s.outside t ∧ others t ∧
        (t.rd st).getLsbD (16 + p) = true ∧ (t.rd st).getLsbD (19 + p) = true ∧ (t.br b).bsHold.getLsbD p = true ∧
        (∀ on start dt, t.phaseOut b p ≠ .pwm on start dt) ∧ (0x288 + b.val) ∈ t.ev.crossing)) ∧
      Gives (.bootstrapRecovery b p) s (fun t => s.outside t ∧ (t.rd st).getLsbD (16 + p) = false ∧ s.regsBut t [st] ∧ t.act = s.act ∧
        t.ev = s.ev ∧ ∀ j, j ≠ 16 + p.val → (t.rd st).getLsbD j = (s.rd st).getLsbD j)) ∧
    (s.fl Reg.BR_CTL Reg.BR_CTL_VGDEN = 1 → s.fl Reg.BR_VGDSTAT Reg.BR_VGDSTAT_UVNOW = 0 →
      Gives .vgdUndervoltage s (fun t => s.outside t ∧ t.fl Reg.BR_VGDSTAT Reg.BR_VGDSTAT_UVNOW = 1 ∧
        t.fl Reg.BR_VGDSTAT Reg.BR_VGDSTAT_UVF = 1 ∧ (∀ c < 4, ∀ q < 3, t.phaseOut c q = .off) ∧
        (s.pwr.state < 2 → 0x28C ∈ t.ev.crossing))) ∧
    Gives .vgdRecovery s (fun t => s.outside t ∧ t.fl Reg.BR_VGDSTAT Reg.BR_VGDSTAT_UVNOW = 0 ∧ s.regsBut t [Reg.BR_VGDSTAT] ∧
      t.act = s.act ∧ t.ev = s.ev)

/-- R391–R396, R400, R401: valve drivers, zero-cross inputs, SSR outputs. -/
def Obligations.ValvesAndSsr : Prop :=
  ∀ (c : Fin 16) (r : List Nat) (ma : BitVec 11) (k : Fin 2) (us : BitVec 16) (o : Fin 8) (s : State),
    let st := Reg.SOL_cSTAT c
    let zst := Reg.SSR_ZCkSTAT k
    let ost := Reg.SSR_oSTAT o
    let wait := min 0xFFFF ((s.time.dt.toNat - (s.sol c).since) / 1000)
    s.islandRuns 0 = true →
    (s.act.solq = c.val :: r → s.solPeaks < 4 →
      Gives .solPeakGrant s (fun t => s.outside t ∧ t.act.solq = r ∧ t.solState c = 2 ∧ t.rd (Reg.SOL_cDLY c) = BitVec.ofNat 24 wait ∧
        t.rd Reg.SOL_DLYCNT = BitVec.ofNat 24 (satInc (s.rd Reg.SOL_DLYCNT).toNat 0xFFFFFF) ∧
        t.fl Reg.SOL_SEQ Reg.SOL_SEQ_QMAX = max wait (s.fl Reg.SOL_SEQ Reg.SOL_SEQ_QMAX) ∧ 0x2D0 ∈ t.ev.crossing ∧
        ∀ d < 16, d ≠ c.val → t.sol d = s.sol d ∧ t.rd (Reg.SOL_cSTAT d) = s.rd (Reg.SOL_cSTAT d))) ∧
    (s.solState c = 2 → Gives (.solPeakEnd c) s (fun t => s.outside t ∧ t.solState c = 3 ∧ s.regsBut t [st, Reg.SOL_SEQ] ∧ t.act = s.act ∧
      t.ev = s.ev)) ∧
    (2 ≤ s.solState c → (s.sol c).checked = false → Gives (.solOpenCheck c ma) s (fun t => s.outside t ∧ (t.sol c).checked = true ∧
      t.solState c = s.solState c ∧
      (ma.toNat < 50 → t.fl st Reg.SOL_cSTAT_OPENF = 1 ∧ (0x2C0 + c.val) ∈ t.ev.crossing) ∧
      (50 ≤ ma.toNat → (∀ a, t.rd a = s.rd a) ∧ t.ev = s.ev))) ∧
    (2 ≤ s.solState c → Gives (.solShort c) s (fun t => s.outside t ∧ t.solState c = 0 ∧ t.fl st Reg.SOL_cSTAT_SHORTF = 1 ∧
      t.solOut c = (0, 0) ∧ c.val ∉ t.act.solq ∧ s.regsBut t [st, Reg.SOL_SEQ] ∧ t.ev = s.ev)) ∧
    (s.fl (Reg.SSR_ZCkCFG k) Reg.SSR_ZCkCFG_EN = 1 →
      (let h := (us.toNat :: (SMap.get ZcSt.init s.act.zc k).halves).take 8
       let good := 7500 ≤ us.toNat ∧ us.toNat ≤ 11100
       let x := s.ssr o
       Gives (.zeroCrossEdge k us) s (fun t => s.outside t ∧ (SMap.get ZcSt.init t.act.zc k).halves = h ∧
        t.fl zst Reg.SSR_ZCkSTAT_HALF = min 0xFFFF (h.sum / h.length) ∧
        (¬ good → t.fl zst Reg.SSR_ZCkSTAT_LOST = 1) ∧
        (good → s.fl zst Reg.SSR_ZCkSTAT_LOST = 0 → t.fl zst Reg.SSR_ZCkSTAT_LOST = 0 ∧
          (s.fl (Reg.SSR_ZCkCFG k) Reg.SSR_ZCkCFG_ZOFS = 0 → s.ssrEn o = true → s.ssrZc o = k → s.fl (Reg.SSR_oCFG o) Reg.SSR_oCFG_MODE = 1 →
            s.hbOff (28 + o) = false →
            t.fl ost Reg.SSR_oSTAT_ON = b2n (decide (2 ^ 23 ≤ x.acc + ssrFrac x.v)) ∧
            (t.ssr o).acc = if 2 ^ 23 ≤ x.acc + ssrFrac x.v then x.acc + ssrFrac x.v - 2 ^ 23 else x.acc + ssrFrac x.v))))) ∧
    (s.fl (Reg.SSR_ZCkCFG k) Reg.SSR_ZCkCFG_EN = 0 → Gives (.zeroCrossEdge k us) s (fun t => t = s)) ∧
    (Gives (.zeroCrossLost k) s (fun t => s.outside t ∧ t.fl zst Reg.SSR_ZCkSTAT_LOST = 1 ∧
        (s.fl zst Reg.SSR_ZCkSTAT_LOST = 0 → t.fl zst Reg.SSR_ZCkSTAT_LOSTF = 1 ∧ (0x2E0 + k.val) ∈ t.ev.crossing) ∧
        (s.ssrEn o = true → s.ssrZc o = k → s.ssrMode o ≠ 0 → t.ssrOut o = (false, none)))) ∧
    Gives (.ssrOc o) s (fun t => s.outside t ∧ t.fl ost Reg.SSR_oSTAT_OCF = 1 ∧ t.ssrOut o = (false, none) ∧ 0x2E4 ∈ t.ev.crossing ∧
      ∀ p < 8, p ≠ o.val → t.ssr p = s.ssr p ∧ t.rd (Reg.SSR_oSTAT p) = s.rd (Reg.SSR_oSTAT p)) ∧
    (s.ssrMode o = 0 → Gives (.ssrOcEnd o) s (fun t => s.outside t ∧ s.regsBut t [ost] ∧ t.ev = s.ev ∧
      t.fl ost Reg.SSR_oSTAT_ON = b2n (s.ssrEn o && decide (0 < (s.ssr o).v.toInt) && !s.hbOff (28 + o))))

/-- R359–R368, R371, R376, R382: the clasp's commands. -/
def Obligations.ClaspCommands : Prop :=
  ∀ (i : Fin 512) (late : Bool) (out : Option (BitVec 6)) (v : BitVec 24) (o : Fin 36) (s : State),
    let elim := fun (p : Nat) => (notBlank (s.env p 7)).toInt
    let safe := fun (p : Nat) => notBlank (s.env p 4)
    let goal := fun (p : Nat) (g : Int) => if s.elimF p = true then min g (elim p) else g
    let step := fun (p : Nat) (g : Int) (r : Nat) =>
      let x := (s.clVal p).toInt
      if r = 0 then goal p g else x + max (-(r : Int)) (min r (goal p g - x))
    let still := fun (t : State) (p : Nat) => t.clVal p = s.clVal p ∧ t.clTgt p = s.clTgt p
    let rate := fun (a b : Nat) => if a = 0 then b else if b = 0 then a else min a b
    let bounds := fun (p : Nat) (sub : Option Nat) (w : Int) =>
      let mn := (s.env p 1).toInt
      let mx := (s.env p 2).toInt
      let lo := max mn ((sub.map (fun e => (s.subEnv e 1).toInt)).getD mn)
      let hi := min mx ((sub.map (fun e => (s.subEnv e 2).toInt)).getD mx)
      let g := if sub ≠ none ∧ hi < lo then mn else max lo (min hi w)
      (g, rate (s.env p 3).toNat ((sub.map (fun e => (s.subEnv e 3).toNat)).getD 0))
    let released := fun (t : State) (p : Nat) (sub : Option Nat) (w : Int) =>
      let b := bounds p sub w
      (t.clTgt p).toInt = b.1 ∧ (t.clVal p).toInt = step p b.1 b.2 ∧ t.fl (Reg.CL_oSTAT p) Reg.CL_oSTAT_WDOGF = 0 ∧
        (∀ q < 36, q ≠ p → still t q) ∧ t.rd Reg.CL_REFCNT = s.rd Reg.CL_REFCNT
    let targeted := fun (t : State) (p : Nat) (sub : Option Nat) (w : Int) =>
      let b := bounds p sub w
      t.clVal p = s.clVal p ∧ (t.clTgt p).toInt = step p b.1 b.2 ∧ (∀ q < 36, q ≠ p → still t q) ∧ t.rd Reg.CL_REFCNT = s.rd Reg.CL_REFCNT
    let refused := fun (t : State) (reason cid p : Nat) =>
      t.rd Reg.CL_REFCNT = BitVec.ofNat 24 (satInc (s.rd Reg.CL_REFCNT).toNat 0xFFFFFF) ∧
      t.rd (Reg.CL_LOGAi (s.fl Reg.CL_LOGHEAD Reg.CL_LOGHEAD_HEAD)) = BitVec.ofNat 24 (2 ^ 23 + reason * 2 ^ 20 + cid % 1024 * 2 ^ 10 + p % 64) ∧
      (∀ q < 36, still t q) ∧ t.act.held = s.act.held ∧ (s.pwr.state < 2 → ∃ l, t.ev.router = l ++ [0x310])
    let granted := fun (cid p : Nat) => cid = 0 ∨
      ∃ e, s.grantOf cid p = some e ∧ (s.env p 0).getLsbD 22 = true ∧ (s.subEnv e 0).getLsbD 23 = true
    let evaluated := fun (t : State) (cid p : Nat) (w : Word) (lt : Bool) =>
      let free := w ≠ 0x800000 ∧ granted cid p
      (w = 0x800000 → refused t 4 cid p) ∧
      (w ≠ 0x800000 → ¬ granted cid p → refused t 0 cid p) ∧
      (free → 35 < p → refused t 2 cid p) ∧
      (free → p ≤ 35 → s.armed p = false → refused t 1 cid p) ∧
      (free → p ≤ 35 → s.armed p = true → s.forced p = true → refused t 3 cid p) ∧
      (free → p ≤ 35 → s.armed p = true → s.forced p = false → s.shedO p = true → refused t 5 cid p) ∧
      (free → p ≤ 35 → s.armed p = true → s.forced p = false → s.shedO p = false → lt = true → refused t 6 cid p) ∧
      (free → p ≤ 35 → s.armed p = true → s.forced p = false → s.shedO p = false → lt = false → s.heldO p = false →
        released t p (if cid = 0 then none else s.grantOf cid p) w.toInt) ∧
      (free → p ≤ 35 → s.armed p = true → s.forced p = false → s.shedO p = false → lt = false → s.heldO p = true →
        s.fl (Reg.CL_HGRPj (s.envGrp p)) Reg.CL_HGRPj_RELCMD = 0 → targeted t p (if cid = 0 then none else s.grantOf cid p) w.toInt)
    (let p := match out with | some x => x.toNat | none => s.fl Reg.CL_KOUT Reg.CL_KOUT_OUT
     s.fl Reg.CL_BANK Reg.CL_BANK_PEND = 0 →
      Takes 2 (.keeperCommand out v) s (fun t => s.outside t ∧ t.rd Reg.CL_KVAL = v ∧ evaluated t 0 p v false)) ∧
    (∀ n y r, s.fl Reg.CL_BANK Reg.CL_BANK_PEND = 0 → s.fl (Reg.STR_sCFG i) Reg.STR_sCFG_EN = 1 →
      s.fl (Reg.STR_sCFG i) Reg.STR_sCFG_DST = 1 → (s.strand i).items = y :: r → (s.strand i).atHead = true →
      (s.strand i).waiting = [] → s.inletOf i = some n → s.inletTurn n = true →
      (let cid := s.fl (Reg.STR_sEP i) Reg.STR_sEP_PCID
       let f := getBits y.w 19 14
       let len := getBits y.w 6 0
       Takes 2 (.claspCommand i late) s (fun t => s.outside t ∧ (t.strand i).items = r ∧
        (s.fl (Reg.STR_sCFG i) Reg.STR_sCFG_FMT = 0 → evaluated t cid (s.fl (Reg.CL_INi n) Reg.CL_INi_OUT) y.w late) ∧
        (s.fl (Reg.STR_sCFG i) Reg.STR_sCFG_FMT = 1 → y.h = true → SMap.get none s.act.pk n = none → getBits y.w 22 20 = 4 →
          getBits y.w 13 7 = 0 → 1 ≤ len → len ≤ 8 → f + len ≤ 36 → (∀ q < 36, still t q) ∧
          SMap.get none t.act.pk n = some { first := f, len := len, got := 0, bad := false, group := [] })))) ∧
    (s.armed o = false → s.time.locked = true → s.envV o = true →
      Takes 2 (.arm o) s (fun t => s.outside t ∧ t.armed o = true ∧ t.clVal o = safe o ∧ t.clTgt o = safe o ∧ ∀ q < 36, q ≠ o.val → still t q ∧
        t.armed q = s.armed q)) ∧
    (s.armed o = true ∨ s.time.locked = false ∨ s.envV o = false → Takes 2 (.arm o) s (fun t => t = s)) ∧
    (s.armed o = true →
      Takes 2 (.disarm o) s (fun t => s.outside t ∧ t.armed o = false ∧ t.clVal o = safe o ∧ t.clTgt o = safe o ∧ ∀ q < 36, q ≠ o.val →
        still t q ∧ t.armed q = s.armed q)) ∧
    (s.fl Reg.CL_BANK Reg.CL_BANK_PEND = 0 → s.time.locked = true →
      Gives .claspTick s (fun t => s.outside t ∧
        (s.armed o = false ∨ s.heldO o = true ∨ s.forced o = true → still t o) ∧
        (s.armed o = true → s.heldO o = false → s.forced o = false → s.shedO o = false → s.time.dt.toNat / 1000 % 10 ≠ 0 →
          t.clTgt o = s.clTgt o ∧ (t.clVal o).toInt = step o (s.clTgt o).toInt (s.rateOf o (SMap.get none s.act.rsub o))) ∧
        (let e := SMap.get Energy.init s.act.energy o
         let bin := 100000 * max 1 (getBits (s.env o 6) 11 0)
         let q := (max (s.clVal o).toInt 0).toNat * 16 + e.rem
         s.time.dt.toNat / 1000 % 10 = 0 → s.time.dt.toNat / bin = s.act.eDt / bin → e.bins.length ≤ 16 →
          t.eInt o = s.eInt o + q / 2 ^ 23 ∧ (SMap.get Energy.init t.act.energy o).rem = q % 2 ^ 23 ∧
          t.rd (Reg.CL_oEINT o) = BitVec.ofNat 24 (min (t.eInt o) 0xFFFFFF)))) ∧
    (s.armed o = true → s.heldO o = false → s.forced o = false → getBits (s.env o 0) 15 0 ≠ 0 → SMap.get false s.act.wdx o = false →
      Gives (.refreshWatchdogExpiry o) s (fun t => s.outside t ∧ t.clVal o = safe o ∧ t.clTgt o = safe o ∧
        t.fl (Reg.CL_oSTAT o) Reg.CL_oSTAT_WDOGF = 1 ∧ (∀ q < 36, q ≠ o.val → still t q) ∧
        (s.pwr.state < 2 → ∃ l, t.ev.router = l ++ [0x311]))) ∧
    (s.env o 5 ≠ 0 → s.elimF o = false → (s.env o 5).toNat ≤ s.eInt o →
      Gives (.energyLimit o) s (fun t => s.outside t ∧ t.elimF o = true ∧ t.clTgt o = s.clTgt o ∧
        (s.armed o = true → s.heldO o = false → s.forced o = false → s.shedO o = false → (t.clVal o).toInt = min (s.clTgt o).toInt (elim o)) ∧
        (s.armed o = false ∨ s.heldO o = true ∨ s.forced o = true → t.clVal o = s.clVal o) ∧ (∀ q < 36, q ≠ o.val → still t q) ∧
        (s.pwr.state < 2 → ∃ l, t.ev.router = l ++ [0x312])))

/-- R20, R369, R374, R376–R378, R380, R383: the clasp's guards. -/
def Obligations.ClaspGuards : Prop :=
  ∀ (r : Fin 32) (j : Fin 8) (w : Fin 7168) (v : BitVec 24) (q : Fin 6) (expected : Bool) (s : State),
    let safe := fun (p : Nat) => notBlank (s.env p 4)
    let raised := fun (t : State) (ev : Nat) => s.pwr.state < 2 → ∃ l, t.ev.router = l ++ [ev]
    let bit := Reg.CL_RTRIP0 + r / 24
    let bank := s.fl Reg.CL_BANK Reg.CL_BANK_ACT
    let hold := fun (t : State) => t.fb Reg.CL_HOLD (bitF j)
    ((s.rule r).due = true → s.tripped r = false →
      Gives (.ruleTrip r) s (fun t => s.outside t ∧ t.tripped r = true ∧ (∀ n < 32, n ≠ r.val → t.tripped n = s.tripped n) ∧
        (∀ o < 36, s.ruleOut r o = true → (s.armed o = true ∨ s.envV o = true) → t.clVal o = safe o ∧ (s.heldO o = false → t.clTgt o = safe o) ∧
          (s.heldO o = true → t.clTgt o = s.clTgt o)) ∧
        (∀ o < 36, s.ruleOut r o = false ∨ (s.armed o = false ∧ s.envV o = false) → t.clVal o = s.clVal o ∧ t.clTgt o = s.clTgt o) ∧
        ((s.ruleW r 0).getLsbD 22 = true → (t.rd (Reg.CL_RLAT0 + r / 24)).getLsbD (r % 24) = true) ∧ raised t (0x2F0 + r))) ∧
    (s.tripped r = true → max 1 (getBits (s.ruleW r 0) 7 0) ≤ (s.rule r).rrun →
      ((s.ruleW r 0).getLsbD 22 = false ∨ (s.rd (Reg.CL_RLAT0 + r / 24)).getLsbD (r % 24) = false) →
      Gives (.ruleRelease r) s (fun t => s.outside t ∧ t.tripped r = false ∧ s.regsBut t [bit] ∧ (t.rule r).rrun = 0 ∧
        (∀ o < 36, s.ruleOut r o = true → t.forced o = false → SMap.get false t.act.wdx o = false) ∧ t.ev = s.ev)) ∧
    Takes 2 (.claspHoldSet j) s (fun t => s.outside t ∧ hold t = true ∧ s.regsBut t [Reg.CL_HOLD] ∧ t.act = s.act ∧ t.ev = s.ev) ∧
    (hold s = true → Takes 2 (.claspHoldRelease j) s (fun t => s.outside t ∧ hold t = false ∧ ∀ o < 36,
      (s.envGrp o = j → s.armed o = true → s.forced o = false → s.shedO o = false → s.elimF o = false →
        s.rateOf o (SMap.get none s.act.rsub o) = 0 → t.clVal o = s.clTgt o ∧ t.clTgt o = s.clTgt o) ∧
      (s.envGrp o = j → s.armed o = true → s.forced o = true → t.clVal o = s.clVal o ∧ t.clTgt o = s.clVal o) ∧
      (s.envGrp o = j → s.armed o = true → s.forced o = false → s.shedO o = true → t.clVal o = s.clVal o ∧ t.clTgt o = s.clTgt o) ∧
      (s.envGrp o ≠ j ∨ s.armed o = false → t.clVal o = s.clVal o ∧ t.clTgt o = s.clTgt o))) ∧
    (hold s = true → Gives (.claspHoldTimeout j) s (fun t => s.outside t ∧ hold t = false ∧ t.fb Reg.CL_HOLD (bitF (8 + j)) = true ∧
      (∀ o < 36, s.envGrp o = j → s.armed o = true → t.clVal o = safe o ∧ t.clTgt o = safe o) ∧
      (∀ o < 36, s.envGrp o ≠ j ∨ s.armed o = false → t.clVal o = s.clVal o ∧ t.clTgt o = s.clTgt o) ∧ raised t 0x313)) ∧
    Takes 2 .claspSwapRequest s (fun t => s.outside t ∧ t.fl Reg.CL_BANK Reg.CL_BANK_PEND = 1 ∧ t.fl Reg.CL_BANK Reg.CL_BANK_ACT = bank ∧
      s.regsBut t [Reg.CL_BANK] ∧ t.act = s.act ∧ t.ev = s.ev) ∧
    (s.fl Reg.CL_BANK Reg.CL_BANK_PEND = 1 → Gives .claspSwap s (fun t => s.outside t ∧ t.fl Reg.CL_BANK Reg.CL_BANK_PEND = 0 ∧
      t.fl Reg.CL_BANK Reg.CL_BANK_ACT = 1 - bank ∧ raised t 0x314 ∧ ∀ o < 36,
        (t.envV o = true → s.armed o = true → t.armed o = true ∧ t.clVal o = s.clVal o ∧ t.clTgt o = s.clTgt o) ∧
        (t.envV o = true → s.armed o = false → t.armed o = false ∧ t.clVal o = notBlank (t.env o 4)) ∧
        (t.envV o = false → s.armed o = true → t.armed o = false ∧ t.clVal o = if o < 12 then 0xFFFFFF else 0))) ∧
    (let fields := tabMask (w % 0x1000)
     fields ≠ 0 →
      (w / 0x1000 = bank ∨ s.fl Reg.CL_BANK Reg.CL_BANK_PEND = 1 → Takes 2 (.claspWref w v) s (fun t => s.outside t ∧
        t.rd Reg.CL_WREFCNT = BitVec.ofNat 24 (satInc (s.rd Reg.CL_WREFCNT).toNat 0xFFFFFF) ∧ s.regsBut t [Reg.CL_WREFCNT] ∧ t.act = s.act ∧
        raised t 0x315)) ∧
      (w / 0x1000 ≠ bank → s.fl Reg.CL_BANK Reg.CL_BANK_PEND = 0 → Takes 2 (.claspWref w v) s (fun t => s.outside t ∧
        t.rd (Reg.CL_TABw w) = v &&& fields ∧ s.regsBut t [Reg.CL_TABw w] ∧ t.act = s.act ∧ t.ev = s.ev))) ∧
    (let l := (s.act.held.filter (fun x => decide (outQueue x.1 = 64 + q.val))).take (if q.val < 4 then 3 else 1)
     s.fqFull (64 + q) = false → (s.act.held.map (fun x => x.1)).Nodup →
      Gives (.claspBridgeQueueWrite q) s (fun t => s.outside t ∧ t.act.held = s.act.held.filter (fun x => decide (x ∉ l)) ∧
        (s.islandRuns (if q.val < 4 then 5 else 0) = false →
          SMap.get [] t.act.fq (64 + q) = SMap.get [] s.act.fq (64 + q) ++ l ∧ ∀ a, t.rd a = s.rd a))) ∧
    (s.fqFull (64 + q) = true → Gives (.claspBridgeQueueWrite q) s (fun t => t = s)) ∧
    (s.flt.hb = none → Gives .heartbeatLoss s (fun t => s.outside t ∧ t.flt.hb = some s.time.dt.toNat ∧
      (∀ b < 4, ∀ p < 3, t.phaseOut b p = .off) ∧ (∀ c < 16, t.solOut c = (0, 0)) ∧ (∀ o < 8, t.ssrOut o = (false, none)) ∧ t.ev = s.ev)) ∧
    (∀ t0, s.flt.hb = some t0 → Gives (.heartbeatResume expected) s (fun t => t.mem = s.mem ∧ t.thr = s.thr ∧ t.eng = s.eng ∧
      t.flt.hb = none ∧ (∀ o < 36, t.armed o = false) ∧ (∀ o < 36, s.armed o = true → t.clVal o = safe o) ∧
      (expected = true → raised t 0x316) ∧
      (expected = false → t.fl Reg.FLT_CNT0 Reg.FLT_CNT0_HB = satInc (s.fl Reg.FLT_CNT0 Reg.FLT_CNT0_HB) Reg.FLT_CNT0_HB.max)))

/-- R403, R406–R412, R423, R492. Source states: 0 OK, 1 WATCH, 2 OUT, 3 ABSENT; offsets in units of 0.01 ppm. -/
def Obligations.TimeBase : Prop :=
  ∀ (seen : BitVec 3) (c0 c1 c2 : BitVec 32) (awu v : BitVec 24) (k : Fin 3) (s : State),
    let st := fun (t : State) (j : Nat) => getBits (t.rd Reg.REF_TBSTAT) (2 * j + 1) (2 * j)
    let oc := fun (t : State) (j : Nat) => getBits (t.rd Reg.REF_TBSTAT) (2 * j + 9) (2 * j + 8)
    let sel := fun (t : State) => t.fl Reg.REF_TBSTAT Reg.REF_TBSTAT_SEL
    let cyc : Nat → Nat := fun j => if j = 0 then c0.toNat else if j = 1 then c1.toNat else c2.toNat
    let mhz : Nat → Nat := fun j => if j = 1 ∧ s.fl Reg.REF_TBCTL Reg.REF_TBCTL_EXTF = 0 then 10 else 25
    let may := fun (i : Nat) => decide (i ≠ k.val) && decide (st s i ≤ 1) && !s.time.late.contains i
    let tol : Nat → Nat := fun j => if j = 2 then 1000000 else 5000
    let raised := fun (t : State) (e : Nat) => s.pwr.state < 2 → e ∈ t.ev.crossing
    let rem := (s.rd Reg.TIME_SLEWREM).toInt
    (s.time.locked = false → Gives .tpllLock s (fun t => s.outside t ∧ t.time.locked = true ∧ t.fl Reg.TIME_STAT Reg.TIME_STAT_LOCK = 1 ∧
      t.time.dt = s.time.dt ∧ t.time.dtx = s.time.dtx ∧ (∀ q < 6, SMap.get [] t.act.fq (64 + q) = []))) ∧
    (∀ k0 j r, s.islandRuns 0 = true → s.time.winDue = true → (∀ i < 3, st s i < 3) → rankOf (s.rd Reg.REF_TBCTL) = k0 :: r →
      r.find? (fun i => decide (i ≠ k0) && decide (st s i ≤ 1) && seen.getLsbD i) = some j → st s k0 < 2 →
      (let off := tbOffset (cyc k0) (mhz k0) (cyc j) (mhz j)
       let m := off.toInt.natAbs
       let t0 := max (tol k0) (tol j)
       let c := if t0 < m then min 3 (oc s k0 + 1) else 0
       Gives (.windowEnd seen c0 c1 c2 awu) s (fun t => s.outside t ∧ t.time.winDue = false ∧ t.time.tbctl = s.rd Reg.REF_TBCTL ∧ t.rd Reg.REF_AWUCAL = awu ∧
        raised t 0x085 ∧ t.rd (Reg.REF_OFSk k0) = off ∧ oc t k0 = c ∧ t.time.dt = s.time.dt ∧
        (c = 3 → st t k0 = 2 ∧ raised t 0x081) ∧
        (c ≠ 3 → st s k0 = 0 → st t k0 = if 7 * t0 < 10 * m then 1 else 0) ∧
        (c ≠ 3 → st s k0 = 1 → st t k0 = if 10 * m ≤ 6 * t0 then 0 else 1)))) ∧
    (s.islandRuns 0 = false ∨ s.time.winDue = false → Gives (.windowEnd seen c0 c1 c2 awu) s (fun t => t = s)) ∧
    (st s k ≠ 3 → sel s < 3 → s.pwr.state < 2 → Gives (.tbAbsent k) s (fun t => s.outside t ∧ st t k = 3 ∧ oc t k = 0 ∧ raised t 0x083 ∧
      (∀ i < 3, i ≠ k.val → st t i = st s i) ∧ t.time.dt = s.time.dt ∧ (sel s ≠ k → sel t = sel s) ∧
      (∀ i, sel s = k → (rankOf s.time.tbctl).find? may = some i → sel t = i ∧
        t.fl Reg.REF_TBSTAT Reg.REF_TBSTAT_HOLDOVER = 0 ∧ raised t 0x082) ∧
      (sel s = k → (rankOf s.time.tbctl).find? may = none → sel t = sel s ∧
        t.fl Reg.REF_TBSTAT Reg.REF_TBSTAT_HOLDOVER = 1))) ∧
    (s.islandRuns 0 = true → Gives (.tbStateWrite v) s (fun t => s.outside t ∧ t.time.dt = s.time.dt ∧ ∀ i < 3,
      (getBits v (2 * i + 1) (2 * i) = 0 → st s i = 2 → st t i = 0 ∧ oc t i = 0) ∧
      (st s i = 3 → st t i = 3) ∧
      (getBits v (2 * i + 1) (2 * i) = 2 → st s i ≠ 3 → st t i = 2 ∧ (st s i ≠ 2 → 0x081 ∈ t.ev.crossing)) ∧
      (getBits v (2 * i + 1) (2 * i) ≠ 2 → (getBits v (2 * i + 1) (2 * i) = 0 → st s i ≠ 2) → st t i = st s i))) ∧
    (s.islandRuns 0 = true → Gives (.timeSlew v) s (fun t => s.outside t ∧ t.time = { s.time with hist := t.time.hist } ∧
      s.regsBut t [Reg.TIME_SLEWREM, Reg.TIME_STAT] ∧
      (s.follows = false → (t.rd Reg.TIME_SLEWREM).toInt = clamp 0x7FFFFF (rem + v.toInt)) ∧
      (s.follows = true → t.rd Reg.TIME_SLEWREM = s.rd Reg.TIME_SLEWREM))) ∧
    (s.islandRuns 0 = true → s.slewDue = true → s.settleTick = s → (∀ n ∈ s.tcs, n < 64) →
      Gives .slewAdjustment s (fun t => t.mem = s.mem ∧ t.eng = s.eng ∧ (∀ j, (t.th j).ctx = (s.th j).ctx) ∧ t.time.ticks = s.time.ticks + 1 ∧
      (0 < rem → (t.rd Reg.TIME_SLEWREM).toInt = rem - 1 ∧ t.time.dt = s.time.dt + 2 ∧
        t.time.dtx = if 2 ^ 48 ≤ s.time.dt.toNat + 2 then s.time.dtx + 1 else s.time.dtx) ∧
      (rem < 0 → (t.rd Reg.TIME_SLEWREM).toInt = rem + 1 ∧ t.time.dt = s.time.dt ∧ t.time.dtx = s.time.dtx))) ∧
    (s.slewDue = false → Gives .slewAdjustment s (fun t => t = s))

/-- R405, R414–R420: the timer channels. -/
def Obligations.TimerChannels : Prop :=
  ∀ (n : Fin 64) (v : BitVec 24) (rise : Bool) (who : Who) (s : State),
    let cfg := fun (t : State) (m : Nat) (f : Fld) => t.fl (Reg.TCn_CFG m) f
    let st := Reg.TCn_STAT n
    let cmp := s.rd (Reg.TCn_CMP n)
    let m := (n.val + 1) % 64
    let feeds := cfg s m Reg.TCn_CFG_CSEL = 20
    let others := fun (t : State) => ∀ m, m ≠ n.val → t.tc m = s.tc m
    let only := fun (t : State) => s.outside t ∧ others t ∧ t.time.dt = s.time.dt ∧ t.act = s.act ∧ t.meas = s.meas ∧ t.comm = s.comm
    let captured := fun (t : State) => only t ∧ (t.tc n).run = (s.tc n).run ∧ t.rd (Reg.TCn_CNT n) = s.rd (Reg.TCn_CNT n) ∧
      (cfg s n Reg.TCn_CFG_CAPDT = 0 → t.rd (Reg.TCn_CAP n) = s.rd (Reg.TCn_CNT n) ∧ (t.tc n).cap? = none) ∧
      (cfg s n Reg.TCn_CFG_CAPDT = 1 → t.rd (Reg.TCn_CAP n) = BitVec.ofNat 24 s.time.dt.toNat ∧ (t.tc n).cap? = some s.time.dt.toNat) ∧
      t.fl st Reg.TCn_STAT_CAPV = 1 ∧ (s.fl st Reg.TCn_STAT_CAPV = 1 → t.fl st Reg.TCn_STAT_CAPLOST = 1) ∧
      t.fl st Reg.TCn_STAT_TQ = s.fl Reg.TIME_STAT Reg.TIME_STAT_TQ ∧ (0x0E0 + n.val) ∈ t.ev.crossing
    let started := fun (t : State) (g : Nat) => ∀ m < 64,
      if cfg s m Reg.TCn_CFG_EN = 1 ∧ cfg s m Reg.TCn_CFG_STG = 1 ∧ (s.tc m).run = false ∧ g.testBit (cfg s m Reg.TCn_CFG_GRP) = true then
        t.tc m = { s.tc m with run := true, phase := 0 } ∧ t.fl (Reg.TCn_STAT m) Reg.TCn_STAT_RUN = 1 else t.tc m = s.tc m
    let grp := getF v Reg.TIME_GSTART_GRP
    s.islandRuns 0 = true →
    (cfg s n Reg.TCn_CFG_EN = 1 → cfg s n Reg.TCn_CFG_STG = 0 → (s.tc n).run = false →
      Gives (.timerStart n) s (fun t => only t ∧ t.tc n = { s.tc n with run := true, phase := 0 } ∧ t.fl st Reg.TCn_STAT_RUN = 1 ∧
        s.regsBut t [st] ∧ t.ev = s.ev)) ∧
    ((s.tc n).due = true →
      Gives (.timerMatch n) s (fun t => s.outside t ∧ (∀ j, j ≠ n.val → j ≠ m ∨ ¬ feeds → t.tc j = s.tc j) ∧ t.time.dt = s.time.dt ∧
        t.act = s.act ∧ t.meas = s.meas ∧ t.comm = s.comm ∧ t.rd (Reg.TCn_CNT n) = s.rd (Reg.TCn_CNT n) ∧ t.rd (Reg.TCn_CMP n) = cmp + s.rd (Reg.TCn_INT n) ∧
        t.fl st Reg.TCn_STAT_CMPF = 1 ∧ (0x0A0 + n.val) ∈ t.ev.crossing ∧
        (cfg s n Reg.TCn_CFG_ONE = 1 → cfg t n Reg.TCn_CFG_EN = 0 ∧ (t.tc n).run = false) ∧
        (cfg s n Reg.TCn_CFG_ONE = 0 → t.rd (Reg.TCn_CFG n) = s.rd (Reg.TCn_CFG n) ∧ t.tc n = { s.tc n with due := false }) ∧
        (feeds → cfg s m Reg.TCn_CFG_EN = 1 → cfg s m Reg.TCn_CFG_CEDGE ≠ 0 →
          t.fl (Reg.TCn_STAT m) Reg.TCn_STAT_CAPV = 1 ∧ (0x0E0 + m) ∈ t.ev.crossing))) ∧
    ((s.tc n).due = false → Gives (.timerMatch n) s (fun t => t = s)) ∧
    (cfg s n Reg.TCn_CFG_EN = 1 → cfg s n Reg.TCn_CFG_CEDGE ≠ 0 →
      (11 ≤ cfg s n Reg.TCn_CFG_CSEL → cfg s n Reg.TCn_CFG_CSEL ≤ 14 → (cfg s n Reg.TCn_CFG_CEDGE).testBit (if rise then 0 else 1) = true →
        Gives (.timerCapture n rise) s captured) ∧
      (cfg s n Reg.TCn_CFG_CSEL = 21 → Gives (.swcap n) s captured)) ∧
    (cfg s n Reg.TCn_CFG_CSEL ≠ 21 → Gives (.swcap n) s (fun t => t = s)) ∧
    ((cfg s n Reg.TCn_CFG_CEDGE).testBit (if rise then 0 else 1) = false → Gives (.timerCapture n rise) s (fun t => t = s)) ∧
    Gives (.captureRead who n) s (fun t => only t ∧ t.tc n = s.tc n ∧ t.fl st Reg.TCn_STAT_CAPV = 0 ∧ s.regsBut t [st] ∧ t.ev = s.ev ∧
      ((s.tc n).cap? = none → t.rdata = s.rd (Reg.TCn_CAP n)) ∧
      (∀ d, (s.tc n).cap? = some d →
        match who with
        | .thread k => ((s.th k).bind.prv = true → t.rdata = BitVec.ofNat 24 d) ∧
            ((s.th k).bind.prv = false → t.rdata = BitVec.ofNat 24 (d - d % s.tgran (s.th k).bind.cid))
        | _ => t.rdata = BitVec.ofNat 24 d)) ∧
    (grp = 0 → Gives (.gstart v) s (fun t => s.outside t ∧ t.time = { s.time with gpend := none } ∧ s.regsBut t [Reg.TIME_STAT])) ∧
    (grp ≠ 0 → v.getLsbD 23 = true → Gives (.gstart v) s (fun t => s.outside t ∧ t.time = { s.time with gpend := some grp } ∧
      s.regsBut t [Reg.TIME_STAT] ∧ t.fl Reg.TIME_STAT Reg.TIME_STAT_GPEND = 1)) ∧
    (grp ≠ 0 → v.getLsbD 23 = false → Gives (.gstart v) s (fun t => s.outside t ∧ t.time.gpend = none ∧ started t grp ∧
      t.time.dt = s.time.dt ∧ t.ev = s.ev)) ∧
    (∀ g, s.time.gpend = some g → reached s.time.dt (mkPair (s.rd Reg.TIME_GSATL) (s.rd Reg.TIME_GSATH)) = true → Gives .timedGlobalStart s (fun t => s.outside t ∧ t.time.gpend = none ∧ started t g ∧
      t.time.dt = s.time.dt ∧ t.ev = s.ev))

/-- R429–R433: the Ethernet MAC. -/
def Obligations.Ethernet : Prop :=
  ∀ (ws : List (BitVec 24)) (len : BitVec 12) (fcs err up : Bool) (age : BitVec 18) (cause : BitVec 3) (v w0 w1 : BitVec 24)
    (data : BitVec 16) (s : State),
    let ctl := fun (f : Fld) => s.fl Reg.ETH_CTL f
    let may := fun (a : Nat) => sramRegion a = true ∧ s.closed a = false
    let rxi := s.fl Reg.ETH_STAT Reg.ETH_STAT_RXIDX
    let txi := s.fl Reg.ETH_STAT Reg.ETH_STAT_TXIDX
    let dr := 128 * s.fl (Reg.ETH_RBASEd 1) Reg.ETH_RBASEd_BASE + 4 * rxi
    let dt := 128 * s.fl (Reg.ETH_RBASEd 0) Reg.ETH_RBASEd_BASE + 4 * txi
    let next := fun (d i : Nat) => if s.fl (Reg.ETH_RBASEd d) Reg.ETH_RBASEd_N ≤ i then 0 else i + 1
    let n := (len.toNat - 2) / 3
    let stamp := s.time.dt - BitVec.ofNat 48 age.toNat
    let lo : Word := stamp.extractLsb' 0 24
    let hi : Word := stamp.extractLsb' 24 24
    let own := w0.getLsbD 23
    let status := fun (c l : Nat) =>
      (BitVec.ofNat 24 (b2n (decide (c ≠ 0)) * 2 ^ 21 + c * 2 ^ 18 + s.tqAt age.toNat * 2 ^ 16 + l) : Word)
    let other := fun (t : State) => s.sameThr t ∧ t.bz = s.bz ∧ t.pending = s.pending ∧ t.act = s.act ∧ t.meas = s.meas ∧ t.time = s.time
    let accepted := ctl Reg.ETH_CTL_EN = 1 ∧ ctl Reg.ETH_CTL_RXEN = 1 ∧ s.ethMon = false ∧ s.shedFrom age.toNat = false ∧ fcs = true ∧ 64 ≤ len.toNat ∧ len.toNat ≤ 1518 ∧
      s.ethForMe ws = true
    let described := fun (d : Nat) => (∀ i < 4, may (d + i)) ∧ s.cell d = .good w0 ∧ s.cell (d + 1) = .good w1
    s.islandRuns 1 = true →
    (accepted → described dr → own = true → (∀ i < n, may (w1.toNat + i)) → (w1.toNat + n ≤ dr ∨ dr + 4 ≤ w1.toNat) →
      sramRegion w1.toNat = true →
      Takes 6 (.ethReceive ws len fcs err age) s (fun t => other t ∧ t.comm = s.comm ∧
        t.cell dr = .good (status (if err then 3 else 0) (len.toNat - 4)) ∧ t.cell (dr + 2) = .good lo ∧ t.cell (dr + 3) = .good hi ∧
        (∀ i x, i < n → ws[i]? = some x → t.cell (w1.toNat + i) = .good x) ∧
        (∀ a, a ≠ dr → a ≠ dr + 2 → a ≠ dr + 3 → (a < w1.toNat ∨ w1.toNat + n ≤ a) → t.cell a = s.cell a) ∧
        t.fl Reg.ETH_STAT Reg.ETH_STAT_RXIDX = next 1 rxi ∧ 0x370 ∈ t.ev.crossing ∧ (err = true → 0x373 ∈ t.ev.crossing))) ∧
    (accepted → described dr → own = false → Takes 6 (.ethReceive ws len fcs err age) s (fun t => other t ∧ s.sameMem t ∧ t.comm = s.comm ∧
      t.fl Reg.ETH_CNT Reg.ETH_CNT_RXDROP = satInc (s.fl Reg.ETH_CNT Reg.ETH_CNT_RXDROP) Reg.ETH_CNT_RXDROP.max ∧ 0x373 ∈ t.ev.crossing)) ∧
    (ctl Reg.ETH_CTL_EN = 1 → ctl Reg.ETH_CTL_RXEN = 1 → s.ethMon = false → s.shedFrom age.toNat = false → fcs = false →
      Takes 6 (.ethReceive ws len fcs err age) s (fun t => s.outside t ∧ s.regsBut t [Reg.ETH_CNT] ∧ t.ev = s.ev ∧
        t.fl Reg.ETH_CNT Reg.ETH_CNT_CRCERR = satInc (s.fl Reg.ETH_CNT Reg.ETH_CNT_CRCERR) Reg.ETH_CNT_CRCERR.max)) ∧
    (∀ x, s.comm.ethTx = some x → x.bad = false → (∀ i < 4, may (dt + i)) → ctl Reg.ETH_CTL_TXEN = 0 →
      Gives (.ethTransmitDone cause age) s (fun t => other t ∧ t.comm = { s.comm with ethTx := none } ∧
        t.cell dt = .good (status cause.toNat (getBits x.w0 10 0)) ∧ t.cell (dt + 2) = .good lo ∧ t.cell (dt + 3) = .good hi ∧
        (∀ a, a ≠ dt → a ≠ dt + 2 → a ≠ dt + 3 → t.cell a = s.cell a) ∧ t.fl Reg.ETH_STAT Reg.ETH_STAT_TXACT = 0 ∧
        t.fl Reg.ETH_STAT Reg.ETH_STAT_TXIDX = next 0 txi ∧ 0x371 ∈ t.ev.crossing ∧ (cause ≠ 0 → 0x373 ∈ t.ev.crossing))) ∧
    (∀ f : Nat → Word, ctl Reg.ETH_CTL_EN = 1 → ctl Reg.ETH_CTL_TXEN = 1 → s.ethHold = false → s.comm.ethTx = none → described dt →
      (let m := (getBits w0 10 0 + 2) / 3
       (∀ i < m, may (w1.toNat + i) ∧ s.cell (w1.toNat + i) = .good (f i)) →
       Takes 6 .txpoll s (fun t => other t ∧ s.sameMem t ∧ t.ev = s.ev ∧
        (own = false → t.comm = s.comm ∧ s.regsBut t [Reg.MEMC_OVF]) ∧
        (own = true → t.comm = { s.comm with ethTx := some { w0 := w0, words := (List.range m).map f, bad := false } } ∧
          t.fl Reg.ETH_STAT Reg.ETH_STAT_TXACT = 1 ∧ s.regsBut t [Reg.ETH_STAT, Reg.MEMC_OVF])))) ∧
    (s.comm.mdio = none → Takes 6 (.mdioAccess v data) s (fun t => s.outside t ∧ t.rd Reg.ETH_MDC = v &&& 0xFFF000 ∧
      s.regsBut t [Reg.ETH_MDC] ∧ t.ev = s.ev ∧
      t.comm = { s.comm with mdio := if v.getLsbD 23 then some (2560, BitVec.ofNat 24 data.toNat) else none })) ∧
    (∀ n w, s.comm.mdio = some (n, w) → Takes 6 (.mdioAccess v data) s (fun t => t = s) ∧
      (s.ethHold = false →
        (1 < n → s.mdioTick = { s with comm := { s.comm with mdio := some (n - 1, w) } }) ∧
        (n ≤ 1 → s.mdioTick.comm.mdio = none ∧ s.mdioTick.fl Reg.ETH_MDC Reg.ETH_MDC_GO = 0 ∧
          s.mdioTick.rd Reg.ETH_MDD = if s.fl Reg.ETH_MDC Reg.ETH_MDC_WR = 1 then s.rd Reg.ETH_MDD else w))) ∧
    (s.ethHold = false → ctl Reg.ETH_CTL_EN = 1 → ctl Reg.ETH_CTL_LPOLL = 1 →
      Gives (.linkPoll up) s (fun t => s.outside t ∧ t.fl Reg.ETH_STAT Reg.ETH_STAT_LINK = b2n up ∧ t.comm = s.comm ∧
        (s.fl Reg.ETH_STAT Reg.ETH_STAT_LINK ≠ b2n up → 0x372 ∈ t.ev.crossing) ∧
        (s.fl Reg.ETH_STAT Reg.ETH_STAT_LINK = b2n up → t = s)))

/-- R428, R429, R436–R439: CAN controller `c`. -/
def Obligations.CanControllers : Prop :=
  ∀ (c : Fin 2) (w0 w1 v : BitVec 24) (data : List (BitVec 24)) (err : BitVec 4) (age : BitVec 18) (how : Fin 4) (onBus : Bool) (s : State),
    let ctl := fun (f : Fld) => s.fl (Reg.CANc_CTL c) f
    let st := fun (t : State) (f : Fld) => t.fl (Reg.CANc_STAT c) f
    let x := s.can c
    let active := ctl Reg.CANc_CTL_EN = 1 ∧ (c = 0 → s.shedFrom age.toNat = false) ∧ st s Reg.CANc_STAT_STATE ≠ 2
    let only := fun (t : State) => s.outside t ∧ (∀ d, d ≠ c.val → t.can d = s.can d) ∧ t.time = s.time ∧ t.act = s.act
    let raised := fun (t : State) (e : Nat) => e + 4 * c.val ∈ t.ev.crossing
    let confined := fun (t : State) => st t Reg.CANc_STAT_STATE =
      if 128 ≤ st t Reg.CANc_STAT_TEC ∨ 128 ≤ st t Reg.CANc_STAT_REC then 1 else 0
    s.islandRuns 2 = true →
    (active → err ≠ 0 → Takes (7 + c) (.canReceive c (w0 :: w1 :: data) err age) s (fun t => only t ∧ t.can c = x ∧
      st t Reg.CANc_STAT_REC = min 255 (st s Reg.CANc_STAT_REC + err.toNat) ∧ st t Reg.CANc_STAT_TEC = st s Reg.CANc_STAT_TEC ∧ confined t)) ∧
    (active → err = 0 → st s Reg.CANc_STAT_REC < 128 → Takes (7 + c) (.canReceive c (w0 :: w1 :: data) err age) s (fun t => only t ∧
      st t Reg.CANc_STAT_REC = st s Reg.CANc_STAT_REC - 1 ∧
      (s.canFilter c w0 w1 = none → t.can c = x) ∧
      (∀ k, s.canFilter c w0 w1 = some k → x.rx.length < 32 → (∃ h : Word, getBits h 14 10 = k % 32 ∧ getBits h 23 15 = getBits w0 23 15 ∧
        getBits h 4 0 = getBits w0 4 0 ∧ getBits h 9 8 = s.tqAt age.toNat % 4 ∧
        t.can c = { x with rx := x.rx ++ [[h, w1] ++ data.take ((canBytes w0 + 2) / 3) ++
          [(s.time.dt - BitVec.ofNat 48 age.toNat).extractLsb' 0 24]] }) ∧ (x.rx = [] → raised t 0x378)) ∧
      (∀ k, s.canFilter c w0 w1 = some k → 32 ≤ x.rx.length → t.can c = x ∧ st t Reg.CANc_STAT_RXOVF = 1 ∧ raised t 0x37A ∧
        t.fl (Reg.CANc_CNT c) Reg.CANc_CNT_RXDROP = satInc (s.fl (Reg.CANc_CNT c) Reg.CANc_CNT_RXDROP) Reg.CANc_CNT_RXDROP.max))) ∧
    (let part := x.part ++ [v]
     let h := part.getD 0 0
     let whole := canWords h ≤ part.length
     let bad := h.getLsbD 21 = true ∧ ctl Reg.CANc_CTL_FDEN = 0 ∨ h.getLsbD 21 = false ∧ (h.getLsbD 20 = true ∨ h.getLsbD 19 = true) ∨
      8 ≤ x.tx.length
     Takes (7 + c) (.canFifoWrite c v) s (fun t => only t ∧ (¬ whole → t.can c = { x with part := part }) ∧
      (whole → ¬ bad → t.can c = { x with part := [], tx := x.tx ++ [part] }) ∧
      (whole → bad → t.can c = { x with part := [] } ∧ st t Reg.CANc_STAT_BADF = 1 ∧ raised t 0x37A))) ∧
    (∀ w f r, x.rx = (w :: f) :: r → Takes (7 + c) (.canFifoRead c) s (fun t => only t ∧ t.rdata = w ∧
      t.can c = { x with rx := if f = [] then r else f :: r } ∧ t.ev = s.ev)) ∧
    (x.rx = [] → Takes (7 + c) (.canFifoRead c) s (fun t => only t ∧ t.rdata = 0x800000 ∧ t.can c = x ∧ t.regs = s.regs ∧ t.ev = s.ev)) ∧
    (∀ f r, active → ctl Reg.CANc_CTL_LOM = 0 → s.canMon c = false → x.tx = f :: r → x.abort = false →
      Takes (7 + c) (.canTransmitDone c how age) s (fun t => only t ∧
        (how = 0 → t.can c = { x with tx := r } ∧ st t Reg.CANc_STAT_TEC = st s Reg.CANc_STAT_TEC - 1 ∧
          (r = [] → raised t 0x379)) ∧
        (how = 1 ∨ how = 3 → t = s) ∧
        (how = 2 → st s Reg.CANc_STAT_TEC + 8 < 256 → t.can c = x ∧ st t Reg.CANc_STAT_TEC = st s Reg.CANc_STAT_TEC + 8 ∧ confined t) ∧
        (how = 2 → 256 ≤ st s Reg.CANc_STAT_TEC + 8 → t.can c = x ∧ st t Reg.CANc_STAT_STATE = 2 ∧ raised t 0x37A))) ∧
    (∀ f r, ctl Reg.CANc_CTL_TXTO ≠ 0 → x.tx = f :: r → Gives (.canTxTimeout c) s (fun t => only t ∧ t.can c = { x with tx := r } ∧
      st t Reg.CANc_STAT_TXTOF = 1 ∧ raised t 0x37B)) ∧
    (onBus = false ∨ x.tx = [] → Takes (7 + c) (.canAbort c onBus) s (fun t => only t ∧ t.can c = { x with tx := [] } ∧
      (x.tx ≠ [] → raised t 0x379))) ∧
    (onBus = true → x.tx ≠ [] → Takes (7 + c) (.canAbort c onBus) s (fun t => only t ∧ t.can c = { x with abort := true } ∧ t.ev = s.ev)) ∧
    (st s Reg.CANc_STAT_STATE = 2 → Takes (7 + c) (.canRecover c) s (fun t => only t ∧ t.can c = { x with recov := true } ∧ t.ev = s.ev)) ∧
    (st s Reg.CANc_STAT_STATE ≠ 2 → Takes (7 + c) (.canRecover c) s (fun t => t = s)) ∧
    (st s Reg.CANc_STAT_STATE = 2 → ctl Reg.CANc_CTL_ABOR = 1 ∨ x.recov = true → Gives (.canBusOffRecovery c) s (fun t => only t ∧
      st t Reg.CANc_STAT_STATE = 0 ∧ st t Reg.CANc_STAT_TEC = 0 ∧ st t Reg.CANc_STAT_REC = 0 ∧ t.can c = { x with recov := false } ∧
      raised t 0x37A))

/-- R429, R441–R443: UART `u` and SPI controller `i`. -/
def Obligations.UartsAndSpi : Prop :=
  ∀ (u : Fin 4) (i : Fin 2) (byte : BitVec 8) (pe fe brk : Bool) (v : BitVec 24) (s : State),
    let uc := fun (f : Fld) => s.fl (Reg.UARTu_CTL u) f
    let us := fun (t : State) (f : Fld) => t.fl (Reg.UARTu_STAT u) f
    let x := s.uart u
    let onlyU := fun (t : State) => s.outside t ∧ (∀ w, w ≠ u.val → t.uart w = s.uart w) ∧ t.comm.spi = s.comm.spi ∧ t.time = s.time
    let raisedU := fun (t : State) (e : Nat) => e + 4 * u.val ∈ t.ev.crossing
    let y := s.spi i
    let sc := fun (f : Fld) => s.fl (Reg.SPIs_CTL i) f
    let ss := fun (t : State) (f : Fld) => t.fl (Reg.SPIs_STAT i) f
    let onlyS := fun (t : State) => s.outside t ∧ (∀ j, j ≠ i.val → t.spi j = s.spi j) ∧ t.comm.uart = s.comm.uart ∧ t.time = s.time
    let raisedS := fun (t : State) (e : Nat) => e + 2 * i.val ∈ t.ev.crossing
    (s.islandRuns 2 = true →
      (uc Reg.UARTu_CTL_EN = 1 → s.uartDe u = false ∨ uc Reg.UARTu_CTL_ECHO = 1 →
        (x.rx.length < 32 → Takes 9 (.uartReceive u byte pe fe brk) s (fun t => onlyU t ∧
          t.uart u = { x with rx := x.rx ++ [if brk then 0x000400
            else BitVec.ofNat 24 (b2n fe * 2 ^ 9 + b2n pe * 2 ^ 8 + if uc Reg.UARTu_CTL_D7 = 1 then byte.toNat % 128 else byte.toNat)] } ∧
          us t Reg.UARTu_STAT_RXN = (x.rx.length + 1) % (Reg.UARTu_STAT_RXN.max + 1) ∧ (x.rx = [] → raisedU t 0x380) ∧
          (pe || fe || brk → raisedU t 0x382))) ∧
        (32 ≤ x.rx.length → Takes 9 (.uartReceive u byte pe fe brk) s (fun t => onlyU t ∧ t.uart u = x ∧ us t Reg.UARTu_STAT_RXOVF = 1 ∧
          raisedU t 0x382))) ∧
      (uc Reg.UARTu_CTL_EN = 1 → uc Reg.UARTu_CTL_RTO ≠ 0 → Gives (.uartIdleTimeout u) s (fun t => onlyU t ∧ t.comm = s.comm ∧
        us t Reg.UARTu_STAT_RTOF = 1 ∧ raisedU t 0x380)) ∧
      (x.tx.length < 32 → Takes 9 (.uartDataWrite u v) s (fun t => onlyU t ∧ t.uart u = { x with tx := x.tx ++ [v &&& 0x1FF] } ∧
        t.ev = s.ev ∧ s.regsBut t [Reg.UARTu_STAT u])) ∧
      (32 ≤ x.tx.length → Takes 9 (.uartDataWrite u v) s (fun t => onlyU t ∧ t.uart u = x ∧ us t Reg.UARTu_STAT_TXOVF = 1 ∧ raisedU t 0x382)) ∧
      (∀ w r, x.rx = w :: r → Takes 9 (.uartDataRead u) s (fun t => onlyU t ∧ t.rdata = w ∧ t.uart u = { x with rx := r } ∧ t.ev = s.ev)) ∧
      (x.rx = [] → Takes 9 (.uartDataRead u) s (fun t => onlyU t ∧ t.rdata = 0x800000 ∧ t.uart u = x ∧ t.regs = s.regs)) ∧
      (∀ w r, uc Reg.UARTu_CTL_EN = 1 → x.tx = w :: r → Gives (.uartTransmitDone u) s (fun t => onlyU t ∧ t.uart u = { x with tx := r } ∧
        (r = [] → raisedU t 0x381 ∧ us t Reg.UARTu_STAT_TXIDLE = 1) ∧ (r ≠ [] → t.ev = s.ev)))) ∧
    (s.islandRuns 4 = true →
      (y.tx.length < 16 → Takes 10 (.spiDataWrite i v) s (fun t => onlyS t ∧ t.spi i = { y with tx := y.tx ++ [v] } ∧ t.ev = s.ev ∧
        s.regsBut t [Reg.SPIs_STAT i])) ∧
      (16 ≤ y.tx.length → Takes 10 (.spiDataWrite i v) s (fun t => onlyS t ∧ t.spi i = y ∧ ss t Reg.SPIs_STAT_TXOVF = 1 ∧ raisedS t 0x391)) ∧
      (∀ w r, y.rx = w :: r → Takes 10 (.spiDataRead i) s (fun t => onlyS t ∧ t.rdata = w ∧ t.spi i = { y with rx := r } ∧ t.ev = s.ev)) ∧
      (y.rx = [] → Takes 10 (.spiDataRead i) s (fun t => onlyS t ∧ t.rdata = 0x800000 ∧ t.spi i = y ∧ t.regs = s.regs)) ∧
      (∀ w r, sc Reg.SPIs_CTL_EN = 1 → y.tx = w :: r →
        (let bits := min 24 (max 4 (sc Reg.SPIs_CTL_BITS + 1))
         let got : Word := BitVec.ofNat 24 (v.toNat % 2 ^ bits)
         Gives (.spiWordDone i v) s (fun t => onlyS t ∧ (t.spi i).tx = r ∧ (r = [] → raisedS t 0x390) ∧ (t.spi i).ending = false ∧
          (y.rx.length < 16 → (t.spi i).rx = y.rx ++ [got]) ∧
          (16 ≤ y.rx.length → (t.spi i).rx = y.rx ∧ ss t Reg.SPIs_STAT_RXOVF = 1 ∧ raisedS t 0x391) ∧
          (sc Reg.SPIs_CTL_CSHOLD = 0 ∨ y.ending = true → (t.spi i).cs = false) ∧
          (sc Reg.SPIs_CTL_CSHOLD = 1 → y.ending = false → r ≠ [] → (t.spi i).cs = true)))) ∧
      (y.cs = true → y.tx = [] → Gives (.spiStallTimeout i) s (fun t => onlyS t ∧ t.spi i = { y with cs := false } ∧
        ss t Reg.SPIs_STAT_STALLF = 1 ∧ raisedS t 0x391)) ∧
      Takes 10 (.spiEnd i) s (fun t => onlyS t ∧ t.ev = s.ev ∧ s.regsBut t [Reg.SPIs_STAT i] ∧
        t.spi i = if sc Reg.SPIs_CTL_EN = 1 ∧ y.tx ≠ [] then { y with ending := true } else { y with cs := false }))

/-- R429, R444, R445, R448, R449, R452: I²C controller `c`, the USB device, the flash's commands. -/
def Obligations.I2cUsbFlash : Prop :=
  ∀ (c : Fin 2) (p : Fin 4) (byte : BitVec 8) (ack up : Bool) (cnt : BitVec 7) (ws : List (BitVec 24)) (w0 w1 w2 v : BitVec 24) (s : State),
    let x := s.i2c c
    let st := fun (t : State) (f : Fld) => t.fl (Reg.I2Cc_STAT c) f
    let only := fun (t : State) => s.outside t ∧ (∀ d, d ≠ c.val → t.i2c d = s.i2c d) ∧ t.time = s.time ∧ t.comm.uart = s.comm.uart
    let raised := fun (t : State) (e : Nat) => e + 2 * c.val ∈ t.ev.crossing
    let queued := fun (op b : Nat) (t : State) => only t ∧
      (x.cmd.length < 16 → t.i2c c = { x with cmd := x.cmd ++ [BitVec.ofNat 24 (op * 256 + b)] } ∧ t.ev = s.ev) ∧
      (16 ≤ x.cmd.length → t.i2c c = x ∧ st t Reg.I2Cc_STAT_CMDOVF = 1 ∧ raised t 0x395)
    let flushed := fun (t : State) (f : Fld) (bus : Nat) => only t ∧ t.i2c c = { x with cmd := [], own := false } ∧ st t f = 1 ∧
      st t Reg.I2Cc_STAT_BUSBUSY = bus ∧ raised t 0x395
    let en := s.fl (Reg.I2Cc_CTL c) Reg.I2Cc_CTL_EN = 1
    (s.islandRuns 2 = true →
      Takes 10 (.start c byte) s (queued 0 byte.toNat) ∧ Takes 10 (.send c byte) s (queued 1 byte.toNat) ∧
      Takes 10 (.readAck c) s (queued 2 0) ∧ Takes 10 (.readNack c) s (queued 3 0) ∧ Takes 10 (.stop c) s (queued 4 0) ∧
      Takes 10 (.i2cRecover c) s (queued 5 0) ∧
      (∀ w r, en → x.cmd = w :: r → Gives (.i2cCommandDone c ack byte) s (fun t =>
        (getBits w 10 8 = 0 → x.own = true ∨ st s Reg.I2Cc_STAT_BUSBUSY = 0 → ack = true →
          only t ∧ t.i2c c = { x with cmd := r, own := true } ∧ st t Reg.I2Cc_STAT_BUSBUSY = 1 ∧ t.ev = s.ev) ∧
        (getBits w 10 8 = 0 → x.own = true ∨ st s Reg.I2Cc_STAT_BUSBUSY = 0 → ack = false → flushed t Reg.I2Cc_STAT_NACKF 0) ∧
        (getBits w 10 8 = 0 → x.own = false → st s Reg.I2Cc_STAT_BUSBUSY = 1 → t = s) ∧
        (getBits w 10 8 = 1 → ack = true → only t ∧ t.i2c c = { x with cmd := r } ∧ t.ev = s.ev) ∧
        (getBits w 10 8 = 1 → ack = false → flushed t Reg.I2Cc_STAT_NACKF 0) ∧
        (getBits w 10 8 = 2 ∨ getBits w 10 8 = 3 → x.rx.length < 16 →
          only t ∧ t.i2c c = { x with cmd := r, rx := x.rx ++ [BitVec.ofNat 24 byte.toNat] } ∧ t.ev = s.ev) ∧
        (getBits w 10 8 = 4 ∨ getBits w 10 8 = 5 → only t ∧ t.i2c c = { x with cmd := r, own := false } ∧
          st t Reg.I2Cc_STAT_BUSBUSY = 0 ∧ (r = [] → raised t 0x394)))) ∧
      (x.own = false → Gives (.i2cBusFree c) s (fun t => only t ∧ t.comm = s.comm ∧ st t Reg.I2Cc_STAT_BUSBUSY = 0 ∧
        s.regsBut t [Reg.I2Cc_STAT c] ∧ t.ev = s.ev)) ∧
      (en → x.cmd ≠ [] ∨ x.own = true → Gives (.arbitrationLost c) s (fun t => flushed t Reg.I2Cc_STAT_ARBF 1)) ∧
      (en → s.fl (Reg.I2Cc_CTL c) Reg.I2Cc_CTL_SCLTO ≠ 0 → Gives (.sclTimeout c) s (fun t => flushed t Reg.I2Cc_STAT_TOF 0)) ∧
      (∀ w r, x.rx = w :: r → Takes 10 (.i2cPortRead c) s (fun t => only t ∧ t.rdata = w ∧ t.i2c c = { x with rx := r } ∧ t.ev = s.ev)) ∧
      (x.rx = [] → Takes 10 (.i2cPortRead c) s (fun t => only t ∧ t.rdata = 0x800000 ∧ t.i2c c = x ∧ t.regs = s.regs))) ∧
    (let us := fun (t : State) (f : Fld) => t.fl Reg.USB_STAT f
     let ep := fun (t : State) (e : Nat) (f : Fld) => t.fl (Reg.USB_EPeCFG e) f
     let att := us s Reg.USB_STAT_ATT = 1
     let stored := fun (t : State) (e n : Nat) (l : List Word) => ep t e Reg.USB_EPeCFG_CNT = min n 64 ∧ ep t e Reg.USB_EPeCFG_RDY = 0 ∧
      ep t e Reg.USB_EPeCFG_TGL = 1 - ep s e Reg.USB_EPeCFG_TGL ∧
      (∀ i < (min n 64 + 2) / 3, t.rd (Reg.USB_EPeBUFw e i) = l.getD i 0) ∧ 0x39C ∈ t.ev.crossing
     s.islandRuns 3 = true →
      (att → Gives .usbBusReset s (fun t => s.outside t ∧ t.comm = s.comm ∧ (∀ e < 8, ep t e Reg.USB_EPeCFG_RDY = 0) ∧
        t.fl Reg.USB_CTL Reg.USB_CTL_ADDR = 0 ∧ us t Reg.USB_STAT_SUSP = 0 ∧ us t Reg.USB_STAT_RESETF = 1 ∧ 0x39D ∈ t.ev.crossing)) ∧
      (att → Gives .usbSuspend s (fun t => s.outside t ∧ t.comm = s.comm ∧ us t Reg.USB_STAT_SUSP = 1 ∧ 0x39D ∈ t.ev.crossing)) ∧
      (att → us s Reg.USB_STAT_SUSP = 1 → Gives .usbResume s (fun t => s.outside t ∧ t.comm = s.comm ∧ us t Reg.USB_STAT_SUSP = 0 ∧
        us t Reg.USB_STAT_RESUMEF = 1 ∧ 0x39D ∈ t.ev.crossing)) ∧
      (att → ep s (2 * p) Reg.USB_EPeCFG_EN = 1 → ep s (2 * p) Reg.USB_EPeCFG_STALL = 0 → ep s (2 * p) Reg.USB_EPeCFG_RDY = 1 →
        Takes 11 (.usbOut p ws cnt) s (fun t => s.outside t ∧ t.comm = s.comm ∧ stored t (2 * p) cnt.toNat ws)) ∧
      (att → ep s (2 * p) Reg.USB_EPeCFG_EN = 0 ∨ ep s (2 * p) Reg.USB_EPeCFG_STALL = 1 ∨ ep s (2 * p) Reg.USB_EPeCFG_RDY = 0 →
        Takes 11 (.usbOut p ws cnt) s (fun t => t = s)) ∧
      (att → Takes 11 (.usbSetup w0 w1 w2) s (fun t => s.outside t ∧ t.comm = s.comm ∧ stored t 0 8 [w0, w1, w2] ∧
        ep t 0 Reg.USB_EPeCFG_SETUP = 1 ∧ ep t 0 Reg.USB_EPeCFG_STALL = 0 ∧ ep t 1 Reg.USB_EPeCFG_STALL = 0)) ∧
      (att → ep s (2 * p + 1) Reg.USB_EPeCFG_EN = 1 → ep s (2 * p + 1) Reg.USB_EPeCFG_STALL = 0 → ep s (2 * p + 1) Reg.USB_EPeCFG_RDY = 1 →
        Takes 11 (.usbIn p true) s (fun t => s.outside t ∧ t.comm = s.comm ∧ ep t (2 * p + 1) Reg.USB_EPeCFG_RDY = 0 ∧
          ep t (2 * p + 1) Reg.USB_EPeCFG_TGL = 1 - ep s (2 * p + 1) Reg.USB_EPeCFG_TGL ∧ 0x39C ∈ t.ev.crossing)) ∧
      Gives (.usbVbusChange up) s (fun t => s.outside t ∧ t.comm = { s.comm with shedAt := t.comm.shedAt } ∧ us t Reg.USB_STAT_VBUS = b2n up ∧ t.ev = s.ev ∧
        us t Reg.USB_STAT_ATT = b2n (s.usbAsk && up && !s.iosc && !s.shed3))) ∧
    (let busy := fun (t : State) => t.fl Reg.XSPI_STAT Reg.XSPI_STAT_BUSY
     let n := min 192 (s.fl Reg.XSPI_CMD Reg.XSPI_CMD_NBYTE)
     let read := fun (t : State) => s.fl Reg.XSPI_CMD Reg.XSPI_CMD_WR = 0 → ∀ i < (n + 2) / 3, t.rd (Reg.XSPI_BUFw i) = ws.getD i 0
     s.islandRuns 4 = true →
      (busy s = 0 → s.fl Reg.XSPI_CTL Reg.XSPI_CTL_EN = 1 → Takes 12 (.xspiCommand v) s (fun t => s.outside t ∧
        t.comm = { s.comm with flash := t.comm.flash } ∧ t.rd Reg.XSPI_CMD = v &&& 0x7CFFFF ∧ busy t = b2n (v.getLsbD 23) ∧ s.regsBut t [Reg.XSPI_CMD, Reg.XSPI_STAT] ∧ t.ev = s.ev)) ∧
      (busy s = 1 → Takes 12 (.xspiCommand v) s (fun t => t = s)) ∧
      (busy s = 1 → Gives (.xspiCommandDone ws) s (fun t => s.outside t ∧ t.comm = s.comm ∧ busy t = 0 ∧ read t ∧ 0x3A0 ∈ t.ev.crossing)) ∧
      (busy s = 1 → s.fl Reg.XSPI_CMD Reg.XSPI_CMD_POLL = 1 → Gives (.xspiPollTimeout ws) s (fun t => s.outside t ∧ t.comm = s.comm ∧
        busy t = 0 ∧ t.fl Reg.XSPI_STAT Reg.XSPI_STAT_TOF = 1 ∧ read t ∧ 0x3A0 ∈ t.ev.crossing)))

/-- R453–R457: operation codes 1 SHA-256, 2 GCM encrypt, 3 GCM decrypt, 4 ECDSA verify, 5 clear key. -/
def Obligations.CryptoAndEntropy : Prop :=
  ∀ (v : BitVec 24) (s : State),
    let busy := fun (t : State) => t.fl Reg.CRYPT_STAT Reg.CRYPT_STAT_BUSY
    let st := fun (t : State) (f : Fld) => t.fl Reg.CRYPT_STAT f
    let arg := fun (i : Nat) => (s.rd (Reg.CRYPT_ARGw i)).toNat
    let rng := fun (f : Fld) => s.fl Reg.CRYPT_RNGSTAT f
    let started := fun (op : Nat) (t : State) => s.outside t ∧ busy t = 1 ∧
      (busy s = 0 → t.comm.job = op ∧ t.fl Reg.CRYPT_OP Reg.CRYPT_OP_OP = op ∧
        s.regsBut t [Reg.CRYPT_OP, Reg.CRYPT_STAT, Reg.CRYPT_RNGSTAT] ∧ t.ev = s.ev) ∧
      (busy s = 1 → t.comm.job = s.comm.job ∧ t.fl Reg.CRYPT_OP Reg.CRYPT_OP_OP = s.fl Reg.CRYPT_OP Reg.CRYPT_OP_OP ∧
        s.regsBut t [Reg.CRYPT_OP, Reg.CRYPT_RNGSTAT])
    let ended := fun (t : State) (ev : Nat) => t.comm.job = 0 ∧ busy t = 0 ∧ (s.pwr.state < 2 → ∃ l, t.ev.router = l ++ [ev]) ∧ s.sameThr t
    let reads := fun (a n : Nat) (f : Nat → Word) => ∀ i < n, sramRegion (a + i) = true ∧ s.closed (a + i) = false ∧ s.cell (a + i) = .good (f i)
    let bytes := fun (f : Nat → Word) (n : Nat) => (Crypto.wordBytes ((List.range ((n + 2) / 3)).map f)).take n
    let regs := fun (a n : Nat) => (List.range n).map (fun i => s.rd (a + i))
    let key := (Crypto.wordBytes (regs (Reg.CRYPT_KEYw 0) 11)).take (if s.fl Reg.CRYPT_OP Reg.CRYPT_OP_KSZ = 1 then 32 else 16)
    let iv := (Crypto.wordBytes (regs (Reg.CRYPT_PARw 0) 4)).take 12
    let want := (Crypto.wordBytes (regs (Reg.CRYPT_PARw 4) 6)).take 16
    let n := arg 2
    let m := (n + 2) / 3
    let room := ∀ i < m, sramRegion (arg 1 + i) = true ∧ s.closed (arg 1 + i) = false
    let written := fun (t : State) (l : List Word) =>
      (∀ i w, (l.take m)[i]? = some w → t.cell (arg 1 + i) = .good w) ∧ ∀ a, (a < arg 1 ∨ arg 1 + m ≤ a) → t.cell a = s.cell a
    Takes 5 (.sha256 v) s (started 1) ∧ Takes 5 (.gcmEncrypt v) s (started 2) ∧ Takes 5 (.gcmDecrypt v) s (started 3) ∧
    Takes 5 (.ecdsaVerify v) s (started 4) ∧ Takes 5 (.clearKey v) s (started 5) ∧
    (s.comm.job = 4 → s.bz.check.isSome = true → Gives .cryptJobDone s (fun t => t = s)) ∧
    (s.comm.job = 5 → Gives .cryptJobDone s (fun t => s.outside t ∧ ended t 0x3A4 ∧ ∀ i < 11, t.rd (Reg.CRYPT_KEYw i) = 0)) ∧
    (∀ f, s.comm.job = 1 → reads (arg 0) ((arg 2 + 2) / 3) f → Gives .cryptJobDone s (fun t => ended t 0x3A4 ∧ s.sameMem t ∧
      ∀ i w, ((Crypto.packBytes (Crypto.sha256 (bytes f (arg 2)))).take 11)[i]? = some w → t.rd (Reg.CRYPT_PARw (10 + i)) = w)) ∧
    (∀ f g, s.comm.job = 4 → s.bz.check = none → reads (arg 0) 22 f → reads (arg 1) 22 g → Gives .cryptJobDone s (fun t => ended t 0x3A4 ∧ s.sameMem t ∧
      st t Reg.CRYPT_STAT_PASS = b2n (Crypto.ecdsaVerify ((Crypto.wordBytes (regs (Reg.CRYPT_PARw 10) 11)).take 32)
        (Crypto.keyPair ((List.range 22).map f)).1 (Crypto.keyPair ((List.range 22).map f)).2
        (Crypto.keyPair ((List.range 22).map g)).1 (Crypto.keyPair ((List.range 22).map g)).2))) ∧
    (∀ f, reads (arg 0) ((arg 3 + n + 2) / 3) f → room →
      (let aad := (bytes f (arg 3 + n)).take (arg 3)
       let txt := (bytes f (arg 3 + n)).drop (arg 3)
       let out := Crypto.gcmText key iv txt
       (s.comm.job = 2 → Gives .cryptJobDone s (fun t => ended t 0x3A4 ∧ written t (Crypto.packBytes out) ∧
        ∀ i w, ((Crypto.packBytes (Crypto.gcmTag key iv aad out)).take 6)[i]? = some w → t.rd (Reg.CRYPT_PARw (4 + i)) = w)) ∧
       (s.comm.job = 3 → Crypto.gcmTag key iv aad txt = want → Gives .cryptJobDone s (fun t => ended t 0x3A4 ∧
        written t (Crypto.packBytes out) ∧ st t Reg.CRYPT_STAT_PASS = 1)) ∧
       (s.comm.job = 3 → Crypto.gcmTag key iv aad txt ≠ want → Gives .cryptJobDone s (fun t => ended t 0x3A5 ∧
        written t (Crypto.packBytes (List.replicate n 0)) ∧ st t Reg.CRYPT_STAT_PASS = 0 ∧ st t Reg.CRYPT_STAT_AUTHF = 1)))) ∧
    (s.comm.job = 1 ∨ (s.comm.job = 4 ∧ s.bz.check = none) → region (arg 0) = .unmapped → 1 ≤ n → Gives .cryptJobDone s (fun t => ended t 0x3A5 ∧ s.sameMem t ∧
      st t Reg.CRYPT_STAT_MEMF = 1)) ∧
    (s.fl Reg.CRYPT_OP Reg.CRYPT_OP_RNGEN = 1 → rng Reg.CRYPT_RNGSTAT_FAILF = 0 →
      Gives (.rngBlock true) s (fun t => s.outside t ∧ t.comm.rng = [] ∧ t.fl Reg.CRYPT_RNGSTAT Reg.CRYPT_RNGSTAT_FAILF = 1 ∧
        t.fl Reg.CRYPT_RNGSTAT Reg.CRYPT_RNGSTAT_AVAIL = 0 ∧ (s.pwr.state < 2 → ∃ l, t.ev.router = l ++ [0x3A7])) ∧
      (0 < s.comm.rngN → Gives (.rngBlock false) s (fun t => s.outside t ∧ t.comm.rngN = s.comm.rngN - 1 ∧ t.comm.rng = s.comm.rng ∧
        (s.comm.rngN = 1 → t.fl Reg.CRYPT_RNGSTAT Reg.CRYPT_RNGSTAT_START = 0))) ∧
      (s.comm.rngN = 0 → s.comm.rng.length ≤ 22 → Gives (.rngBlock false) s (fun t => s.outside t ∧
        (∃ l, t.comm.rng = s.comm.rng ++ l ∧ l.length = 10) ∧ t.fl Reg.CRYPT_RNGSTAT Reg.CRYPT_RNGSTAT_AVAIL = s.comm.rng.length + 10))) ∧
    (∀ w r, s.comm.rng = w :: r → Takes 5 .rngPop s (fun t => s.outside t ∧ t.rdata = w ∧ t.comm = { s.comm with rng := r } ∧
      t.fl Reg.CRYPT_RNGSTAT Reg.CRYPT_RNGSTAT_LASTV = 1 ∧ t.ev = s.ev)) ∧
    (s.comm.rng = [] → Takes 5 .rngPop s (fun t => s.outside t ∧ t.rdata = 0 ∧ t.comm = s.comm ∧
      t.fl Reg.CRYPT_RNGSTAT Reg.CRYPT_RNGSTAT_LASTV = 0 ∧ s.regsBut t [Reg.CRYPT_RNGSTAT] ∧
      t.fl Reg.CRYPT_RNGSTAT Reg.CRYPT_RNGSTAT_UNDER = satInc (rng Reg.CRYPT_RNGSTAT_UNDER) Reg.CRYPT_RNGSTAT_UNDER.max))

/-- R523, R526–R531, R533, R534, R536, R549, R551. Power states are coded 0 RUN, 1 DOZE, 2 PATROL, 3 DORMANT. -/
def Obligations.PowerEntry : Prop :=
  ∀ (p : Fin 16) (wire : Bool) (c : Instr) (s : State),
    let st := Reg.PWR_PSSTAT
    let idle := fun (t : State) => t.fl st Reg.PWR_PSSTAT_BUSY = 0 ∧ t.fl st Reg.PWR_PSSTAT_PHASE = 0 ∧ t.pwr.tgt = 0 ∧
      t.pwr.forced = false
    let raised := fun (t : State) (e : Nat) => s.pwr.state < 2 → ∃ l, t.ev.router = l ++ [e]
    let ended := fun (t : State) (id reason : Nat) => s.outside t ∧ idle t ∧ t.fl st Reg.PWR_PSSTAT_RESULT = 2 ∧
      t.fl st Reg.PWR_PSSTAT_ID = id ∧ t.fl st Reg.PWR_PSSTAT_REASON = reason ∧
      t.fl (Reg.PWR_PSLASTs (s.pwr.tgt - 1)) Reg.PWR_PSLASTs_V = 1 ∧ t.fl (Reg.PWR_PSLASTs (s.pwr.tgt - 1)) Reg.PWR_PSLASTs_ID = id ∧
      t.fl (Reg.PWR_PSLASTs (s.pwr.tgt - 1)) Reg.PWR_PSLASTs_REASON = reason ∧
      t.fl (Reg.PWR_PSRAs (s.pwr.tgt - 1)) Reg.PWR_PSRAs_REF = satInc (s.fl (Reg.PWR_PSRAs (s.pwr.tgt - 1)) Reg.PWR_PSRAs_REF) 0xFFF ∧
      t.pwr.state = s.pwr.state ∧ raised t 0x060
    let asked := fun (g : Nat) (t : State) => s.outside t ∧
      (s.fl st Reg.PWR_PSSTAT_BUSY = 0 → s.pwr.state = 0 →
        t.fl st Reg.PWR_PSSTAT_BUSY = 1 ∧ t.fl st Reg.PWR_PSSTAT_PHASE = 1 ∧ t.fl st Reg.PWR_PSSTAT_RESULT = 0 ∧
        t.rd Reg.PWR_PSVOTE = 0 ∧ t.rd Reg.PWR_PSDLY = 0 ∧ t.fl Reg.PWR_PSREQ Reg.PWR_PSREQ_TGT = g ∧
        t.pwr = { s.pwr with tgt := g, forced := false, past := 0, wake := false } ∧
        s.regsBut t [st, Reg.PWR_PSREQ, Reg.PWR_PSVOTE, Reg.PWR_PSDLY] ∧ t.ev = s.ev) ∧
      (s.fl st Reg.PWR_PSSTAT_BUSY = 0 → s.pwr.state ≠ 0 → t.pwr = s.pwr ∧ s.regsBut t [Reg.PWR_PSREQ] ∧ t.ev = s.ev) ∧
      (s.fl st Reg.PWR_PSSTAT_BUSY = 1 → t = s)
    Gives .dozeRequest s (asked 1) ∧ Gives .patrolRequest s (asked 2) ∧ Gives .dormantRequest s (asked 3) ∧
    (s.fl st Reg.PWR_PSSTAT_BUSY = 0 → Gives .cancel s (fun t => s.outside t ∧ t.rd Reg.PWR_PSREQ = 0 ∧ t.pwr = s.pwr ∧
      s.regsBut t [Reg.PWR_PSREQ] ∧ t.ev = s.ev)) ∧
    (s.fl st Reg.PWR_PSSTAT_BUSY = 1 → s.pwr.tgt < 4 →
      Gives .cancel s (fun t => s.outside t ∧ idle t ∧ t.fl st Reg.PWR_PSSTAT_RESULT = 3 ∧ t.pwr.state = s.pwr.state ∧ raised t 0x061 ∧
        t.fl (Reg.PWR_PSRAs (s.pwr.tgt - 1)) Reg.PWR_PSRAs_ABT =
          satInc (s.fl (Reg.PWR_PSRAs (s.pwr.tgt - 1)) Reg.PWR_PSRAs_ABT) 0xFFF ∧
        s.regsBut t [st, Reg.PWR_PSREQ, Reg.PWR_PSRAs (s.pwr.tgt - 1)]) ∧
      (s.voted p = false →
        (s.answer s.pwr.tgt p wire = 0 → Gives (.participantAnswer p wire) s (fun t => s.outside t ∧ t.voted p = true ∧
          (∀ q < 16, q ≠ p.val → t.voted q = s.voted q) ∧ s.regsBut t [Reg.PWR_PSVOTE] ∧ t.pwr = s.pwr ∧ t.ev = s.ev)) ∧
        (s.answer s.pwr.tgt p wire = 1 → Gives (.participantAnswer p wire) s (fun t => s.outside t ∧
          (t.rd Reg.PWR_PSDLY).getLsbD p = true ∧ s.regsBut t [Reg.PWR_PSDLY] ∧ t.pwr = s.pwr ∧ t.ev = s.ev)) ∧
        (2 ≤ s.answer s.pwr.tgt p wire → s.pwr.forced = false →
          ∃ q ≤ p.val, s.voted q = false ∧ 2 ≤ s.answer s.pwr.tgt q false ∧
            (∀ r < q, s.voted r = false → s.answer s.pwr.tgt r false < 2) ∧
            Gives (.participantAnswer p wire) s (fun t => ended t q (s.answer s.pwr.tgt q false))) ∧
        (2 ≤ s.answer s.pwr.tgt p wire → s.pwr.forced = true → Gives (.participantAnswer p wire) s (fun t => s.outside t ∧
          t.voted p = true ∧ (∀ a, t.rd a = s.rd a) ∧ t.ev = s.ev)) ∧
        (s.pwr.forced = false → (s.rd Reg.PWR_PSDLY).getLsbD p = true →
          (∀ q < p.val, (s.rd Reg.PWR_PSDLY).getLsbD q = true → s.voted q = true) →
          Gives .participantTimeout s (fun t => ended t p 5)))) ∧
    (s.fl st Reg.PWR_PSSTAT_BUSY = 1 → (∀ q < 16, s.voted q = true ∧ (s.pwr.forced = false → s.answer s.pwr.tgt q false = 0)) →
      Gives .pointOfNoReturn s (fun t => t.pending = s.pending ∧ t.fl st Reg.PWR_PSSTAT_BUSY = 0 ∧ t.fl st Reg.PWR_PSSTAT_PHASE = 0 ∧
        t.fl st Reg.PWR_PSSTAT_RESULT = (if s.pwr.forced then 4 else 1) ∧
        t.pwr = { s.pwr with state := s.pwr.tgt, tgt := 0, past := 0, visits := 0, visitN := 0 } ∧ t.time.dt = s.time.dt ∧ t.ev.crossing ⊆ s.ev.crossing ∧
        (1 ≤ s.pwr.tgt → s.pwr.tgt < 4 → t.rd (Reg.PWR_PSENTs (s.pwr.tgt - 1)) =
          BitVec.ofNat 24 (satInc (s.rd (Reg.PWR_PSENTs (s.pwr.tgt - 1))).toNat 0xFFFFFF)) ∧
        (s.pwr.tgt = 1 → s.outside t ∧ t.ev = s.ev) ∧
        (s.pwr.tgt = 2 ∨ s.pwr.tgt = 3 → (∀ e ∈ s.memc.wbuf, region e.addr = .mram) → t.thr = [] ∧ t.eng = [] ∧ t.cell 0x813C00 = .good 0x534156 ∧
          (∀ a, region a ≠ .mram → region a ≠ .locket → t.cell a = memDflt a) ∧
          (∀ a, 0xF01000 ≤ a → a < 0xF03000 → a ∉ [st, Reg.PWR_PSENTs (s.pwr.tgt - 1)] → t.rd a = s.rd a)))) ∧
    (c ∈ [Instr.dozeRequest, .patrolRequest, .dormantRequest, .cancel, .participantAnswer p wire, .participantTimeout, .pointOfNoReturn] →
      s.pwr.state < 4 → s.pwr.tgt < 4 → Gives c s (fun t => t.pwr.state < 4 ∧ t.pwr.tgt < 4))

/-- R423, R446, R447, R532, R538–R544, R547. -/
def Obligations.WakeAndTarget : Prop :=
  ∀ (b : Fin 10) (n2 p : Fin 2) (held : BitVec 8) (rising rd srcOk : Bool) (n : BitVec 48) (img : List (BitVec 24)) (e : Fin 8) (x : PatRes) (v : BitVec 24)
    (by8 : BitVec 8) (c : Instr) (s : State),
    let wc := Reg.AWU_WCAUSE
    let i2 := Reg.I2CT_STAT
    let q := s.comm.i2ct
    let alm := (mkPair (s.rd Reg.AWU_ALML) (s.rd Reg.AWU_ALMH)).toNat
    let woken := fun (t : State) (k : Nat) => s.outside t ∧ (t.rd wc).getLsbD k = true ∧ t.fl wc Reg.AWU_WCAUSE_V = 1 ∧ t.pwr.wake = true ∧
      t.fl wc Reg.AWU_WCAUSE_FIRST = (if s.fl wc Reg.AWU_WCAUSE_V = 0 then k else s.fl wc Reg.AWU_WCAUSE_FIRST) ∧
      s.regsBut t [wc] ∧ t.ev = s.ev ∧ t.time = s.time ∧ t.pwr = { s.pwr with wake := true }
    let edge := getBits (s.rd Reg.AWU_WPIN) (if n2 = 0 then Reg.AWU_WPIN_EDGE0 else Reg.AWU_WPIN_EDGE1).hi
      (if n2 = 0 then Reg.AWU_WPIN_EDGE0 else Reg.AWU_WPIN_EDGE1).lo
    let raised := fun (t : State) (ev : Nat) => s.pwr.state < 2 → ∃ l, t.ev.router = l ++ [ev]
    (s.pwr.state ≠ 0 → b ≠ 9 → (b ≠ 6 ∨ s.pwr.state = 2) → s.wakeEn b = true → Gives (.awuWake b) s (fun t => woken t b)) ∧
    (s.pwr.state ≠ 0 → edge.testBit (if rising then 0 else 1) = true → max 1 (s.fl Reg.AWU_WPIN Reg.AWU_WPIN_FLT) ≤ held.toNat → s.wakeEn n2 = true →
      Gives (.wakePin n2 rising held) s (fun t => woken t n2)) ∧
    (s.pwr.state ≠ 0 → s.wakeEn (3 + p) = true → Gives (.chadenWakeDetect p) s (fun t => woken t (3 + p))) ∧
    (s.pwr.state ≠ 0 → alm ≠ 0 → alm ≤ n.toNat → s.wakeEn 5 = true → Gives (.timeAlarm n) s (fun t => woken t 5)) ∧
    (s.pwr.state = 0 → s.entering = true → s.pwr.tgt < 4 → b.val < 6 → s.wakeEn b = true → Gives (.awuWake b) s (fun t => s.outside t ∧
      t.entering = false ∧ t.fl Reg.PWR_PSSTAT Reg.PWR_PSSTAT_RESULT = 3 ∧ t.fl Reg.PWR_PSSTAT Reg.PWR_PSSTAT_REASON = 6 ∧
      t.pwr.state = 0 ∧ (t.rd wc).getLsbD b = true ∧ raised t 0x061)) ∧
    (s.pwr.state = 1 → s.pwr.wake = true → Gives .dozeReturn s (fun t => t.mem = s.mem ∧ t.thr = s.thr ∧ t.eng = s.eng ∧
      t.pwr.state = 0 ∧ t.pwr.wake = false ∧ t.time = s.time ∧ ∃ l, t.ev.router = l ++ [0x062])) ∧
    (2 ≤ s.pwr.state → s.pwr.wake = true → Gives (.fabricRestart n srcOk img) s (fun t => t.pwr.state = 0 ∧ t.pwr.wake = false ∧
      t.rd Reg.AWU_NL = n.setWidth 24 ∧ t.rd Reg.AWU_NH = (n >>> 24).setWidth 24 ∧ t.fl Reg.TIME_STAT Reg.TIME_STAT_LOCK = 1 ∧
      t.fl Reg.TIME_STAT Reg.TIME_STAT_RESTF = 1 ∧ t.fl Reg.SYS_RCAUSE Reg.SYS_RCAUSE_RESUME = 1 ∧
      (let d := s.time.dt.toNat
       let now := max (d + n.toNat * (t.rd Reg.REF_AWUCAL).toNat / 256) (d + 1)
       t.time.dt = BitVec.ofNat 48 now ∧ t.time.dtx = s.time.dtx + BitVec.ofNat 24 (now / 2 ^ 48)))) ∧
    (n.toNat ≤ s.pwr.visitN ∨ n.toNat % s.patPer ≠ 0 → Gives (.patrolVisit n srcOk [x]) s (fun t => t = s)) ∧
    (s.pwr.state = 2 → s.pwr.visitN < n.toNat → n.toNat % s.patPer = 0 → Gives (.patrolVisit n true [x]) s (fun t => s.outside t ∧
      s.regsBut t [Reg.AWU_PSKIP] ∧ t.pwr = { s.pwr with visitN := n.toNat } ∧
      t.rd Reg.AWU_PSKIP = BitVec.ofNat 24 (satInc (s.rd Reg.AWU_PSKIP).toNat 0xFFFFFF))) ∧
    (s.pwr.state = 2 → s.pwr.visitN < n.toNat → n.toNat % s.patPer = 0 → (∀ j < 8, s.patValid j = true ↔ j = e.val) → s.fl (Reg.AWU_PeCFG e) Reg.AWU_PeCFG_EVERY = 0 →
      x.ovr = false → x.op = false → s.fl (Reg.AWU_PeANA e) Reg.AWU_PeANA_REFSEL ≠ 1 →
      s.fl (Reg.AWU_PeCFG e) Reg.AWU_PeCFG_TYPE = 0 → -0x7FFFFF ≤ (x.v.setWidth 24).toInt →
      (let val : Int := clamp 0x7FFFFF (((x.v.setWidth 24).toInt - (s.rd (Reg.AWU_PeOFS e)).toInt) * (s.rd (Reg.AWU_PeGAIN e)).toNat / 2 ^ 22)
       let breach := val < (s.rd (Reg.AWU_PeWLO e)).toInt ∨ (s.rd (Reg.AWU_PeWHI e)).toInt < val
       let run := min 31 (s.fl (Reg.AWU_PeSTAT e) Reg.AWU_PeSTAT_RUN + 1)
       Gives (.patrolVisit n false [x]) s (fun t => s.outside t ∧ t.pwr.visits = s.pwr.visits + 1 ∧ t.ev = s.ev ∧
        t.rd Reg.AWU_PVIS = BitVec.ofNat 24 (satInc (s.rd Reg.AWU_PVIS).toNat 0xFFFFFF) ∧ (t.rd (Reg.AWU_PeLAST e)).toInt = val ∧
        (¬ breach → t.fl (Reg.AWU_PeSTAT e) Reg.AWU_PeSTAT_RUN = 0 ∧ t.pwr.wake = s.pwr.wake) ∧
        (breach → t.fl (Reg.AWU_PeSTAT e) Reg.AWU_PeSTAT_RUN = run ∧
          (run = max 1 (s.fl (Reg.AWU_PeCFG e) Reg.AWU_PeCFG_WCNT) → s.wakeEn 6 = true → t.pwr.wake = true ∧
            t.fl wc Reg.AWU_WCAUSE_PENT = e ∧ (t.rd wc).getLsbD 6 = true))))) ∧
    (getBits v Reg.PWR_LWAKE_PORT.hi Reg.PWR_LWAKE_PORT.lo = 2 ^ p.val → s.linked p = false → Gives (.lwake v) s (fun t => s.outside t ∧
      (t.port p).bursts = (s.port p).bursts + 1 ∧ t.port (1 - p) = s.port (1 - p) ∧ (∀ a, t.rd a = s.rd a) ∧ t.ev = s.ev)) ∧
    (getF (s.an Reg.I2CT_CFG) Reg.I2CT_CFG_EN = 1 → s.pwr.state = 0 → s.entering = false → Gives (.i2ctMatch rd) s (fun t => s.outside t ∧
      t.fl i2 Reg.I2CT_STAT_ACTIVE = 1 ∧ t.fl i2 Reg.I2CT_STAT_RD = b2n rd ∧ t.comm.i2ct = { q with first := true, dead := false, held := none } ∧
      raised t 0x398)) ∧
    (s.fl i2 Reg.I2CT_STAT_ACTIVE = 1 → s.fl i2 Reg.I2CT_STAT_STRETCH = 0 → q.dead = false → s.fl i2 Reg.I2CT_STAT_RD = 0 →
      Gives (.i2ctByte by8) s (fun t => s.outside t ∧ s.regsBut t [i2] ∧ t.ev = s.ev ∧
        (q.rx.length < 8 → t.comm.i2ct = { q with rx := q.rx ++ [BitVec.ofNat 24 (b2n q.first * 256 + by8.toNat)], first := false } ∧
          t.fl i2 Reg.I2CT_STAT_RXN = q.rx.length + 1) ∧
        (8 ≤ q.rx.length → t.fl i2 Reg.I2CT_STAT_STRETCH = 1 ∧ t.comm.i2ct.rx = q.rx))) ∧
    (s.fl i2 Reg.I2CT_STAT_ACTIVE = 1 → Gives .i2ctDone s (fun t => s.outside t ∧ s.regsBut t [i2] ∧ t.fl i2 Reg.I2CT_STAT_ACTIVE = 0 ∧
      t.fl i2 Reg.I2CT_STAT_STRETCH = 0 ∧ t.comm.i2ct = { q with held := none, dead := false } ∧ raised t 0x399)) ∧
    (s.fl i2 Reg.I2CT_STAT_STRETCH = 1 → Gives .i2ctStrto s (fun t => s.outside t ∧ s.regsBut t [i2] ∧ t.fl i2 Reg.I2CT_STAT_STRETCH = 0 ∧
      t.fl i2 Reg.I2CT_STAT_STRTOF = 1 ∧ t.comm.i2ct = { q with held := none, dead := true } ∧ raised t 0x39A)) ∧
    (q.held = none → Gives (.i2ctPortAccess false v) s (fun t => s.outside t ∧ s.regsBut t [i2] ∧ t.ev = s.ev ∧
      t.rdata = q.rx.headD blank ∧ t.comm.i2ct = { q with rx := q.rx.tail })) ∧
    (q.tx.length < 8 → Gives (.i2ctPortAccess true v) s (fun t => s.outside t ∧ s.regsBut t [i2] ∧ t.ev = s.ev ∧ t.rdata = s.rdata ∧
      t.comm.i2ct = { q with tx := q.tx ++ [BitVec.ofNat 24 (v.toNat % 256)] })) ∧
    (c ∈ [Instr.awuWake b, .wakePin n2 rising held, .chadenWakeDetect p, .timeAlarm n, .dozeReturn, .patrolVisit n false [x], .i2ctMatch rd] →
      s.pwr.state < 4 → s.pwr.tgt < 4 → Gives c s (fun t => t.pwr.state < 4 ∧ t.pwr.tgt < 4))

/-- R529, R530: participants by their numbers of R528. -/
def Obligations.RestingParticipants : Prop :=
  (∀ (e : Fin 128) (n : Fin 64) (k i : Fin 512) (who : Who) (v a d0 d1 va : BitVec 24) (how : Fin 4) (u : Fin 64) (late up b : Bool) (o : Fin 36) (j : Fin 8) (w : Fin 7168)
    (out : Option (BitVec 6)) (c : Fin 1024) (ws : List (BitVec 24)) (len : BitVec 12) (age : BitVec 18) (err : BitVec 4) (x : Fin 2) (q : Fin 4)
    (byte : BitVec 8) (cnt : BitVec 7) (l : Fin 32) (data : BitVec 16) (s : State),
    let still := fun (p : Nat) (cs : List Instr) => s.resting p = true → ∀ i ∈ cs, Gives i s (fun t => t = s)
    still 0 [.wakeDelivery e n, .interruptAccept k, .waittTargetReached k] ∧
    still 1 [.mrmark, .reservationRequest v] ∧
    still 2 [.claspCommand i late, .keeperCommand out v, .arm o, .disarm o, .claspHoldSet j, .claspHoldRelease j, .claspSwapRequest,
      .claspWref w v] ∧
    still 3 [.hallmark c, .load c, .suspend c, .resume c, .epoch c, .retire c, .kswitch c, .refill c, .probe v] ∧
    still 4 [.strandPush who i v va, .strandPop who i va, .strandConfig i v, .strandFlush i, .endpointPcidWrite i v, .landingHeader u] ∧
    still 5 [.sha256 v, .gcmEncrypt v, .gcmDecrypt v, .ecdsaVerify v, .clearKey v, .rngPop] ∧
    still 6 [.ethReceive ws len up b age, .txpoll, .mdioAccess v data] ∧
    still (7 + x.val) [.canReceive x ws err age, .canFifoWrite x v, .canFifoRead x, .canTransmitDone x how age, .canAbort x b, .canRecover x] ∧
    still 9 [.uartReceive q byte up b late, .uartDataWrite q v, .uartDataRead q] ∧
    still 10 [.spiDataWrite x v, .spiDataRead x, .spiEnd x, .start x byte, .send x byte, .readAck x, .readNack x, .stop x, .i2cRecover x,
      .i2cPortRead x] ∧
    still 11 [.usbOut q ws cnt, .usbSetup v d0 d1, .usbIn q b] ∧
    still 12 [.xspiCommand v, .xspiWindowRead e q d0 d1] ∧
    still 13 [.enumerationStart, .enum x l, .windowWrite e q, .windowRead e q, .wack x l v, .evt x l l 0, .ring x b l, .wr x l c a v d0 d1 up b late late,
      .rd x l c a 0 up b late late]) ∧
  (∀ (e : Fin 128) (i : Fin 4) (a : Access) (ok tck : Bool) (s : State),
    let pa := ownView (.thread a.k) a.pa
    (s.en e).spine[i.val]? = some a → region a.pa = .dev → s.restAt pa = true → s.closed pa = false → s.regRuns pa tck = true →
    (crosses pa = true → ok = true) → Gives (.accessComplete e i ok tck) s (fun t => t = s)) ∧
  (∀ (p : Nat) (s : State), s.entering = true → p < 16 → Gives .cancel s (fun t => t.resting p = false))

/-- R468, R469, R472, R473, R491, R496, R498. `sends` says that a frame starts on a port with nothing waiting and room for it. -/
def Obligations.LinkPorts : Prop :=
  ∀ (p : Fin 2) (lseq : Fin 256) (quiet : Bool) (rt : BitVec 24) (n : Fin 32) (s : State),
    let ps := Reg.CHN_PpSTAT p
    let x := s.port p
    let o := 1 - p.val
    let sends := fun (t : State) (q : Nat) (f : List Word) => s.carries q = true → (s.port q).relay = [] → (s.port q).queue = [] → (s.port q).unack.length < 16 →
      (t.port q).queue = [] ∧ (t.port q).unack = (s.port q).unack ++ [((s.port q).txSeq, f, 1)]
    let again := fun (l : List (Nat × List Word × Nat)) => l.map (fun f => (f.1, f.2.1, if f.2.2 < 4 then f.2.2 + 1 else f.2.2))
    let count := fun (l : List (Nat × List Word × Nat)) => (l.filter (fun f => decide (f.2.2 < 4))).length
    let left := fun (a : Nat) => x.unack.filter (fun f => decide (128 ≤ (a + 256 - f.1) % 256))
    let raised := fun (t : State) (e : Nat) => s.pwr.state < 2 → e ∈ t.ev.crossing
    let down := fun (t : State) => s.outside t ∧ t.linked p = false ∧ t.fl ps Reg.CHN_PpSTAT_LINKF = 1 ∧ raised t 0x3B1 ∧
      (s.isManager = false → (t.port p).unack = [] ∧ (t.port p).queue = [] ∧ t.fl Reg.CHN_STAT Reg.CHN_STAT_UPLOST =
        s.fl Reg.CHN_STAT Reg.CHN_STAT_UPLOST ∧
        (s.ownNum ≠ 0 → sends t o (frame 10 0 s.ownNum 0 [BitVec.ofNat 24 s.ownNum])) ∧ (s.ownNum = 0 → t.port o = s.port o)) ∧
      (s.isManager = true → s.fl Reg.CHN_STAT Reg.CHN_STAT_RING = 0 → s.chn.phase ≠ 1 → ∀ j, 1 ≤ j → j < 32 →
        s.heldW j = true → s.portOf j = p.val → t.heldW j = false ∧ t.fl (Reg.CHN_WnSTAT j) Reg.CHN_WnSTAT_LOST = 1)
    (s.islandRuns 8 = true → s.linked p = false → x.stuck = false → Gives (.linkUp p) s (fun t => s.outside t ∧ t.port p = PortSt.init ∧ t.linked p = true ∧
      t.fl ps Reg.CHN_PpSTAT_LINKF = 1 ∧ t.fl ps Reg.CHN_PpSTAT_DEAD = 0 ∧ 0x3B1 ∈ t.ev.crossing ∧ t.port o = s.port o ∧
      (s.isManager = true → s.fl Reg.CHN_STAT Reg.CHN_STAT_REV = 1 → 0x3B2 ∈ t.ev.crossing) ∧
      (s.isManager = false → s.upPort = p.val → t.fl Reg.CHN_STAT Reg.CHN_STAT_UPLOST = 0))) ∧
    (s.linked p = false → x.stuck = true → Gives (.linkUp p) s (fun t => t = s) ∧
      Gives (.linkDown p) s (fun t => s.outside t ∧ t.port p = { x with stuck := false } ∧ (∀ a, t.rd a = s.rd a) ∧ t.ev = s.ev)) ∧
    (s.linked p = true → (s.isManager = false ∨ (s.chn.wr = [] ∧ s.chn.rd = [])) →
      Gives (.linkDown p) s down ∧
      ((∃ f ∈ x.unack, f.2.2 = 4) → Gives (.portDead p) s (fun t => down t ∧ t.fl ps Reg.CHN_PpSTAT_DEAD = 1 ∧ (t.port p).stuck = true))) ∧
    (s.carries p = true →
      Gives (.retransmitTimeout p) s (fun t => s.outside t ∧ s.regsBut t [ps] ∧ t.ev = s.ev ∧ t.port p = { x with unack := again x.unack } ∧
        t.fl ps Reg.CHN_PpSTAT_RETRY = min 255 (s.fl ps Reg.CHN_PpSTAT_RETRY + count x.unack)) ∧
      (x.queue = [] → x.relay = [] →
        Gives (.ack p lseq) s (fun t => s.outside t ∧ (∀ a, t.rd a = s.rd a) ∧ t.ev = s.ev ∧ t.port p = { x with unack := left lseq }) ∧
        Gives (.nak p lseq) s (fun t => s.outside t ∧ s.regsBut t [ps] ∧ t.ev = s.ev ∧
          t.port p = { x with unack := again (left ((lseq.val + 255) % 256)) } ∧
          t.fl ps Reg.CHN_PpSTAT_RETRY = min 255 (s.fl ps Reg.CHN_PpSTAT_RETRY + count (left ((lseq.val + 255) % 256))))) ∧
      Gives (.frameCrcFailure p quiet) s (fun t => s.outside t ∧ s.regsBut t [ps] ∧ t.ev = s.ev ∧
        t.fl ps Reg.CHN_PpSTAT_CRCERR = satInc (s.fl ps Reg.CHN_PpSTAT_CRCERR) 255 ∧
        (quiet = true ∨ x.nakked = true → t.port p = x) ∧
        (quiet = false → x.nakked = false → t.port p = { x with nakked := true, last := [0x19C, x.rxSeq, 255 - x.rxSeq, 0] }))) ∧
    (s.islandRuns 8 = true → s.linked p = true → Gives (.echo p) s (fun t => s.outside t ∧ (∀ a, t.rd a = s.rd a) ∧ t.ev = s.ev ∧
      t.port p = { x with last := [0x15C, 0, 0, 0] } ∧ t.port o = s.port o)) ∧
    (s.islandRuns 8 = true → s.isManager = false → s.upPort = p.val →
      (s.linked p = true → Gives .linkDelayMeasure s (fun t => s.outside t ∧ (∀ a, t.rd a = s.rd a) ∧ t.ev = s.ev ∧ t.chn.echo = true ∧
        t.port p = { x with last := [0x11C, 0, 0, 0] } ∧ t.port o = s.port o)) ∧
      (s.chn.echo = true → Gives (.echr p rt) s (fun t => s.outside t ∧ s.regsBut t [Reg.CHN_TDLY] ∧ t.ev = s.ev ∧
        t.fl Reg.CHN_TDLY Reg.CHN_TDLY_DLY = min (rt.toNat / 2) 0xFFFF ∧ t.chn = { s.chn with echo := false, dlyOk := true }))) ∧
    (s.islandRuns 8 = true → s.isManager = false → s.linked s.upPort = false → s.fl Reg.CHN_STAT Reg.CHN_STAT_UPLOST = 0 →
      Gives .upstreamLost s (fun t => s.outside t ∧ t.fl Reg.CHN_STAT Reg.CHN_STAT_UPLOST = 1 ∧ 0x3B3 ∈ t.ev.crossing ∧ t.chn = s.chn)) ∧
    (s.carries p = true →
      (s.isManager = true → s.fl Reg.CHN_STAT Reg.CHN_STAT_RING = 1 → s.fl Reg.CHN_STAT Reg.CHN_STAT_REV = 0 →
        (let b := if p.val = 0 then n.val + 1 else n.val
         let nw := s.fl Reg.CHN_STAT Reg.CHN_STAT_NW
         Takes 13 (.ring p false n) s (fun t => s.outside t ∧ t.fl Reg.CHN_STAT Reg.CHN_STAT_REV = 1 ∧ t.chn.breaks = [b] ∧ 0x3B2 ∈ t.ev.crossing ∧
          t.chn.wr = s.chn.wr ∧ t.chn.rd = s.chn.rd ∧
          (∀ j, 1 ≤ j → b ≤ j → j ≤ nw → t.portOf j = 1 ∧ t.fl (Reg.CHN_WnSTAT j) Reg.CHN_WnSTAT_HOPS = nw + 1 - j) ∧
          (∀ j, 1 ≤ j → j < 32 → (j < b ∨ nw < j) → t.rd (Reg.CHN_WnSTAT j) = s.rd (Reg.CHN_WnSTAT j))))) ∧
      (s.isManager = false → s.ownNum ≠ 0 → n.val ≤ s.ownNum →
        Takes 13 (.ring p true n) s (fun t => s.outside t ∧ t.upPort = p.val ∧ s.regsBut t [Reg.CHN_STAT] ∧ t.ev = s.ev ∧
          t.chn.dlyOk = (s.chn.dlyOk && decide (s.upPort = p.val)) ∧ sends t o (frame 10 0 0 0 [BitVec.ofNat 24 (2 ^ 23 + n.val)]))))

/-- R475, R476, R489, R490, R492–R494. -/
def Obligations.EnumerationAndTime : Prop :=
  ∀ (p : Fin 2) (n dst src : Fin 32) (slot k : Fin 16) (sysid corr ago res : BitVec 24) (fin inport more : Bool) (tq : Fin 4) (stamp : BitVec 48)
    (s : State),
    let cs := Reg.CHN_STAT
    let ts := Reg.CHN_TSTAT
    let o := 1 - p.val
    let sends := fun (t : State) (q : Nat) (f : List Word) => s.carries q = true → (s.port q).relay = [] → (s.port q).queue = [] → (s.port q).unack.length < 16 →
      (t.port q).queue = [] ∧ (t.port q).unack = (s.port q).unack ++ [((s.port q).txSeq, f, 1)]
    let uncaught := fun (t : State) => (∀ n < 64, s.fl (Reg.TCn_CFG n) Reg.TCn_CFG_CSEL ≠ 19) →
      (∀ a, t.rd a = s.rd a) ∧ t.time = s.time ∧ t.ev = s.ev
    let still := fun (t : State) => t.time.dt = s.time.dt ∧ t.time.dtx = s.time.dtx
    let ended := fun (t : State) => s.outside t ∧ t.chn.phase = 0 ∧ t.fl cs Reg.CHN_STAT_ENUMD = 1 ∧ t.fl cs Reg.CHN_STAT_ENUMING = 0 ∧
      0x3B0 ∈ t.ev.crossing
    (s.islandRuns 8 = true → s.isManager = true → s.fl Reg.CHN_CTL Reg.CHN_CTL_EN = 1 →
      Takes 13 .enumerationStart s (fun t => s.outside t ∧ t.ev = s.ev ∧ t.fl cs Reg.CHN_STAT_ENUMING = 1 ∧ t.fl cs Reg.CHN_STAT_ENUMD = 0 ∧
        t.fl cs Reg.CHN_STAT_RING = 0 ∧ t.fl cs Reg.CHN_STAT_REV = 0 ∧ t.fl cs Reg.CHN_STAT_FULL = 0 ∧ t.chn.wr = s.chn.wr ∧ t.chn.rd = s.chn.rd ∧
        (s.chn.wr = [] → s.chn.rd = [] → t.chn.phase = 2 ∧ t.chn.first = (if s.linked 0 then 0 else 1) ∧ t.fl cs Reg.CHN_STAT_NW = 0 ∧
          (∀ j, 1 ≤ j → j < 32 → t.rd (Reg.CHN_WnSTAT j) = 0) ∧ sends t (if s.linked 0 then 0 else 1) (frame 1 0 0 0 [1])) ∧
        (s.chn.wr ≠ [] ∨ s.chn.rd ≠ [] → t.chn.phase = 1))) ∧
    (s.carries p = true → s.isManager = false → Takes 13 (.enum p n) s (fun t => s.outside t ∧ t.ev = s.ev ∧ s.regsBut t [cs] ∧ t.ownNum = n.val ∧
      t.upPort = p.val ∧ t.fl cs Reg.CHN_STAT_UPLOST = 0 ∧
      sends t p (frame 2 0 n 0 [s.rd Reg.SYS_ID,
        BitVec.ofNat 24 (b2n (!s.linked o) * 2 ^ 23 + p * 2 ^ 22 + b2n (s.linked o && decide (n.val = 31)) * 2 ^ 21 + n)]) ∧
      (s.linked o = true → n.val < 31 → sends t o (frame 1 0 0 0 [BitVec.ofNat 24 (n.val + 1)])))) ∧
    (s.carries p = true → s.isManager = true → s.chn.phase = 2 → s.chn.first ≠ p.val →
      Takes 13 (.enum p n) s (fun t => ended t ∧ t.fl cs Reg.CHN_STAT_RING = 1)) ∧
    (s.carries p = true → s.isManager = true → 1 ≤ n.val → s.chn.first < 2 → s.chn.phase = 2 ∨ s.chn.phase = 3 →
      (let on := if s.chn.phase = 2 then s.chn.first else 1
       let hops := if s.chn.phase = 2 then n.val else n.val - s.chn.found
       Takes 13 (.enumr p sysid fin inport more n) s (fun t => s.outside t ∧ t.heldW n = true ∧ t.portOf n = on ∧
        t.fl (Reg.CHN_WnSTAT n) Reg.CHN_WnSTAT_HOPS = hops ∧ t.rd (Reg.CHN_WnID n) = sysid ∧
        (more = true → ended t ∧ t.fl cs Reg.CHN_STAT_FULL = 1) ∧
        (more = false → fin = false → t.chn.phase = s.chn.phase ∧ t.ev = s.ev) ∧
        (more = false → fin = true →
          (s.chn.phase = 2 → s.chn.first = 0 → s.linked 1 = true → n.val < 31 → t.chn.phase = 3 ∧ t.chn.found = n.val ∧
            sends t 1 (frame 1 0 0 0 [BitVec.ofNat 24 (n.val + 1)])) ∧
          (s.chn.phase = 3 ∨ s.chn.first = 1 ∨ s.linked 1 = false ∨ n.val = 31 → ended t))))) ∧
    (s.islandRuns 8 = true → 2 ≤ s.chn.phase → Gives .enumerationTimeout s ended) ∧
    (s.carries p = true → ((s.isManager = true ∧ dst.val = 0) ∨ (s.isManager = false ∧ s.ownNum ≠ 0 ∧ dst.val = s.ownNum)) →
      (let hit := fun (j : Nat) => s.fl (Reg.CHN_EINk j) Reg.CHN_EINk_V = 1 ∧ s.fl (Reg.CHN_EINk j) Reg.CHN_EINk_SRC = src ∧
        s.fl (Reg.CHN_EINk j) Reg.CHN_EINk_SLOT = slot
       Takes 13 (.evt p dst src slot) s (fun t => s.outside t ∧ (hit k → (0x3C0 + k.val) ∈ t.ev.crossing) ∧
        ((∀ j < 16, ¬ hit j) → t.ev = s.ev ∧ s.regsBut t [Reg.CHN_EMRG] ∧
          t.fl Reg.CHN_EMRG Reg.CHN_EMRG_EDROP = satInc (s.fl Reg.CHN_EMRG Reg.CHN_EMRG_EDROP) 0xFFF)))) ∧
    (s.carries p = true → s.isManager = true → s.fl Reg.CHN_CTL Reg.CHN_CTL_BEN = 1 → s.time.locked = true → s.chn.beacon = true →
      Gives .beaconSend s (fun t => s.outside t ∧ t.chn.beacon = false ∧ uncaught t ∧ (t.port p).last =
        frameChars none (frame 9 0 0 0 [pairLo s.time.dt, pairHi s.time.dt, 0,
          BitVec.ofNat 24 (s.fl Reg.TIME_STAT Reg.TIME_STAT_TQ * 2 ^ 22)]))) ∧
    (s.chn.beacon = false → Gives .beaconSend s (fun t => t = s)) ∧
    (s.carries p = true → s.isManager = false → s.ownNum ≠ 0 → s.upPort = p.val →
      (let dly := s.fl Reg.CHN_TDLY Reg.CHN_TDLY_DLY
       let off : Int := (stamp - s.time.dt).toInt * 20 + corr.toNat + dly + ago.toNat
       let rem := fun (t : State) => (t.rd Reg.TIME_SLEWREM).toInt
       Takes 13 (.beacon p stamp corr tq ago res) s (fun t => t.mem = s.mem ∧ t.thr = s.thr ∧ t.eng = s.eng ∧ t.memc = s.memc ∧
        t.pending = s.pending ∧
        (s.linked o = true → (t.port o).last = frameChars none (frame 9 0 0 0 [pairLo stamp, pairHi stamp,
          BitVec.ofNat 24 (corr.toNat + dly + res.toNat), BitVec.ofNat 24 (tq.val * 2 ^ 22)])) ∧
        ((s.follows && s.chn.dlyOk) = false → s.outside t ∧ uncaught t) ∧
        ((s.follows && s.chn.dlyOk) = true →
          (off < -2000000 → s.outside t ∧ still t ∧ t.fl ts Reg.CHN_TSTAT_AHEAD = 1 ∧ t.rd Reg.TIME_SLEWREM = s.rd Reg.TIME_SLEWREM ∧
            (s.fl ts Reg.CHN_TSTAT_AHEAD = 0 → 0x3B5 ∈ t.ev.crossing)) ∧
          (-2000000 ≤ off → t.fl ts Reg.CHN_TSTAT_AHEAD = 0 ∧ t.fl ts Reg.CHN_TSTAT_BLOST = 0 ∧ t.fl ts Reg.CHN_TSTAT_BTQ = tq) ∧
          (-2000000 ≤ off → off ≤ 2000000 → s.outside t ∧ still t ∧ rem t = (off + 10).fdiv 20) ∧
          (-2000000 ≤ off → off.natAbs ≤ 60 → 15 ≤ s.chn.good → t.fl ts Reg.CHN_TSTAT_LOCK = 1) ∧
          (-2000000 ≤ off → 80 < off.natAbs → 3 ≤ s.chn.poor → t.fl ts Reg.CHN_TSTAT_LOCK = 0) ∧
          (2000000 < off → s.fl ts Reg.CHN_TSTAT_LOCK = 0 → t.fl ts Reg.CHN_TSTAT_JUMPF = 1 ∧
            t.time.dt = BitVec.ofNat 48 (s.time.dt.toNat + ((off + 10).fdiv 20).toNat) ∧
            t.rd Reg.TIME_SLEWREM = s.rd Reg.TIME_SLEWREM))))) ∧
    (s.islandRuns 8 = true → s.isManager = false → Gives .beaconLoss s (fun t => s.outside t ∧ t.time = { s.time with hist := t.time.hist } ∧
      t.fl ts Reg.CHN_TSTAT_BLOST = 1 ∧ t.fl ts Reg.CHN_TSTAT_LOCK = 0 ∧ t.chn = { s.chn with good := 0, poor := 0 } ∧
      (s.fl ts Reg.CHN_TSTAT_LOCK = 1 → t.fl ts Reg.CHN_TSTAT_LOCKF = 1 ∧ 0x3B4 ∈ t.ev.crossing)))

/-- R479, R480, R482–R488, R497. -/
def Obligations.WindowsAndFarSide : Prop :=
  (∀ (e : Fin 128) (i : Fin 4) (a : Access) (s : State),
    let n := windowNo a.pa
    let taken := s.outTo n < 32 ∧ s.chn.wr.length + s.chn.rd.length < 256
    let sends := fun (t : State) (q : Nat) (f : List Word) => s.carries q = true → (s.port q).relay = [] → (s.port q).queue = [] → (s.port q).unack.length < 16 →
      (t.port q).queue = [] ∧ (t.port q).unack = (s.port q).unack ++ [((s.port q).txSeq, f, 1)]
    (s.en e).spine[i.val]? = some a → region a.pa = .chaden → s.maySend e a = true → s.quarantined (e.val / 16) = false →
    (∀ r ∈ s.chn.rd, r.ac.id ≠ a.id) → s.addrFault a.kind a.pa = none → s.islandRuns 8 = true → taken →
    (a.kind = .store → (s.th a.k).infl = [] → (s.th a.k).replay = [] → Takes 13 (.windowWrite e i) s (fun t => t.mem = s.mem ∧ t.thr = s.thr ∧
      t.chn.count = s.chn.count + 1 ∧ (t.en e).spine = (s.en e).spine.filter (fun b => decide (b.id ≠ a.id)) ∧
      SMap.get 0 t.chn.last a.k = BitVec.ofNat 24 (s.chn.count + 1) ∧ t.chn.rd = s.chn.rd ∧
      ∃ w, t.chn.wr = s.chn.wr ++ [w] ∧ w.ord = s.chn.count + 1 ∧ w.worker = n ∧ w.waddr = s.workerAddr a.pa ∧ w.cid = a.cid ∧
        w.thread = a.k ∧ w.data = (if a.pair then [a.d0, a.d1] else [a.d0]) ∧
        sends t (s.portOf n) (frame 3 n 0 a.cid ([s.workerAddr a.pa, BitVec.ofNat 24 (s.chn.count + 1)] ++ w.data)))) ∧
    (a.kind = .load → Takes 13 (.windowRead e i) s (fun t => s.outside t ∧ t.chn.wr = s.chn.wr ∧
      ∃ r, t.chn.rd = s.chn.rd ++ [r] ∧ r.tag < 256 ∧ (∀ x ∈ s.chn.rd, x.tag ≠ r.tag) ∧ r.worker = n ∧ r.eng = e.val ∧ r.ac = a ∧
        sends t (s.portOf n) (frame 4 n 0 a.cid [s.workerAddr a.pa, BitVec.ofNat 24 (b2n a.pair * 2 ^ 23 + r.tag)])))) ∧
  (∀ (p : Fin 2) (src : Fin 32) (pair : Bool) (status : Fin 8) (tag : Fin 256) (d0 d1 seq addr : BitVec 24) (cause : Fin 8) (k : Fin 512)
      (s : State),
    let got := s.carries p = true ∧ s.isManager = true
    let late := fun (r : WindowRd) => r.since + 100 * max 1 (s.fl Reg.CHN_CTL Reg.CHN_CTL_RTO) ≤ s.time.ticks
    let rest := fun (r : WindowRd) (t : State) => t.mem = s.mem ∧ t.chn.rd = s.chn.rd.filter (fun x => decide (x.tag ≠ r.tag)) ∧
      t.chn.wr = s.chn.wr
    let failed := fun (w : PostedWr) (c : Nat) (t : State) => s.outside t ∧ t.chn.wr = s.chn.wr.filter (fun x => decide (x.ord ≠ w.ord)) ∧
      (let j := s.fl Reg.CHN_FLHEAD Reg.CHN_FLHEAD_HEAD
       t.rd (Reg.CHN_FLAi j) = BitVec.ofNat 24 w.ord ∧ t.rd (Reg.CHN_FLBi j) = w.waddr ∧
       t.rd (Reg.CHN_FLCi j) = BitVec.ofNat 24 (2 ^ 23 + c * 2 ^ 20 + w.worker * 2 ^ 15 + w.cid) ∧
       t.fl Reg.CHN_FLHEAD Reg.CHN_FLHEAD_HEAD = (j + 1) % 32) ∧
      t.rd Reg.CHN_FLCNT = BitVec.ofNat 24 (satInc (s.rd Reg.CHN_FLCNT).toNat 0xFFFFFF) ∧
      SMap.get 0 t.chn.fails w.thread = SMap.get 0 s.chn.fails w.thread + 1 ∧ (s.pwr.state < 2 → s.failEvent w.cid ∈ t.ev.crossing)
    (∀ r, s.chn.rd.find? (fun r => decide (r.tag = tag.val)) = some r →
      (∀ x : Infl, r.eng < 128 → (s.th r.ac.k).infl = [x] → x.id = r.ac.id → x.st = .waiting → r.ac.kind = .load → r.ac.pair = false →
        (s.th r.ac.k).ctx.pend = [(r.ac.rd, r.ac.id)] → r.ac.rd ≠ 0 → (s.th r.ac.k).haltReq = 0 → (s.th r.ac.k).stepping = false →
        (r.worker = src.val → status.val = 0 → got → Takes 13 (.rdr p src pair status tag d0 d1) s (fun t => rest r t ∧ (t.th r.ac.k).infl = [] ∧
          (∀ q, (t.th r.ac.k).ctx.peekG q = if q = 0 then 0 else if q = r.ac.rd then d0 else (s.th r.ac.k).ctx.peekG q) ∧
          ∀ j, j ≠ r.ac.k → (t.th j).ctx = (s.th j).ctx)) ∧
        (late r → Gives (.readTimeout tag) s (fun t => rest r t ∧ (t.th r.ac.k).infl = [] ∧
          ((s.th r.ac.k).levels.length < 16 → x.snap.slot = none → ∃ l, (t.th r.ac.k).levels = l :: (s.th r.ac.k).levels ∧ l.xpc = x.snap.pc ∧
            l.xaddr = r.ac.va ∧ l.xcause = BitVec.ofNat 24 (0x100 + Cause.bus.code))))) ∧
      (r.eng = 128 → (r.worker = src.val → got → Takes 13 (.rdr p src pair status tag d0 d1) s (fun t => rest r t ∧ s.outside t ∧
          t.lp.addr = r.ac.va ∧ t.lp.code = (if status.val = 0 then 0 else if status.val = 4 then 5 else 4) ∧
          (status.val = 0 → t.lp.data = d0))) ∧
        (late r → Gives (.readTimeout tag) s (fun t => rest r t ∧ s.outside t ∧ t.lp.code = 4)))) ∧
    (got → Takes 13 (.wack p src seq) s (fun t => s.outside t ∧ t.ev = s.ev ∧ t.chn.rd = s.chn.rd ∧ t.chn.fails = s.chn.fails ∧
      t.chn.wr = s.chn.wr.filter (fun w => !(decide (w.worker = src.val) && decide ((seq - BitVec.ofNat 24 w.ord).toNat < 2 ^ 23))))) ∧
    (∀ w, got → s.chn.wr.find? (fun w => decide (w.worker = src.val ∧ BitVec.ofNat 24 w.ord = seq)) = some w →
      Takes 13 (.wfail p src seq addr cause) s (failed w cause)) ∧
    (∀ w, s.chn.wr.find? (fun w => decide (BitVec.ofNat 24 w.ord = seq)) = some w →
      w.since + 10000 * max 1 (s.fl Reg.CHN_CTL Reg.CHN_CTL_WTO) ≤ s.time.ticks → Gives (.writeTimeout seq) s (failed w 5)) ∧
    (∀ x, s.chn.drains.find? (fun x => decide (x.thread = k.val ∧ x.depth = (s.th k).depth)) = some x →
      (let early := (∃ w ∈ s.chn.wr, w.thread = k.val ∧ w.acc < x.acc) ∨
        (∃ a ∈ (s.en (k.val / 4)).spine, a.k = k.val ∧ a.id < x.acc ∧ a.kind = .store ∧ region a.pa = .chaden)
       Gives (.chnDrainComplete k) s (fun t => (early → t = s) ∧ (¬ early → t.mem = s.mem ∧ (∀ a, t.rd a = s.rd a) ∧ t.ev = s.ev ∧
        SMap.get 0 t.chn.dval k = min (SMap.get 0 s.chn.fails k) 255 ∧ SMap.get 0 t.chn.fails k = 0 ∧ x ∉ t.chn.drains ∧
        (t.th k).mode = (if (s.th k).mode = .drain then .run else (s.th k).mode) ∧ (t.th k).ctx = (s.th k).ctx ∧
        ∀ j, j ≠ k.val → t.th j = s.th j))))) ∧
  (∀ (p : Fin 2) (cid : Fin 1024) (a seq d0 d1 w0 w1 : BitVec 24) (dst : Fin 32) (tag : Fin 256) (pair ue ok tck : Bool) (s : State),
    let pa := a.toNat
    let inWin := fun (q : Nat) (wr : Bool) => if cid.val = 0 then q < 0xF00000 ∨ s.fl Reg.CHN_FCTL Reg.CHN_FCTL_KREG = 1
      else ∃ j < 8, s.fl (Reg.CHN_FRkCTL j) Reg.CHN_FRkCTL_V = 1 ∧ s.fl (Reg.CHN_FRkCTL j) Reg.CHN_FRkCTL_CID = cid ∧
        s.fl (Reg.CHN_FRkCTL j) (if wr then Reg.CHN_FRkCTL_W else Reg.CHN_FRkCTL_R) = 1 ∧
        s.fl (Reg.CHN_FRkBASE j) Reg.CHN_FRkBASE_BASE ≤ q / 0x400 ∧ q / 0x400 ≤ s.fl (Reg.CHN_FRkLIM j) Reg.CHN_FRkLIM_LIM
    let permits := fun (wr : Bool) => inWin pa wr ∧ (pair = true → inWin (pa + 1) wr)
    let inSram := sramRegion pa = true ∧ s.closed pa = false ∧ (pair = true → sramRegion (pa + 1) = true ∧ s.closed (pa + 1) = false)
    let sends := fun (t : State) (f : List Word) => s.carries s.upPort = true → (s.port s.upPort).relay = [] → (s.port s.upPort).queue = [] →
      (s.port s.upPort).unack.length < 16 →
      (t.port s.upPort).queue = [] ∧ (t.port s.upPort).unack = (s.port s.upPort).unack ++ [((s.port s.upPort).txSeq, f, 1)]
    let refused := fun (t : State) => s.outside t ∧ 0x3B7 ∈ t.ev.crossing ∧
      t.fl Reg.CHN_FCTL Reg.CHN_FCTL_FREFCNT = satInc (s.fl Reg.CHN_FCTL Reg.CHN_FCTL_FREFCNT) 255
    let wfail := fun (t : State) (c : Nat) => sends t (frame 7 0 s.ownNum 0 [seq, a, BitVec.ofNat 24 c])
    let rdr := fun (t : State) (st : Nat) (ds : List Word) =>
      sends t (frame 5 0 s.ownNum 0 (BitVec.ofNat 24 (b2n pair * 2 ^ 23 + st * 2 ^ 20 + tag) :: ds))
    let en := s.fl Reg.CHN_FCTL Reg.CHN_FCTL_EN = 1
    s.carries p = true → s.isManager = false → s.ownNum ≠ 0 → dst.val = s.ownNum →
    (∀ q, s.chn.farSeq = some q → (q - seq).toNat < 2 ^ 23 → Takes 13 (.wr p dst cid a seq d0 d1 pair ue ok tck) s (fun t => s.outside t ∧
      (∀ r, t.rd r = s.rd r) ∧ t.chn.farSeq = s.chn.farSeq ∧ sends t (frame 6 0 s.ownNum 0 [q]))) ∧
    ((∀ q, s.chn.farSeq = some q → 2 ^ 23 ≤ (q - seq).toNat) →
      (¬ en → Takes 13 (.wr p dst cid a seq d0 d1 pair ue ok tck) s (fun t => refused t ∧ wfail t 1)) ∧
      (en → ¬ permits true → Takes 13 (.wr p dst cid a seq d0 d1 pair ue ok tck) s (fun t => refused t ∧ wfail t 2)) ∧
      (en → permits true → ue = true → Takes 13 (.wr p dst cid a seq d0 d1 pair ue ok tck) s (fun t => s.outside t ∧ wfail t 4)) ∧
      (en → permits true → ue = false → inSram → Takes 13 (.wr p dst cid a seq d0 d1 pair ue ok tck) s (fun t =>
        t.cell pa = .good d0 ∧ (pair = true → t.cell (pa + 1) = .good d1) ∧ (∀ q, q ≠ pa → (pair = true → q ≠ pa + 1) → t.cell q = s.cell q) ∧
        s.sameThr t ∧ (∀ e, (t.en e).spine = (s.en e).spine) ∧ t.chn.farSeq = some seq ∧ (s.chn.farN < 15 → t.chn.farN = s.chn.farN + 1) ∧
        (15 ≤ s.chn.farN → t.chn.farN = 0 ∧ sends t (frame 6 0 s.ownNum 0 [seq]))))) ∧
    (∀ ws, s.chn.farRsp.find? (fun r => decide (r.1 = tag.val)) = some (tag.val, ws) → Takes 13 (.rd p dst cid a tag pair ue ok tck) s
      (fun t => s.outside t ∧ (∀ r, t.rd r = s.rd r) ∧ sends t (frame 5 0 s.ownNum 0 ws))) ∧
    (s.chn.farRsp.find? (fun r => decide (r.1 = tag.val)) = none →
      (¬ en → Takes 13 (.rd p dst cid a tag pair ue ok tck) s (fun t => refused t ∧ rdr t 1 [])) ∧
      (en → ¬ permits false → Takes 13 (.rd p dst cid a tag pair ue ok tck) s (fun t => refused t ∧ rdr t 2 [])) ∧
      (en → permits false → ue = false → inSram → s.cell pa = .good w0 → (pair = true → s.cell (pa + 1) = .good w1) →
        Takes 13 (.rd p dst cid a tag pair ue ok tck) s (fun t => t.mem = s.mem ∧ t.thr = s.thr ∧ t.eng = s.eng ∧
          rdr t 0 (if pair then [w0, w1] else [w0])))) ∧
    (s.chn.farN ≠ 0 → ∀ q, s.chn.farSeq = some q → Gives .wackTimer s (fun t => s.outside t ∧ (∀ r, t.rd r = s.rd r) ∧ t.chn.farN = 0 ∧
      sends t (frame 6 0 s.ownNum 0 [q]))))

/-- R504–R509, R511–R513, R515–R517. Voltages in 10 mV, charge in µC, capacitance in µF. -/
def Obligations.SupplyAndPlan : Prop :=
  (∀ (k : Fin 5) (v : BitVec 24) (s : State),
    let step := fun (t : State) => t.fl Reg.PWR_SHSTAT Reg.PWR_SHSTAT_STEP
    let still := fun (t : State) => t.mem = s.mem ∧ t.thr = s.thr ∧ t.eng = s.eng ∧ t.pending = s.pending ∧
      t.bz = { s.bz with caps := t.bz.caps } ∧ ∀ c, t.cap c = { s.cap c with waitc := (t.cap c).waitc }
    let raised := fun (t : State) (e : Nat) => s.pwr.state < 2 → e ∈ t.ev.router
    let force := s.fl Reg.PWR_SHCFG Reg.PWR_SHCFG_FORCE
    let moved := fun (n : Nat) (t : State) => still t ∧ step t = n ∧ t.pwr.vinStep ≤ 4 ∧
      (∀ j, step s < j → j ≤ n → (t.rd Reg.PWR_SHSTAT).getLsbD (17 + j) = true ∧ raised t (0x03F + j) ∧
        t.rd (Reg.PWR_SHCNTk j) = BitVec.ofNat 24 (satInc (s.rd (Reg.PWR_SHCNTk j)).toNat 0xFFFFFF)) ∧
      (step s = 0 → 1 ≤ n → s.pwr.state < 2 → t.fl Reg.BZ_SHED Reg.BZ_SHED_ACT = 1) ∧
      (1 ≤ step s → n = 0 → raised t 0x044 ∧ (s.pwr.state < 2 → t.fl Reg.BZ_SHED Reg.BZ_SHED_ACT = 0))
    s.pwr.vinStep ≤ 4 → step s ≤ 4 →
    Gives (.shedStepEnter k) s (fun t => moved (max (max s.pwr.vinStep (min (k.val + 1) 4)) force) t ∧
      (k = 4 → t.pwr.vinLow = true ∧ (s.fl Reg.HOLD_STAT Reg.HOLD_STAT_EXH = 1 → s.pwr.state < 2 → s.entering = false → t.entering = true ∧
        t.pwr.tgt = 3 ∧ t.pwr.forced = true))) ∧
    Gives (.shedStepLeave k) s (fun t => moved (max (min s.pwr.vinStep k) force) t ∧ t.pwr.vinLow = false ∧
      (k = 0 → s.wakeEn 7 = true → s.pwr.state ≠ 0 → t.pwr.wake = true ∧ (t.rd Reg.AWU_WCAUSE).getLsbD 7 = true)) ∧
    Gives (.shedForce v) s (fun t => moved (max s.pwr.vinStep (getBits v 5 4)) t ∧ t.rd Reg.PWR_SHCFG = v &&& 0x000037)) ∧
  (∀ (vin vsys vh : BitVec 13) (i dq : BitVec 24) (rail : Fin 4) (s : State),
    let hs := Reg.HOLD_STAT
    let st := fun (t : State) => t.fl hs Reg.HOLD_STAT_STATE
    let cap := (s.rd Reg.HOLD_CAP).toNat
    let exh := fun (t : State) =>
      let v := t.fl Reg.HOLD_VH Reg.HOLD_VH_VH
      let c := (t.rd Reg.HOLD_CAP).toNat
      let q := (t.rd Reg.HOLD_Q).toNat
      let r := (t.rd Reg.HOLD_RES).toNat
      v ≤ 600 ∨ (c ≠ 0 ∧ (c * (v * v - 360000) ≤ r * 20000000 ∨ q * q - 36 * c * c ≤ 2000 * c * r))
    let raised := fun (t : State) (e : Nat) => s.pwr.state < 2 → e ∈ t.ev.router
    let target := min (50 * min 72 (max 20 (s.fl Reg.HOLD_CTL Reg.HOLD_CTL_VTGT))) (s.fl Reg.PWR_VIN Reg.PWR_VIN_VIN - 100)
    (s.pwr.ride = false → s.fl Reg.HOLD_CTL Reg.HOLD_CTL_RTEN = 1 → s.fl hs Reg.HOLD_STAT_EXH = 0 → ¬ exh s →
      Gives .vsysCollapse s (fun t => s.outside t ∧ s.regsBut t [hs, Reg.HOLD_CNT] ∧ t.pwr.ride = true ∧ st t = 3 ∧ raised t 0x052 ∧
        t.fl Reg.HOLD_CNT Reg.HOLD_CNT_RT = satInc (s.fl Reg.HOLD_CNT Reg.HOLD_CNT_RT) 0xFFF)) ∧
    (exh s → s.fl hs Reg.HOLD_STAT_EXH = 0 → Gives .holdupExhausted s (fun t => s.outside t ∧ t.fl hs Reg.HOLD_STAT_EXH = 1 ∧ raised t 0x054 ∧
      t.pwr.ride = false ∧ (s.pwr.ride = true → raised t 0x053) ∧
      (s.pwr.vinLow = true → s.pwr.state < 2 → s.entering = false → t.entering = true ∧ t.pwr.tgt = 3 ∧ t.pwr.forced = true ∧
        t.rd Reg.PWR_FORCECNT = BitVec.ofNat 24 (satInc (s.rd Reg.PWR_FORCECNT).toNat 0xFFFFFF)))) ∧
    (¬ exh s ∨ s.fl hs Reg.HOLD_STAT_EXH = 1 → Gives .holdupExhausted s (fun t => t = s)) ∧
    (s.fl Reg.PWR_SHSTAT Reg.PWR_SHSTAT_VINHI = 0 → Gives .vinHigh s (fun t => s.outside t ∧ t.fl Reg.PWR_SHSTAT Reg.PWR_SHSTAT_VINHI = 1 ∧
      t.fl Reg.PWR_SHSTAT Reg.PWR_SHSTAT_VINHIF = 1 ∧ raised t 0x045 ∧ (st s = 1 ∨ st s = 2 → st t = 0) ∧ s.regsBut t [hs, Reg.PWR_SHSTAT])) ∧
    Gives .vinhiEnd s (fun t => s.outside t ∧ t.fl Reg.PWR_SHSTAT Reg.PWR_SHSTAT_VINHI = 0 ∧ s.regsBut t [hs, Reg.PWR_SHSTAT] ∧ t.ev = s.ev ∧
      (st s = 0 → s.fl Reg.HOLD_CTL Reg.HOLD_CTL_EN = 1 → s.fl Reg.PWR_SHSTAT Reg.PWR_SHSTAT_STEP = 0 → s.pwr.ride = false →
        s.pwr.chgStop = false → st t = 1)) ∧
    (st s = 1 →
      Gives .chargerFull s (fun t => s.outside t ∧ s.regsBut t [hs] ∧ st t = 2 ∧ raised t 0x050 ∧ t.pwr.chgDone = true ∧
        t.pwr.chgQ = (s.rd Reg.HOLD_Q).toNat - s.pwr.chgQ ∧ t.pwr.chgV = s.fl Reg.HOLD_VH Reg.HOLD_VH_VH - s.pwr.chgV) ∧
      (s.fl Reg.HOLD_VH Reg.HOLD_VH_VH + 100 < target → 1000 ≤ s.pwr.chgMs → Gives .chargerFault s (fun t => s.outside t ∧ s.regsBut t [hs] ∧
        st t = 4 ∧ t.fl hs Reg.HOLD_STAT_FAULTF = 1 ∧ raised t 0x056 ∧ t.pwr.chgDone = false ∧ t.pwr.chgStop = true))) ∧
    (let q' := BitVec.ofInt 24 (max 0 (min 0xFFFFFF ((s.rd Reg.HOLD_Q).toNat + dq.toInt)))
     let ev := cap * (vh.toNat * vh.toNat - 360000) / 20000000
     let eq := if cap = 0 then 0 else (q'.toNat * q'.toNat - 36 * cap * cap) / (2000 * cap)
     let lowe := (s.rd Reg.HOLD_LOWE).toNat
     Gives (.holdMeasure vin vsys vh i dq) s (fun t => s.outside t ∧ t.fl Reg.PWR_VIN Reg.PWR_VIN_VIN = vin.toNat ∧
      t.fl Reg.PWR_VSYS Reg.PWR_VSYS_VSYS = vsys.toNat ∧ t.fl Reg.HOLD_VH Reg.HOLD_VH_VH = vh.toNat ∧ t.rd Reg.HOLD_I = i ∧
      t.rd Reg.HOLD_Q = q' ∧ t.fl Reg.PWR_VINMIN Reg.PWR_VINMIN_VIN = min (s.fl Reg.PWR_VINMIN Reg.PWR_VINMIN_VIN) vin.toNat ∧
      (ev < 2 ^ 24 → t.rd Reg.HOLD_EV = BitVec.ofNat 24 ev) ∧ (eq < 2 ^ 24 → t.rd Reg.HOLD_EQ = BitVec.ofNat 24 eq) ∧
      (min eq ev < 2 ^ 24 → t.rd Reg.HOLD_E = BitVec.ofNat 24 (min eq ev)) ∧
      (lowe ≠ 0 → lowe ≤ (s.rd Reg.HOLD_E).toNat → min eq ev < lowe → raised t 0x051) ∧
      (¬ exh t → t.fl hs Reg.HOLD_STAT_EXH = 0) ∧
      (i.toInt ≤ -20 ∨ 20 ≤ i.toInt ∨ s.pwr.ride = true → t.pwr.restMs = 0 ∧ t.fl hs Reg.HOLD_STAT_REST = 0))) ∧
    (s.pwr.chgDone = true → 200 ≤ s.pwr.chgV → s.pwr.chgQ * 100 / s.pwr.chgV < 2 ^ 24 → Gives .chargeMeasurement s (fun t => s.outside t ∧
      s.regsBut t [Reg.HOLD_CMEAS, hs] ∧ t.rd Reg.HOLD_CMEAS = BitVec.ofNat 24 (s.pwr.chgQ * 100 / s.pwr.chgV) ∧ t.fl hs Reg.HOLD_STAT_CMV = 1 ∧
      t.pwr = { s.pwr with chgDone := false, chgQ := 0, chgV := 0 } ∧ t.ev = s.ev)) ∧
    (10000 ≤ s.pwr.restMs → s.disagree = true → s.pwr.chgDone = false →
      (let c := if s.fl hs Reg.HOLD_STAT_CMV = 1 then (s.rd Reg.HOLD_CMEAS).toNat else cap
       let q := BitVec.ofNat 24 (min 0xFFFFFF (c * s.fl Reg.HOLD_VH Reg.HOLD_VH_VH / 100))
       Gives .holdRebase s (fun t => s.outside t ∧ t.rd Reg.HOLD_RBOLD = s.rd Reg.HOLD_Q ∧ t.rd Reg.HOLD_RBNEW = q ∧ t.rd Reg.HOLD_Q = q ∧
        (t.rd Reg.HOLD_CAP).toNat = c ∧ raised t 0x055 ∧ t.fl Reg.HOLD_CNT Reg.HOLD_CNT_RB = satInc (s.fl Reg.HOLD_CNT Reg.HOLD_CNT_RB) 0xFFF ∧
        s.regsBut t [Reg.HOLD_RBOLD, Reg.HOLD_RBNEW, Reg.HOLD_Q, Reg.HOLD_CAP, Reg.HOLD_CNT] ∧ t.pwr = { s.pwr with restMs := 0 }))) ∧
    (s.pwr.restMs < 10000 → Gives .holdRebase s (fun t => t = s)) ∧
    Gives (.regulatorLimit rail) s (fun t => s.outside t ∧ s.regsBut t [Reg.PWR_REGSTAT] ∧ (t.rd Reg.PWR_REGSTAT).getLsbD (23 - rail.val) = true ∧
      raised t 0x047)) ∧
  (∀ (d : Fin 9) (v : BitVec 24) (s : State),
    let lim := min (s.fl (Reg.PWR_PLn d) Reg.PWR_PLn_REQ) s.planCap
    let may := fun (p : Nat) => p < 8 ∧ s.fl (Reg.ASY_MPdp d p) Reg.ASY_MPdp_RET = 0
    ((∃ p, may p ∧ p ≤ lim) → may (s.planTarget d) ∧ s.planTarget d ≤ lim ∧ ∀ p, may p → p ≤ lim → p ≤ s.planTarget d) ∧
    ((∃ p, may p) → (∀ p, may p → lim < p) → may (s.planTarget d) ∧ ∀ p, may p → s.planTarget d ≤ p) ∧
    Gives (.planLevelRequest d v) s (fun t => s.outside t ∧ t.ev = s.ev ∧ t.fl (Reg.PWR_PLn d) Reg.PWR_PLn_REQ = v.toNat % 8 ∧
      (∀ e < 9, t.planLevel e = s.planLevel e ∧ (e ≠ d.val → t.fl (Reg.PWR_PLn e) Reg.PWR_PLn_REQ = s.fl (Reg.PWR_PLn e) Reg.PWR_PLn_REQ) ∧
        (∀ p, s.planGoal e = some p → t.planGoal e = some p) ∧ (s.planGoal e = none → t.planTarget e = t.planLevel e → t.planGoal e = none) ∧
        (s.planGoal e = none → t.planTarget e ≠ t.planLevel e → t.planGoal e = some (t.planTarget e) ∧
          t.fl (Reg.PWR_PLn e) Reg.PWR_PLn_BUSY = 1))) ∧
    (s.planGoal d = none → Gives (.planLevelChange d) s (fun t => t = s)) ∧
    (∀ p, p < 8 → s.planGoal d = some p → Gives (.planLevelChange d) s (fun t => t.mem = s.mem ∧ t.thr = s.thr ∧ t.eng = s.eng ∧
      (d.val < 8 → s.outside t) ∧ t.planLevel d = (if s.retired d p then s.planTarget d else p) ∧
      (∀ e < 9, e ≠ d.val → t.planLevel e = s.planLevel e) ∧
      (∀ e < 9, t.fl (Reg.PWR_PLn e) Reg.PWR_PLn_REQ = s.fl (Reg.PWR_PLn e) Reg.PWR_PLn_REQ) ∧
      (s.pwr.state < 2 → ∃ l, t.ev.router = l ++ [0x046]))))

/-- R556–R559, R561–R565, R570. -/
def Obligations.FaultContainment : Prop :=
  (∀ (k : Fin 512) (c : Fin 8) (volt : Bool) (v : BitVec 24) (s : State),
    let logs := fun (t : State) (kind thread detail : Nat) (info : Word) =>
      let i := s.fl Reg.FLT_HEAD Reg.FLT_HEAD_HEAD
      t.rd (Reg.FLT_LAi i) = BitVec.ofNat 24 (2 ^ 23 + kind * 2 ^ 18 + thread * 2 ^ 9 + detail) ∧ t.rd (Reg.FLT_LBi i) = info
    let th := s.th k
    let raised := fun (t : State) (e : Nat) => s.pwr.state < 2 → e ∈ t.ev.router
    (th.stall = false → Gives (.stall k) s (fun t => t = s)) ∧
    (th.stall = true → s.fl (Reg.ENG_STALL (k / 4)) Reg.ENG_STALL_STALL_T ≠ 0 → s.time.locked = true → s.pwr.state = 0 → th.mode = .run ∨ th.mode = .sync →
      th.halt = 0 → s.holdOf k = 0 → th.rom = false → th.depth < 16 → th.stepping = false →
      (let a := match th.infl with
        | h :: _ => (match (s.en (k.val / 4)).spine.find? (fun x => x.id == h.id) with
          | some x => x.va
          | none => match h.snap.slot with | some sl => sl.xferAt | none => h.snap.pc)
        | [] => match th.ctx.slot with | some sl => sl.xferAt | none => th.ctx.pc
       Gives (.stall k) s (fun t => s.sameMem t ∧ logs t 2 k 0 a ∧
        t.rd Reg.FLT_CNT2 = BitVec.ofNat 24 (satInc (s.rd Reg.FLT_CNT2).toNat 0xFFFFFF) ∧
        (∃ l, (t.th k).levels = l :: th.levels ∧ l.xaddr = a ∧ l.xcause = BitVec.ofNat 24 Cause.stall.code) ∧ (t.th k).infl = [] ∧
        (t.th k).ctx.pc = s.rd (Reg.EVI_TtXVEC (k.val / 4) (k.val % 4)) ∧ (t.th k).bind.prv = true ∧
        ∀ j, j ≠ k.val → (t.th j).ctx = (s.th j).ctx))) ∧
    (s.quarantined c = false → s.pwr.state = 0 → volt = true ∨ s.time.locked = true → Gives (.clusterFault c volt) s (fun t =>
      t.mem = s.mem ∧ t.quarantined c = true ∧ (∀ d < 8, d ≠ c.val → t.quarantined d = s.quarantined d) ∧
      (∀ j, t.th j = if j / 64 = c.val then Thread.off else s.th j) ∧
      (∀ e, (t.en e).spine = if e / 16 = c.val then [] else (s.en e).spine) ∧
      logs t 7 0x1FF c (BitVec.ofNat 24 (b2n volt)) ∧ 0x003 ∈ t.ev.router ∧
      t.fl Reg.FLT_CNT1 Reg.FLT_CNT1_CL = satInc (s.fl Reg.FLT_CNT1 Reg.FLT_CNT1_CL) 255 ∧
      (∀ n < 32, s.pairArmed n = true → s.fl (Reg.SP_nCTL n) Reg.SP_nCTL_PRI / 64 = c.val →
        (s.fl (Reg.SP_nCAP n) Reg.SP_nCAP_TRIG).testBit 5 = true → SMap.get none s.flt.trig n = none → SMap.get none t.flt.trig n = some 5))) ∧
    (let d := v.toNat % 8
     (s.quarantined d = true → d ∉ s.flt.readm → Gives (.readmit v) s (fun t => s.outside t ∧ (∀ a, t.rd a = s.rd a) ∧ t.ev = s.ev ∧
        t.flt = { s.flt with readm := s.flt.readm ++ [d] })) ∧
     (s.quarantined d = false ∨ d ∈ s.flt.readm → Gives (.readmit v) s (fun t => t = s))) ∧
    (c.val ∈ s.flt.readm → Gives (.readmitComplete c) s (fun t => t.quarantined c = false ∧ c.val ∉ t.flt.readm ∧
      (∀ j, t.th j = if j / 64 = c.val then Thread.off else s.th j) ∧
      (∀ e, t.en e = if e / 16 = c.val then Engine.init else s.en e) ∧
      (∀ a, t.cell a = if clusterOf a = some c.val then memDflt a else s.cell a) ∧
      (∀ a, clusterOf a = some c.val → a ≠ Reg.ENG_TCTL 0 → t.rd a = regReset a) ∧ t.rd (Reg.ENG_TCTL 0) = (if c.val = 0 then 0 else s.rd (Reg.ENG_TCTL 0)) ∧
      logs t 12 0x1FF c 0 ∧ raised t 0x004)) ∧
    (c.val ∉ s.flt.readm → Gives (.readmitComplete c) s (fun t => t = s))) ∧
  (∀ (n : Fin 32) (v : BitVec 24) (s : State),
    let ctl := Reg.SP_nCTL n
    let cap := Reg.SP_nCAP n
    let st := Reg.SP_nSTAT n
    let pri := v.toNat / 512 % 512
    let shd := v.toNat % 512
    let cid := s.fl cap Reg.SP_nCAP_CID
    let u := s.fl cap Reg.SP_nCAP_UNIT
    let logs := fun (t : State) (kind thread detail : Nat) (info : Word) =>
      let i := s.fl Reg.FLT_HEAD Reg.FLT_HEAD_HEAD
      t.rd (Reg.FLT_LAi i) = BitVec.ofNat 24 (2 ^ 23 + kind * 2 ^ 18 + thread * 2 ^ 9 + detail) ∧ t.rd (Reg.FLT_LBi i) = info
    let raised := fun (t : State) (e : Nat) => s.pwr.state < 2 → e ∈ t.ev.router
    let fails := fun (r : Nat) => Gives (.pairArm n v) s (fun t => s.outside t ∧ s.regsBut t [ctl, st] ∧ t.pairArmed n = false ∧
      t.fl st Reg.SP_nSTAT_FAILF = 1 ∧ t.fl st Reg.SP_nSTAT_REASON = r ∧ raised t 0x002)
    let trig := fun (t : State) (m : Nat) => SMap.get none t.flt.trig m
    ((s.th shd).mode ≠ .off → s.quarantined (shd / 64) = false → fails 1) ∧
    (s.quarantined (shd / 64) = true → fails 2) ∧
    ((s.th shd).mode = .off → s.quarantined (shd / 64) = false →
      (cid = 0 ∨ s.capState cid ≠ 3 → fails 3) ∧
      (cid ≠ 0 → s.capState cid = 3 →
        (pri / 64 = shd / 64 → fails 4) ∧
        (pri / 64 ≠ shd / 64 →
          (s.fl (Reg.STR_CKuCTL u) Reg.STR_CKuCTL_EN = 0 ∨ (s.desc cid 16).getLsbD 23 = false → fails 5) ∧
          (s.fl (Reg.STR_CKuCTL u) Reg.STR_CKuCTL_EN = 1 → (s.desc cid 16).getLsbD 23 = true →
            s.fl (Reg.STR_CKuCTL u) Reg.STR_CKuCTL_STRAND = (s.desc cid 16).toNat % 512 →
            ((∃ m < 32, m ≠ n.val ∧ s.pairArmed m = true ∧ s.fl (Reg.SP_nCTL m) Reg.SP_nCTL_PRI = pri) → fails 6) ∧
            ((∀ m ∈ s.armedPairs, m ≠ n.val → s.fl (Reg.SP_nCTL m) Reg.SP_nCTL_PRI ≠ pri ∧ s.fl (Reg.SP_nCTL m) Reg.SP_nCTL_SHD ≠ shd ∧
                s.fl (Reg.SP_nCAP m) Reg.SP_nCAP_CID ≠ cid) →
              Gives (.pairArm n v) s (fun t => s.outside t ∧ s.regsBut t [ctl] ∧ t.ev = s.ev ∧ t.pairArmed n = true ∧
                t.fl ctl Reg.SP_nCTL_PRI = pri ∧ t.fl ctl Reg.SP_nCTL_SHD = shd ∧ trig t n = none)))))) ∧
    Gives (.pairDisarm n v) s (fun t => s.outside t ∧ s.regsBut t [ctl] ∧ t.ev = s.ev ∧ t.rd ctl = v &&& 0x3BFFFF ∧ trig t n = none ∧
      ∀ m, m ≠ n.val → trig t m = trig s m) ∧
    (n.val ∉ s.flt.ckDue → Gives (.ckmiss n) s (fun t => t = s)) ∧
    (n.val ∈ s.flt.ckDue → s.pairArmed n = true → s.pwr.state = 0 →
      Gives (.ckmiss n) s (fun t => s.outside t ∧ n.val ∉ t.flt.ckDue ∧ logs t 8 (s.fl ctl Reg.SP_nCTL_PRI) n
          (BitVec.ofNat 24 (s.fl (Reg.STR_CKuSTAT u) Reg.STR_CKuSTAT_SEQ)) ∧ 0x000 ∈ t.ev.router ∧
        trig t n = (if (s.fl cap Reg.SP_nCAP_TRIG).testBit 6 && (trig s n).isNone then some 6 else trig s n))) ∧
    (let m := v.toNat % 32
     Gives (.fltTake v) s (fun t => s.outside t ∧ (∀ a, t.rd a = s.rd a) ∧ t.ev = s.ev ∧
      trig t m = if s.pairArmed m && (trig s m).isNone then some 7 else trig s m)) ∧
    (∀ code, trig s n = some code → s.pairArmed n = true →
      (let p := s.fl ctl Reg.SP_nCTL_PRI
       let d := s.fl ctl Reg.SP_nCTL_SHD
       let g := s.fl ctl Reg.SP_nCTL_HGRP
       let begun := fun (t : State) => (∀ a, s.landLast u ≠ some a → t.cell a = s.cell a) ∧ trig t n = none ∧ (t.rd Reg.CL_HOLD).getLsbD g = true ∧
        (p ≠ d → (t.rd (Reg.ENG_TCTL (p / 4))).getLsbD (p % 4) = false) ∧ t.epoch cid = (s.epoch cid + 1) % 16
       ((s.th d).mode = .off → s.quarantined (d / 64) = false → cid ≠ 0 → s.capState cid = 3 →
        Gives (.takeover n) s (fun t => begun t ∧ t.rd (Reg.BZ_TSTARTk d) = BitVec.ofNat 24 cid ∧
          t.rd (Reg.ENG_TnSTART (d / 4) (d % 4)) = s.desc cid 7 ∧ (t.rd (Reg.ENG_TCTL (d / 4))).getLsbD (d % 4) = true ∧
          t.pairArmed n = false ∧ t.fl ctl Reg.SP_nCTL_EN = 0 ∧ (∃ sq ln, SMap.get none t.flt.took n = some (code, sq, ln)) ∧
          (t.th d).ctx.peekG 3 = BitVec.ofNat 24 ((s.epoch cid + 1) % 16))) ∧
       (s.quarantined (d / 64) = true → Gives (.takeover n) s (fun t => begun t ∧ t.fl st Reg.SP_nSTAT_FAILF = 1 ∧
          t.fl st Reg.SP_nSTAT_REASON = 2 ∧ SMap.get none t.flt.took n = SMap.get none s.flt.took n)))) ∧
    (∀ code sq ln, SMap.get none s.flt.took n = some (code, sq, ln) → code < 8 → sq < 8192 → Gives (.takeoverComplete n) s (fun t =>
      s.outside t ∧ t.fl st Reg.SP_nSTAT_TOOK = 1 ∧ t.fl st Reg.SP_nSTAT_TRIG = code ∧ t.fl st Reg.SP_nSTAT_SEQ = sq ∧
      t.fl Reg.FLT_CNT1 Reg.FLT_CNT1_TK = satInc (s.fl Reg.FLT_CNT1 Reg.FLT_CNT1_TK) 255 ∧ SMap.get none t.flt.took n = none ∧
      logs t 9 (s.fl ctl Reg.SP_nCTL_SHD) n (BitVec.ofNat 24 (code * 2 ^ 21 + sq * 2 ^ 8 + ln)) ∧ raised t 0x001)))

/-- R571–R575, R577, R578. Counts are per 1 ms, margins in 0.01 %, temperatures in 0.125 °C. -/
def Obligations.Assay : Prop :=
  ∀ (m : AsyMeas) (bg solr bst : List (BitVec 24)) (mrm v : BitVec 24) (d : Fin 9) (p : Fin 8) (tj : List (BitVec 12)) (s : State),
    let mp := Reg.ASY_MPdp d p
    let add := s.fl mp Reg.ASY_MPdp_ADD
    let raised := fun (t : State) (e : Nat) => s.pwr.state < 2 → e ∈ t.ev.router
    let base := if s.sys.recB then 0x7FFE00 else 0x7FFF00
    (s.sys.hour < 360000000000 → Gives .assayHour s (fun t => t = s)) ∧
    (360000000000 ≤ s.sys.hour → Gives .assayHour s (fun t => t.thr = s.thr ∧ t.eng = s.eng ∧ t.sys.hour = s.sys.hour - 360000000000 ∧
      t.rd Reg.ASY_HOURS = s.rd Reg.ASY_HOURS + 1 ∧
      t.sys.recSeq = s.sys.recSeq + 1 ∧ t.sys.recB = !s.sys.recB ∧ (∀ a, (a < base ∨ base + 256 ≤ a) → t.cell a = s.cell a) ∧
      (∃ ws, t.recordGood base = some ws ∧ ws.getD 2 0 = s.sys.recSeq + 1 ∧ ws.getD 3 0 = s.rd Reg.ASY_HOURS + 1 ∧
        ∀ i < 72, ws.getD (0x10 + i) 0 = s.rd (Reg.ASY_MPdp (i / 8) (i % 8)) &&& 0x8F0000) ∧
      t.fl Reg.ASY_STAT Reg.ASY_STAT_BUSY =
        (if s.fl Reg.ASY_CTL Reg.ASY_CTL_HOURLY = 1 ∧ s.pwr.state = 0 then 1 else s.fl Reg.ASY_STAT Reg.ASY_STAT_BUSY))) ∧
    (s.pwr.state = 0 → Gives .assayRunCommand s (fun t => s.outside t ∧ s.regsBut t [Reg.ASY_STAT] ∧ t.ev = s.ev ∧
      t.fl Reg.ASY_STAT Reg.ASY_STAT_BUSY = 1)) ∧
    (s.fl Reg.ASY_STAT Reg.ASY_STAT_BUSY = 1 → Gives (.assayRunComplete [m] bg mrm solr bst) s (fun t => t.thr = s.thr ∧ t.eng = s.eng ∧
      t.fl Reg.ASY_STAT Reg.ASY_STAT_BUSY = 0 ∧ t.fl Reg.ASY_STAT Reg.ASY_STAT_RECERR = 0 ∧
      t.rd Reg.ASY_RUNS = BitVec.ofNat 24 (satInc (s.rd Reg.ASY_RUNS).toNat 0xFFFFFF) ∧ raised t 0x098 ∧
      (∀ (nref : Nat → Word) (tc : Word), m.d = d → m.p = p → s.retired d p = false → (d.val < 8 → s.quarantined d = false) →
        s.levelMv d p ≤ s.fl Reg.PWR_VCORE Reg.PWR_VCORE_MV → add ≤ 10 →
        (∀ q < 4, s.cell (0x7F0400 + 32 * d + 8 * q + p) = .good (nref q)) → s.cell (0x7F0520 + d) = .good tc →
        (let f : Int := 8000000 + tc.toInt * (1000 - m.tj.toInt)
         let y := fun (q : Nat) => Int.tdiv (10000 * (((m.n.getD q 0).toNat : Int) * 8000000 - (nref q).toNat * f)) ((nref q).toNat * f)
         let x := max (-32768) (min 32767 (min (min (y 0) (y 1)) (min (y 2) (y 3))))
         (∀ q < 4, 0 < ((nref q).toNat : Int) * f) →
          (∀ q < 4, t.rd (Reg.ASY_RCdq d q) = m.n.getD q 0) ∧ t.fl (Reg.ASY_TJd d) Reg.ASY_TJd_TJ = m.tj.toNat ∧
          t.fl mp Reg.ASY_MPdp_MARG = (x % 65536).toNat ∧ t.fl mp Reg.ASY_MPdp_SKIP = 0 ∧
          ((s.fl Reg.ASY_GUARD Reg.ASY_GUARD_GUARD : Int) ≤ x → t.fl mp Reg.ASY_MPdp_ADD = add ∧ t.retired d p = false) ∧
          (x < s.fl Reg.ASY_GUARD Reg.ASY_GUARD_GUARD → add < 10 → t.fl mp Reg.ASY_MPdp_ADD = add + 1 ∧ t.retired d p = false ∧ raised t 0x099) ∧
          (x < s.fl Reg.ASY_GUARD Reg.ASY_GUARD_GUARD → add = 10 → t.fl mp Reg.ASY_MPdp_ADD = 10 ∧
            (t.retired d p = true ↔ ∃ q < p.val, s.retired d q = false)))))) ∧
    Gives (.assayPlanWrite d p v) s (fun t => s.outside t ∧ t.fl mp Reg.ASY_MPdp_ADD = max add (min 10 (getBits v 19 16)) ∧
      (t.retired d p = true ↔ s.retired d p = true ∨ (v.getLsbD 23 = true ∧ ∃ q < 8, q ≠ p.val ∧ s.retired d q = false)) ∧
      (∀ e q, e < 9 → q < 8 → (e ≠ d.val ∨ q ≠ p.val) → t.rd (Reg.ASY_MPdp e q) = s.rd (Reg.ASY_MPdp e q))) ∧
    (s.time.locked = true → tj ≠ [] →
      (let tmax := (tj.map (fun x => x.toInt)).foldl max (-2048)
       let thi : Int := 8 * s.fl Reg.ASY_THCFG Reg.ASY_THCFG_THI
       let cap := s.fl Reg.ASY_THSTAT Reg.ASY_THSTAT_CAP
       let cool := tmax ≤ 8 * (s.fl Reg.ASY_THCFG Reg.ASY_THCFG_TLO : Int)
       Gives (.thermalEvaluation tj) s (fun t => s.outside t ∧
        (let new := t.fl Reg.ASY_THSTAT Reg.ASY_THSTAT_CAP
         (1000 ≤ tmax → new = 0 ∧ t.fl Reg.ASY_THSTAT Reg.ASY_THSTAT_CRIT = 1) ∧
         (tmax < 1000 → thi ≤ tmax → new = if s.fl Reg.ASY_THCFG Reg.ASY_THCFG_FLOOR < cap then cap - 1 else cap) ∧
         (tmax < 1000 → tmax < thi → cool → 9 ≤ s.sys.thRun → new = min (cap + 1) 7 ∧ t.sys.thRun = 0) ∧
         (tmax < 1000 → tmax < thi → cool → s.sys.thRun < 9 → new = cap ∧ t.sys.thRun = s.sys.thRun + 1) ∧
         (tmax < 1000 → tmax < thi → ¬ cool → new = cap ∧ t.sys.thRun = 0) ∧
         (new ≠ cap → raised t 0x09C)))))

/-- R81, R568, R582, R583, R585, R586, R592, R593, R598, R603. The boot ROM runs within the reset commands (log entry 17). -/
def Obligations.ResetsAndFuses : Prop :=
  ∀ (src : Fin 5) (vaon : Bool) (straps : BitVec 4) (img : List (BitVec 24)) (v got c : BitVec 24) (s : State),
    let off := fun (t : State) => t.pending = s.pending ∧ t.pwr.state = 0 ∧ t.rd Reg.SYS_STRAP = BitVec.ofNat 24 (straps.toNat * 2 ^ 20) ∧
      (∀ k, k ≠ 0 → t.th k = Thread.off) ∧ (t.th 0).bind.prv = true ∧ (t.th 0).levels = [] ∧ (∀ o < 36, t.armed o = false) ∧
      (∀ w < 34, t.rd (Reg.SYS_FUSEw w) = s.rd (Reg.SYS_FUSEw w))
    let system := fun (cause : Nat) (t : State) => off t ∧ t.time.dt = s.time.dt ∧ t.time.dtx = s.time.dtx ∧ t.entering = false ∧
      t.rd Reg.SYS_RCAUSE = BitVec.ofNat 24 (cause + satInc (s.fl Reg.SYS_RCAUSE Reg.SYS_RCAUSE_RCNT) 255) ∧
      (∀ a, 0xF02000 ≤ a → a < 0xF03000 → t.rd a = s.rd a)
    let escr := if s.fl Reg.FLT_STAT Reg.FLT_STAT_ESC = 1 then s.fl Reg.FLT_STAT Reg.FLT_STAT_ESCR else 0
    let wd := s.fl Reg.SYS_WDCTL Reg.SYS_WDCTL_EN = 1
    let runs := wd ∧ s.pwr.state = 0 ∧ (s.fl Reg.SYS_WDCTL Reg.SYS_WDCTL_DBGFRZ = 0 ∨ s.frozen = false)
    let early := c.toNat < 1024 * s.fl Reg.SYS_WDCTL Reg.SYS_WDCTL_MIN
    let limit := 1024 * max 1 (s.fl Reg.SYS_WDCTL Reg.SYS_WDCTL_TO)
    let escDue := s.fl Reg.FLT_STAT Reg.FLT_STAT_ESC = 1 ∧
      (s.time.locked = false ∨ s.flt.escAt + 100 * s.fl Reg.FLT_CTL Reg.FLT_CTL_ESCDLY ≤ s.time.ticks)
    let open' := (∀ i < 11, s.rd (Reg.SYS_FUSEw (22 + i)) = 0) ∧ straps.getLsbD 2 = true
    let w := v.toNat % 64
    let n := (s.rd (Reg.SYS_FUSEw 33)).toNat % 128
    let key := getBits v 23 16 = 0xF5
    let idle := s.fl Reg.PWR_SHSTAT Reg.PWR_SHSTAT_STEP = 0 ∧ s.fl Reg.SYS_FUSESTAT Reg.SYS_FUSESTAT_BUSY = 0
    let busy := fun (j : Nat × Word) (t : State) => s.outside t ∧ s.regsBut t [Reg.SYS_FUSECMD, Reg.SYS_FUSESTAT] ∧ t.ev = s.ev ∧
      t.fl Reg.SYS_FUSESTAT Reg.SYS_FUSESTAT_BUSY = 1 ∧ t.sys = { s.sys with fuse := some j }
    let refused := fun (t : State) => s.outside t ∧ s.regsBut t [Reg.SYS_FUSECMD, Reg.SYS_FUSESTAT] ∧ t.ev = s.ev ∧
      t.fl Reg.SYS_FUSESTAT Reg.SYS_FUSESTAT_ERR = 1 ∧ t.sys = s.sys
    let keyless := fun (t : State) => s.outside t ∧ s.regsBut t [Reg.SYS_FUSECMD] ∧ t.ev = s.ev ∧ t.sys = s.sys
    Gives (.powerOnReset src vaon straps img) s (fun t => off t ∧ t.time.dt = 0 ∧ t.time.dtx = 0 ∧
      t.rd Reg.SYS_RCAUSE = BitVec.ofNat 24 (2 ^ 23 + src * 2 ^ 14) ∧ (∀ a, 0xF02000 ≤ a → a < 0xF03000 → t.rd a = regReset a) ∧
      (open' → t.fl Reg.SYS_DBG Reg.SYS_DBG_LSTATE = 2) ∧ (¬ open' → t.fl Reg.SYS_DBG Reg.SYS_DBG_LSTATE = 0)) ∧
    Gives (.resetPin straps img) s (system (2 ^ 22)) ∧
    Gives (.keeperReset 0x5E7501 straps img) s (system (2 ^ 20)) ∧
    (v ≠ 0x5E7501 → Gives (.keeperReset v straps img) s (fun t => t = s)) ∧
    (wd → v ≠ 0x00C35A ∨ early → Gives (.watchdogKick v c straps img) s (system (2 ^ 21 + 2 ^ 17 + escr * 2 ^ 11))) ∧
    (wd → v = 0x00C35A → ¬ early → Gives (.watchdogKick v c straps img) s (fun t => t = { s with sys := { s.sys with warned := false } })) ∧
    (¬ wd → Gives (.watchdogKick v c straps img) s (fun t => t = s)) ∧
    (runs → s.sys.warned = false → limit / 2 ≤ c.toNat → Gives (.watchdogWarn c) s (fun t => s.outside t ∧ (∀ a, t.rd a = s.rd a) ∧
      t.ev.router = s.ev.router ++ [0x020] ∧ t.sys = { s.sys with warned := true })) ∧
    (¬ runs ∨ s.sys.warned = true ∨ c.toNat < limit / 2 → Gives (.watchdogWarn c) s (fun t => t = s)) ∧
    (runs → limit ≤ c.toNat → Gives (.watchdogTimeout c straps img) s (system (2 ^ 21 + escr * 2 ^ 11))) ∧
    (¬ runs ∨ c.toNat < limit → Gives (.watchdogTimeout c straps img) s (fun t => t = s)) ∧
    (escDue → Gives (.escalationReset straps img) s (system (2 ^ 19 + escr * 2 ^ 11))) ∧
    (¬ escDue → Gives (.escalationReset straps img) s (fun t => t = s)) ∧
    (key → idle → s.service = true → w ≤ 32 → s.rd (Reg.SYS_FUSEw w) = 0 → Gives (.fuseProgram v) s (busy (w, s.rd Reg.SYS_FUSEDAT))) ∧
    (key → ¬ idle ∨ s.service = false ∨ 32 < w ∨ s.rd (Reg.SYS_FUSEw w) ≠ 0 → Gives (.fuseProgram v) s refused) ∧
    (key → idle → n < 64 → Gives (.epochFuseBlow v) s (busy (33, BitVec.ofNat 24 (n + 1)))) ∧
    (key → ¬ idle ∨ 64 ≤ n → Gives (.epochFuseBlow v) s refused) ∧
    (¬ key → Gives (.fuseProgram v) s keyless ∧ Gives (.epochFuseBlow v) s keyless) ∧
    (∀ f x, s.sys.fuse = some (f, x) → f < 34 → Gives (.fuseDone got) s (fun t => s.outside t ∧ t.rd (Reg.SYS_FUSEw f) = got ∧
      s.regsBut t [Reg.SYS_FUSEw f, Reg.SYS_FUSESTAT] ∧ t.fl Reg.SYS_FUSESTAT Reg.SYS_FUSESTAT_BUSY = 0 ∧
      (got ≠ x → t.fl Reg.SYS_FUSESTAT Reg.SYS_FUSESTAT_ERR = 1) ∧ t.sys.fuse = none ∧
      (s.pwr.state < 2 → t.ev.router = s.ev.router ++ [0x021]))) ∧
    Gives (.serviceModeWrite v) s (fun t => s.outside t ∧ s.regsBut t [Reg.SYS_SVC] ∧ t.ev = s.ev ∧
      t.fl Reg.SYS_SVC Reg.SYS_SVC_EN = v.toNat % 2 ∧ t.fl Reg.SYS_SVC Reg.SYS_SVC_STRAP = s.fl Reg.SYS_SVC Reg.SYS_SVC_STRAP)

/-- R595–R599, R602. `ends` says that a command has completed with CODE and result. -/
def Obligations.LoupePort : Prop :=
  (∀ (cells : BitVec 402) (s : State),
    let holds := fun (ir : Nat) (t : State) => t = { s with lp := { s.lp with ir := ir } }
    Gives .trst s (holds 2) ∧ Gives .extest s (holds 0) ∧ Gives .idcode s (holds 2) ∧ Gives .clamp s (holds 3) ∧ Gives .highz s (holds 4) ∧
    Gives .loupeSelect s (holds 0x10) ∧ Gives .bypass s (holds 0x3F) ∧
    (s.lp.ir = 0 ∨ s.lp.ir = 3 ∨ s.lp.ir = 4 → s.tapActs = if s.lock = 0 then 0x3F else s.lp.ir) ∧
    Gives (.samplePreload cells) s (fun t => t = { s with lp := { s.lp with ir := 1, bsr := cells } }) ∧
    Gives .unlockLockoutEnd s (fun t => t = { s with lp := { s.lp with lockout := false } }) ∧
    Gives .klock s (fun t => s.outside t ∧ s.regsBut t [Reg.SYS_DBG] ∧ t.lock = 0 ∧ t.lp = s.lp ∧ t.ev = s.ev ∧
      t.fl Reg.SYS_DBG Reg.SYS_DBG_DENY = s.fl Reg.SYS_DBG Reg.SYS_DBG_DENY)) ∧
  (∀ (a d : BitVec 24) (ok : Bool) (i : Fin 8) (w : Fin 32) (word : Word) (s : State),
    let ends := fun (t : State) (code : Nat) (addr data : Word) => t.lp.code = code ∧ t.lp.addr = addr ∧ t.lp.data = data
    let plain := fun (t : State) => s.outside t ∧ (∀ r, t.rd r = s.rd r) ∧ t.ev = s.ev ∧ t.time = s.time
    let raised := fun (t : State) (e : Nat) => s.pwr.state < 2 → e ∈ t.ev.crossing
    let lcid := if s.lock = 1 then s.fl Reg.SYS_DBG Reg.SYS_DBG_LCID else s.lp.cid
    let pub := (List.range 22).map (SMap.get 0 s.lp.key)
    let sig := (List.range 22).map (SMap.get 0 s.lp.resp)
    let dkey := (List.range 11).map (fun j => s.rd (Reg.SYS_FUSEw (22 + j)))
    let passes := s.lp.nonce.length = 8 ∧ (∃ x ∈ dkey, x ≠ 0) ∧
      Crypto.packBytes (Crypto.sha256 ((Crypto.wordBytes pub).take 64)) = dkey ∧ (getBits d 23 22 = 1 ∨ getBits d 23 22 = 2) ∧
      getBits (sig.getD 21 0) 15 0 = 0 ∧
      Crypto.ecdsaVerify (Crypto.sha256 (Crypto.wordBytes (s.lp.nonce ++ [s.rd Reg.SYS_ID, d]))) (Crypto.keyPair pub).1 (Crypto.keyPair pub).2
        (Crypto.keyPair sig).1 (Crypto.keyPair sig).2 = true
    s.lp.ir = 0x10 → (∀ r ∈ s.chn.rd, r.eng ≠ 128) →
    Gives .nop s (fun t => plain t ∧ ends t 0 0 0 ∧ t.pwr = s.pwr) ∧
    (s.lock < 2 → (∀ c ∈ [Instr.rdk a ok, .wrk a d ok, .setcid d, .freeze d], Gives c s (fun t => plain t ∧ t.lp.code = 1))) ∧
    (s.lock = 0 → (∀ c ∈ [Instr.rdc a ok, .wrc a d ok], Gives c s (fun t => plain t ∧ t.lp.code = 1))) ∧
    (2 ≤ s.lock → Gives (.setcid d) s (fun t => plain t ∧ ends t 0 0 d ∧ t.lp.cid = d.toNat % 1024) ∧
      Gives (.freeze d) s (fun t => plain t ∧ ends t 0 0 d ∧ t.lp.freeze = d.getLsbD 0)) ∧
    Gives .lock s (fun t => s.outside t ∧ s.regsBut t [Reg.SYS_DBG] ∧ t.ev = s.ev ∧ t.lock = 0 ∧ ends t 0 0 0) ∧
    Gives .wake s (fun t => s.outside t ∧ ends t 0 0 0 ∧ (s.wakeEn 8 = true → s.pwr.state ≠ 0 → t.pwr.wake = true) ∧
      (s.wakeEn 8 = false → (∀ r, t.rd r = s.rd r) ∧ t.pwr = s.pwr)) ∧
    Gives (.mailw d) s (fun t => s.outside t ∧ ends t 0 0 d ∧ t.rd Reg.LP_MAILIN = d ∧ raised t 0x3F1) ∧
    Gives .mailr s (fun t => plain t ∧ ends t 0 0 (s.rd Reg.LP_MAILOUT)) ∧
    (w.val ≤ 21 →
      Gives (.keyw w d) s (fun t => plain t ∧ ends t 0 (BitVec.ofNat 24 w) d ∧ SMap.get 0 t.lp.key w = d ∧
        ∀ j, j ≠ w.val → SMap.get 0 t.lp.key j = SMap.get 0 s.lp.key j) ∧
      Gives (.resp w d) s (fun t => plain t ∧ ends t 0 (BitVec.ofNat 24 w) d ∧ SMap.get 0 t.lp.resp w = d ∧
        ∀ j, j ≠ w.val → SMap.get 0 t.lp.resp j = SMap.get 0 s.lp.resp j)) ∧
    (s.lp.lockout = true → Gives (.chal i) s (fun t => plain t ∧ ends t 1 (BitVec.ofNat 24 i) 0)) ∧
    (s.lp.lockout = false → i.val ≠ 0 → ∀ x, s.lp.nonce[i.val]? = some x → Gives (.chal i) s (fun t => plain t ∧
      ends t 0 (BitVec.ofNat 24 i) x ∧ t.lp.nonce = s.lp.nonce)) ∧
    (s.lp.lockout = false → Gives (.chal 0) s (fun t => plain t ∧ t.lp.nonce.length = 8 ∧ t.lp.nonce[0]? = some t.lp.data ∧ t.lp.code = 0)) ∧
    (s.fl Reg.SYS_DBG Reg.SYS_DBG_DENY = 1 → Gives (.unlock d) s (fun t => plain t ∧ ends t 1 0 d)) ∧
    (s.fl Reg.SYS_DBG Reg.SYS_DBG_DENY = 0 → s.bz.check = none →
      (passes → Gives (.unlock d) s (fun t => s.outside t ∧ ends t 0 0 d ∧ t.lock = getBits d 23 22 ∧ t.lp.nonce = [] ∧ raised t 0x3F2 ∧
        (getBits d 23 22 = 1 → t.fl Reg.SYS_DBG Reg.SYS_DBG_LCID = d.toNat % 1024))) ∧
      (¬ passes → Gives (.unlock d) s (fun t => s.outside t ∧ ends t 7 0 d ∧ t.lock = s.lock ∧ t.lp.nonce = [] ∧ t.lp.lockout = true ∧
        raised t 0x3F3 ∧ t.rd Reg.LP_FAILCNT = BitVec.ofNat 24 (satInc (s.rd Reg.LP_FAILCNT).toNat 0xFFFFFF)))) ∧
    (2 ≤ s.lock →
      (2 ≤ s.pwr.state → Gives (.rdk a ok) s (fun t => plain t ∧ ends t 4 a 0) ∧ Gives (.wrk a d ok) s (fun t => plain t ∧ ends t 4 a d)) ∧
      (s.pwr.state < 2 → sramRegion a.toNat = true → s.closed a.toNat = false →
        (s.cell a.toNat = .good word → Gives (.rdk a ok) s (fun t => plain t ∧ ends t 0 a word)) ∧
        (s.cell a.toNat = .bad → Gives (.rdk a ok) s (fun t => t.mem = s.mem ∧ t.thr = s.thr ∧ ends t 5 a 0)) ∧
        Gives (.wrk a d ok) s (fun t => t.cell a.toNat = .good d ∧ (∀ q, q ≠ a.toNat → t.cell q = s.cell q) ∧ s.sameThr t ∧
          (∀ r, t.rd r = s.rd r) ∧ t.ev = s.ev ∧ ends t 0 a d))) ∧
    (1 ≤ s.lock → s.pwr.state < 2 →
      (lcid = 0 ∨ (s.capState lcid ≠ 3 ∧ s.capState lcid ≠ 4) → Gives (.rdc a ok) s (fun t => plain t ∧ ends t 2 a 0) ∧
        Gives (.wrc a d ok) s (fun t => plain t ∧ ends t 2 a d)) ∧
      (lcid ≠ 0 → s.capState lcid = 3 → ∀ e, s.walk lcid a.toNat 0 = (s, .entry e) →
        (∀ pa, tcAddr e .load a.toNat = .ok pa → sramRegion pa = true → s.closed pa = false → s.cell pa = .good word →
          Gives (.rdc a ok) s (fun t => plain t ∧ ends t 0 a word)) ∧
        (∀ pa, tcAddr e .store a.toNat = .ok pa → sramRegion pa = true → s.closed pa = false →
          Gives (.wrc a d ok) s (fun t => t.cell pa = .good d ∧ (∀ q, q ≠ pa → t.cell q = s.cell q) ∧ s.sameThr t ∧ t.ev = s.ev ∧
            ends t 0 a d)))))

/-- R47, R597, R600, R601. -/
def Obligations.LoupeThreads : Prop :=
  ∀ (k : Fin 512) (r : Fin 64) (a d v : BitVec 24) (s : State),
    let th := s.th k
    let c := th.ctx
    let ends := fun (t : State) (code : Nat) (addr data : Word) => t.lp.code = code ∧ t.lp.addr = addr ∧ t.lp.data = data
    let base := fun (t : State) => t.mem = s.mem ∧ (∀ q, t.rd q = s.rd q) ∧ t.pending = s.pending ∧ t.bz = s.bz ∧ t.memc = s.memc ∧
      t.pwr = s.pwr ∧ t.time = s.time ∧ ∀ j, j ≠ k.val → t.th j = s.th j
    let still := fun (t : State) => s.outside t ∧ (∀ q, t.rd q = s.rd q) ∧ t.ev = s.ev ∧ t.time = s.time
    let kw := BitVec.ofNat 24 k.val
    let rw := BitVec.ofNat 24 (k.val * 2 ^ 15 + r.val)
    let mine := th.bind.prv = false ∧ th.bind.cid = s.fl Reg.SYS_DBG Reg.SYS_DBG_LCID
    let reads := fun (x : Word) => Gives (.rdreg k r) s (fun t => still t ∧ ends t 0 rw x)
    let puts := fun (P : Thread → Prop) => Gives (.wrreg k r v) s (fun t => base t ∧ t.eng = s.eng ∧ t.ev = s.ev ∧ ends t 0 rw v ∧ P (t.th k))
    let eng := d.toNat / 2 ^ 16 % 128
    let ok := s.lock ≠ 1 ∨ ∀ i < 4, d.getLsbD (12 + i) = true →
      (s.th (4 * eng + i)).bind.prv = false ∧ (s.th (4 * eng + i)).bind.cid = s.fl Reg.SYS_DBG Reg.SYS_DBG_LCID
    (s.lp.ir = 0x10 → (∀ x ∈ s.chn.rd, x.eng ≠ 128) →
      (s.lock = 0 → ∀ i ∈ [Instr.halt k, .run k, .step k, .rdreg k r, .wrreg k r v, .tstat k, .setbp a d, .setwp a d],
        Gives i s (fun t => still t ∧ t.lp.code = 1)) ∧
      (s.lock = 1 → s.pwr.state < 2 → ¬ mine → ∀ i ∈ [Instr.halt k, .run k, .step k, .rdreg k r, .wrreg k r v, .tstat k],
        Gives i s (fun t => still t ∧ t.lp.code = 3)) ∧
      (s.lock = 1 ∧ mine ∨ 2 ≤ s.lock → s.pwr.state < 2 →
        (th.halt = 0 → th.haltReq = 0 → th.stepping = false → th.rom = false → th.mode ≠ .off → th.mode ≠ .sync →
          (th.infl = [] → c.slot = none → Gives (.halt k) s (fun t => t.mem = s.mem ∧ t.eng = s.eng ∧ ends t 0 kw 0 ∧
            s.regsBut t [Reg.EVR_MERGE, Reg.EVR_MLAST] ∧ (∀ j, j ≠ k.val → t.th j = s.th j) ∧
            t.th k = { th with halt := 1, mode := if th.mode = .stopping then .stopping else .run } ∧ 0x3F0 ∈ t.ev.crossing)) ∧
          (th.infl ≠ [] ∨ c.slot ≠ none → Gives (.halt k) s (fun t => base t ∧ t.eng = s.eng ∧ t.ev = s.ev ∧ ends t 0 kw 0 ∧
            t.th k = { th with haltReq := 1 }))) ∧
        (th.halt ≠ 0 →
          Gives (.run k) s (fun t => base t ∧ t.eng = s.eng ∧ t.ev = s.ev ∧ ends t 0 kw 0 ∧ (t.th k).halt = 0 ∧ (t.th k).skipBp = true ∧
            (t.th k).stepping = false ∧ (t.th k).ctx = c ∧ (t.th k).levels = th.levels) ∧
          Gives (.step k) s (fun t => base t ∧ t.eng = s.eng ∧ t.ev = s.ev ∧ ends t 0 kw 0 ∧ (t.th k).halt = 0 ∧ (t.th k).skipBp = true ∧
            (t.th k).stepping = true ∧ (t.th k).ctx = c ∧ (t.th k).levels = th.levels) ∧
          (r.val < 16 → reads (c.rdG r) ∧ puts (fun t => ∀ q, t.ctx.peekG q = if q = 0 then 0 else if q = r.val then v else c.peekG q)) ∧
          (r.val = 16 → reads (c.a0.setWidth 24)) ∧ (r.val = 17 → reads ((c.a0 >>> 24).setWidth 24)) ∧
          (r.val = 18 → reads ((c.a0 >>> 48).setWidth 24)) ∧ (r.val = 19 → reads (c.a1.setWidth 24)) ∧
          (r.val = 26 → reads c.pc ∧ puts (fun t => t.ctx = { c with pc := v })) ∧
          (r.val = 27 → ∀ l ls, th.levels = l :: ls → reads l.xpc ∧ puts (fun t => t.levels = { l with xpc := v } :: ls ∧ t.ctx = c)) ∧
          (r.val = 31 → ∀ l ls, th.levels = l :: ls → reads l.xaddr) ∧
          (r.val = 33 → reads (BitVec.ofNat 24 (b2n th.el)) ∧ puts (fun t => t = { th with el := v.getLsbD 0 })) ∧
          (33 < r.val → Gives (.rdreg k r) s (fun t => still t ∧ ends t 6 rw 0) ∧ Gives (.wrreg k r v) s (fun t => still t ∧ ends t 6 rw v))) ∧
        (th.halt = 0 → Gives (.run k) s (fun t => still t ∧ ends t 0 kw 0) ∧ Gives (.step k) s (fun t => still t ∧ ends t 6 kw 0) ∧
          Gives (.rdreg k r) s (fun t => still t ∧ ends t 6 rw 0) ∧ Gives (.wrreg k r v) s (fun t => still t ∧ ends t 6 rw v)) ∧
        Gives (.tstat k) s (fun t => still t ∧ t.lp.code = 0 ∧ t.lp.addr = (if th.rom then 0x800000 else c.pc) ∧
          (th.halt < 8 → th.haltIdx < 8 → getBits t.lp.data 20 18 = th.halt ∧ (th.halt ≠ 0 → getBits t.lp.data 17 15 = th.haltIdx) ∧
            (th.mode = .off → getBits t.lp.data 23 21 = 0) ∧ (th.mode = .stopping → getBits t.lp.data 23 21 = 7) ∧
            (th.mode ≠ .off → th.mode ≠ .stopping → (th.halt ≠ 0 → getBits t.lp.data 23 21 = 6) ∧
              (th.halt = 0 → s.holdOf k ≠ 0 → getBits t.lp.data 23 21 = 2) ∧
              (th.halt = 0 → s.holdOf k = 0 → (th.mode = .event → getBits t.lp.data 23 21 = 3) ∧
                (th.mode = .drain ∨ th.mode = .fence → getBits t.lp.data 23 21 = 5) ∧ (th.mode = .sync → getBits t.lp.data 23 21 = 2) ∧
                (th.mode = .run → getBits t.lp.data 23 21 = if th.rom = true ∨ s.readyNext k = true then 1 else 2)))))) ∧
      (1 ≤ s.lock → s.pwr.state < 2 → ok →
        Gives (.setbp a d) s (fun t => t.thr = s.thr ∧ t.mem = s.mem ∧ (∀ q, t.rd q = s.rd q) ∧ t.ev = s.ev ∧ ends t 0 a d ∧
          SMap.get none (t.en eng).bps (d.toNat % 8) =
            (if d.getLsbD 23 then some { addr := a, mask := d.toNat / 2 ^ 12 % 16, acc := 0, m := 0 } else none) ∧
          (∀ j, j ≠ d.toNat % 8 → SMap.get none (t.en eng).bps j = SMap.get none (s.en eng).bps j) ∧ ∀ f, f ≠ eng → t.en f = s.en f) ∧
        Gives (.setwp a d) s (fun t => t.thr = s.thr ∧ t.mem = s.mem ∧ (∀ q, t.rd q = s.rd q) ∧ t.ev = s.ev ∧ ends t 0 a d ∧
          SMap.get none (t.en eng).wps (d.toNat % 4) =
            (if d.getLsbD 23 then some { addr := a, mask := d.toNat / 2 ^ 12 % 16, acc := d.toNat / 2 ^ 10 % 4, m := d.toNat / 16 % 16 } else none) ∧
          (∀ j, j ≠ d.toNat % 4 → SMap.get none (t.en eng).wps j = SMap.get none (s.en eng).wps j) ∧ ∀ f, f ≠ eng → t.en f = s.en f)) ∧
      (1 ≤ s.lock → s.pwr.state < 2 → ¬ ok → ∀ i ∈ [Instr.setbp a d, .setwp a d], Gives i s (fun t => still t ∧ ends t 3 a d))) ∧
    (s.isReady k = true → th.skipBp = false → c.slot = none → ∀ b, s.bpHit k c.pc = some b → s.pwr.state < 2 →
      Gives (.breakpointHalt k 0) s (fun t => t.mem = s.mem ∧ t.eng = s.eng ∧ (∀ j, j ≠ k.val → t.th j = s.th j) ∧
        t.th k = { th with halt := 2, haltIdx := b, stepping := false } ∧ 0x3F0 ∈ t.ev.crossing))

/-- R6, R7, R19, R29, R75, R273, R279, R450, R451, R484, R488, R634. -/
def Obligations.DeviceAccesses : Prop :=
  (∀ (k : Fin 512) (a v : BitVec 24) (g : RegGroup) (s : State),
    let who := Who.thread k
    let r := ownView who a.toNat
    let took := fun (g : RegGroup) (r : Nat) (t : State) => s.outside t ∧ s.regsBut t [r] ∧ t.ev = s.ev ∧ t.time = s.time ∧
      (∀ b < 24, (g.rw ||| g.krw ||| g.k ||| g.rws).testBit b = true → (t.rd r).getLsbD b = v.getLsbD b) ∧
      (∀ b < 24, (g.rw ||| g.krw ||| g.k ||| g.rws).testBit b = false → (t.rd r).getLsbD b =
        ((s.rd r).getLsbD b && !(g.w1c.testBit b && v.getLsbD b))) ∧
      (splitBlock r = true → isSetting r = true → t.rd r ≠ s.rd r → r ∈ t.dl.xfer) ∧
      (splitBlock r = false ∨ t.rd r = s.rd r → t.dl = s.dl)
    ((s.th k).bind.prv = true → ∀ q ∈ [Reg.SYS_KRESUME, Reg.FLT_CTL, Reg.ASY_GUARD, Reg.LP_MAILOUT, Reg.ENG_STALL 5, Reg.EVI_TtXVEC 3 1],
      ∃ h, regGroup q = some h ∧ Gives (.registerWrite who (BitVec.ofNat 24 q) v) s (took h q)) ∧
    (region a.toNat = .dev → devExists a.toNat = true → s.regRuns r true = true → regGroup r = some g → strPort r = none →
    ((s.th k).bind.prv = false → g.k ≠ 0 ∨ g.krw ≠ 0 → Gives (.registerWrite who a v) s (fun t => t = s)) ∧
    ((s.th k).bind.prv = true → s.restAt r = false → s.storeBody who r v = s.plainWrite g r v → g.lim r = 0xFFFFFF →
      Gives (.registerWrite who a v) s (took g r)))) ∧
  (∀ (a : BitVec 24) (s : State),
    (a.toNat ∈ s.dl.xfer → Gives (.analogSettingTransfer a true) s (fun t => s.outside t ∧ (∀ r, t.rd r = s.rd r) ∧ t.ev = s.ev ∧
        a.toNat ∉ t.dl.xfer ∧ SMap.get (regReset a.toNat) t.dl.held a.toNat = s.rd a.toNat ∧ (∀ x ∈ s.dl.xfer, x ≠ a.toNat → x ∈ t.dl.xfer)) ∧
      Gives (.analogSettingTransfer a false) s (fun t => s.outside t ∧ t.dl = s.dl ∧
        t.fl Reg.FLT_CNT0 Reg.FLT_CNT0_DL = satInc (s.fl Reg.FLT_CNT0 Reg.FLT_CNT0_DL) 0xFFF ∧
        (let j := s.fl Reg.FLT_HEAD Reg.FLT_HEAD_HEAD
         t.rd (Reg.FLT_LAi j) = BitVec.ofNat 24 (2 ^ 23 + 5 * 2 ^ 18 + 0x1FF * 2 ^ 9) ∧ t.rd (Reg.FLT_LBi j) = a) ∧
        (s.pwr.state < 2 → 0x005 ∈ t.ev.router))) ∧
    (a.toNat ∉ s.dl.xfer → ∀ ok, Gives (.analogSettingTransfer a ok) s (fun t => t = s))) ∧
  (∀ (e : Fin 128) (i : Fin 4) (a : Access) (x : Infl) (d0 d1 : BitVec 24) (s : State),
    let th := s.th a.k
    let gone := fun (t : State) => (t.en e).spine = (s.en e).spine.filter (fun b => decide (b.id ≠ a.id))
    let others := fun (t : State) => t.mem = s.mem ∧ ∀ j, j ≠ a.k → (t.th j).ctx = (s.th j).ctx
    let gets := fun (w : Word) (t : State) => others t ∧ gone t ∧ (t.th a.k).infl = [] ∧
      ∀ q, (t.th a.k).ctx.peekG q = if q = 0 then 0 else if q = a.rd then w else th.ctx.peekG q
    let bus := fun (t : State) => others t ∧ gone t ∧ (t.th a.k).infl = [] ∧ ∃ l, (t.th a.k).levels = l :: th.levels ∧ l.xpc = x.snap.pc ∧
      l.xaddr = a.va ∧ l.xcause = BitVec.ofNat 24 (a.kind.code * 2 ^ 8 + Cause.bus.code)
    let loads := a.kind = .load ∧ a.pair = false ∧ th.ctx.pend = [(a.rd, a.id)] ∧ a.rd ≠ 0
    (s.en e).spine[i.val]? = some a → s.maySend e a = true → s.quarantined (e.val / 16) = false → th.infl = [x] → x.id = a.id →
    x.st = .waiting → th.haltReq = 0 → th.stepping = false → th.bind.prv = a.prv →
    (region a.pa = .dev → th.depth < 16 → x.snap.slot = none → Gives (.registerAccessTimeout e i) s bus) ∧
    (region a.pa = .xspi → loads →
      (s.islandRuns 4 = true → s.fl Reg.XSPI_CTL Reg.XSPI_CTL_EN = 1 → s.fl Reg.XSPI_STAT Reg.XSPI_STAT_BUSY = 0 →
        Takes 12 (.xspiWindowRead e i d0 d1) s (fun t => gets d0 t ∧ t.comm.flash = some (s.windowTx a.pa false))) ∧
      (s.islandRuns 4 = true → s.fl Reg.XSPI_CTL Reg.XSPI_CTL_EN = 1 → s.fl Reg.XSPI_STAT Reg.XSPI_STAT_BUSY = 1 → th.depth < 16 →
        x.snap.slot = none → Takes 12 (.xspiWindowRead e i d0 d1) s (fun t => bus t ∧ t.fl Reg.XSPI_STAT Reg.XSPI_STAT_WBUSYF = 1 ∧
          t.fl Reg.XSPI_STAT Reg.XSPI_STAT_WBUSYCNT = satInc (s.fl Reg.XSPI_STAT Reg.XSPI_STAT_WBUSYCNT) 0xFFF))) ∧
    (s.islandRuns 8 = true → s.isManager = true →
      (a.kind = .store → a.pair = false → a.pa = Reg.CHN_DRAIN → th.mode = .run → x.lb = .none → (∀ q ∈ th.replay, q.ac.id ≠ a.id) → Takes 13 (.chnDrainStore e i) s (fun t => others t ∧ gone t ∧
        (t.th a.k).infl = [] ∧ (t.th a.k).mode = .drain ∧ (t.th a.k).ctx = th.ctx ∧
        t.chn.drains.head? = some { thread := a.k, depth := th.depth, acc := a.id } ∧ t.chn.wr = s.chn.wr)) ∧
      (loads → a.pa = Reg.CHN_SEQ → (∀ b ∈ s.older e a, b.k = a.k → b.kind = .store → region b.pa ≠ .chaden) →
        Takes 13 (.chnSeqRead e i) s (gets (SMap.get 0 s.chn.last a.k))) ∧
      (loads → a.pa = Reg.CHN_DRAIN → Takes 13 (.chnDrainRead e i) s (gets (BitVec.ofNat 24 (SMap.get 0 s.chn.dval a.k)))))) ∧
  (∀ (e : Fin 128) (i : Fin 4) (a : Access) (w : Word) (s : State),
    let th := s.th a.k
    (s.en e).spine[i.val]? = some a → s.maySend e a = true → s.quarantined (e.val / 16) = false → (∀ x ∈ th.infl, x.id ≠ a.id) →
    (∃ r ∈ th.replay, r.ac.id = a.id ∧ r.out = .wait) → th.bind.prv = true → a.prv = true → a.kind = .load → a.pair = false →
    region a.pa = .dev → a.pa < 0xF80000 → strPort a.pa = none → crosses a.pa = false → s.regRuns a.pa true = true → s.restAt a.pa = false →
    a.pa ≠ Reg.CHN_SEQ → (∀ u : State, (∀ r, u.rd r = s.rd r) → u.loadReg (.thread a.k) a.pa = (u, w)) →
    Gives (.replayOutcomeArrival e i true true) s (fun t => t.mem = s.mem ∧ (∀ r, t.rd r = s.rd r) ∧ (∀ j, j ≠ a.k → t.th j = s.th j) ∧
      (t.en e).spine = (s.en e).spine.filter (fun b => decide (b.id ≠ a.id)) ∧
      t.th a.k = { th with replay := th.replay.map (fun r => if r.ac.id = a.id then { r with out := .data w 0 } else r) })) ∧
  (∀ (i : Fin 512) (e : Fin 128) (p : Fin 4) (s : State),
    let x := s.strand i
    let only := fun (u : State) (y : Strand) => u.strand i = y ∧ (∀ j, j ≠ i.val → u.strand j = s.strand j) ∧ s.outside u
    (∀ c, s.watches i c = []) →
    (∀ y r, s.atPort e p i .store = false → x.waiting = y :: r → Gives (.strandFullTimeout i e p) s (fun u => only u { x with waiting := r } ∧
      s.regsBut u [Reg.STR_sDROP i] ∧
      u.fl (Reg.STR_sDROP i) Reg.STR_sDROP_FULL = satInc (s.fl (Reg.STR_sDROP i) Reg.STR_sDROP_FULL) Reg.STR_sDROP_FULL.max)) ∧
    (s.atPort e p i .load = false → s.fl (Reg.STR_sCFG i) Reg.STR_sCFG_EN = 1 → s.fl (Reg.STR_sCFG i) Reg.STR_sCFG_DST = 0 →
      s.fl (Reg.STR_sCFG i) Reg.STR_sCFG_FMT = 1 → s.fl (Reg.STR_sCFG i) Reg.STR_sCFG_TO ≠ 0 → x.remain ≠ 0 → x.items = [] → x.atHead = false →
      Gives (.payloadReadTimeout i e p) s (fun u => only u { x with remain := 0, nread := 0, rdy := false, discard := true } ∧
        u.rdata = 0x800000 ∧ u.fl (Reg.STR_sSTAT i) Reg.STR_sSTAT_BRK = 1 ∧ s.regsBut u [Reg.STR_sSTAT i])))

/-- R15, R81, R583, R605, and log entries 5 and 7 (the model's choice). -/
def Obligations.ResetValues : Prop :=
  let s := State.reset
  (∀ a, s.rd a = regReset a) ∧ s.rd Reg.SYS_ID = 0x412811 ∧ s.rd Reg.SYS_RCAUSE = 0x800000 ∧ s.rd Reg.SYS_WDCTL = 0xA00040 ∧
  s.rd Reg.CHN_TCTL = 0x800000 ∧ s.rd Reg.HOLD_CTL = 0x400F28 ∧ (∀ d < 9, s.rd (Reg.PWR_PLn d) = 0xFC0007) ∧
  s.rd (Reg.ENG_TCTL 0) = 1 ∧ (∀ e < 128, e ≠ 0 → s.rd (Reg.ENG_TCTL e) = 0) ∧
  (s.th 0).mode = .run ∧ (s.th 0).rom = true ∧ (s.th 0).bind.prv = true ∧ (s.th 0).levels = [] ∧ (∀ k, k ≠ 0 → s.th k = Thread.off) ∧
  (∀ a, s.cell a = memDflt a) ∧ s.pending = [] ∧ s.ev.router = [] ∧ s.ev.crossing = [] ∧ s.memc.wbuf = [] ∧ s.pwr.state = 0 ∧
  s.time.dt = 0 ∧ s.lock = 0 ∧ (∀ i, s.strand i = Strand.empty) ∧ s.canon

/-- R38, R191, R193: from every state with canonical tables, not only those reached from reset. -/
def Obligations.CanonicalForm : Prop := ∀ s t, s.canon → step s = .next t → t.canon

/-- R225, whole: the table, and the registers that report it. -/
def Obligations.FloorAndLimit : Prop :=
  ∀ (who : Who) (cid : Fin 1024) (rate : Fin 16384) (cls : Fin 8) (s : State),
    let pl := s.planLevel 8
    let floor := ([3000, 4300, 5600, 7100, 8600, 10100, 11400, 12800]).getD pl 0
    let limit := ([2400, 3440, 4480, 5680, 6880, 8080, 9120, 10240]).getD pl 0
    pl < 8 ∧ (∃ t w, s.loadReg who Reg.MEMC_FLOOR = (t, w) ∧ t = s ∧ w.toNat % 2 ^ 16 = floor ∧ w.toNat / 2 ^ 21 = pl) ∧
    s.loadReg who Reg.MEMC_RLIM = (s, BitVec.ofNat 24 limit) ∧
    (let r := s.resv cid
     let need := s.fl Reg.MEMC_RSUM Reg.MEMC_RSUM_SUM - (if r.adm && !r.dem then r.rate else 0) + rate.val
     rate.val ≠ 0 → ∀ t ok, s.resvRequest cid rate cls = (t, ok) → (ok = true ↔ need ≤ limit) ∧
      (limit < need → t.resv cid = s.resv cid) ∧
      (need ≤ limit → t.resv cid = { r with rate := rate.val, cls := if cid.val = 0 then 0 else cls.val, adm := true, dem := false }))
end

