-- ==== Sys2Proof/Laws/Bits.lean ====
section
/-!
SUPPORT. The laws of bit fields: a field just set reads as its value, and setting one field leaves every disjoint field and bit alone.
-/

namespace Sys2Proof.Machine

theorem getBits_testBit (v : Word) (hi lo i : Nat) :
    (getBits v hi lo).testBit i = (decide (i < hi + 1 - lo) && v.getLsbD (lo + i)) := by
  simp [getBits, Nat.testBit_mod_two_pow, Nat.testBit_shiftRight, BitVec.testBit_toNat]

theorem Fld.mask_testBit (f : Fld) (i : Nat) : f.mask.testBit i = (decide (f.lo ≤ i) && decide (i - f.lo < f.hi + 1 - f.lo)) := by
  simp [Fld.mask, Nat.testBit_shiftLeft, Nat.testBit_two_pow_sub_one]

/-- A bit of a word with field `f` set. -/
theorem setF_getLsbD (v : Word) (f : Fld) (n i : Nat) (hi : i < 24) :
    (setF v f n).getLsbD i = if f.lo ≤ i ∧ i ≤ f.hi then n.testBit (i - f.lo) else v.getLsbD i := by
  have h1 : (BitVec.ofNat 24 f.mask).getLsbD i = f.mask.testBit i := by rw [BitVec.getLsbD_ofNat]; simp [hi]
  have h2 : (BitVec.ofNat 24 ((n % 2 ^ (f.hi + 1 - f.lo)) <<< f.lo)).getLsbD i
      = (decide (f.lo ≤ i) && (decide (i - f.lo < f.hi + 1 - f.lo) && n.testBit (i - f.lo))) := by
    rw [BitVec.getLsbD_ofNat]; simp [hi, Nat.testBit_shiftLeft, Nat.testBit_mod_two_pow]
  unfold setF
  rw [BitVec.getLsbD_or, BitVec.getLsbD_and, BitVec.getLsbD_not, h1, h2, Fld.mask_testBit]
  by_cases a : f.lo ≤ i <;> by_cases b : i ≤ f.hi
  · have : i - f.lo < f.hi + 1 - f.lo := by omega
    simp [a, b, this, hi]
  · have : ¬ i - f.lo < f.hi + 1 - f.lo := by omega
    simp [a, b, this, hi]
  · simp [a, hi]
  · simp [a, hi]

/-- A field just set reads as its value, cut to the field. -/
theorem getF_setF_eq (v : Word) (f : Fld) (n : Nat) (h : f.hi < 24) :
    getF (setF v f n) f = n % 2 ^ (f.hi + 1 - f.lo) := by
  apply Nat.eq_of_testBit_eq
  intro i
  rw [getF, getBits_testBit, Nat.testBit_mod_two_pow]
  by_cases hi : i < f.hi + 1 - f.lo
  · rw [setF_getLsbD v f n _ (by omega), if_pos (by omega)]
    simp [hi]
  · simp [hi]

/-- Setting one field leaves a disjoint field alone. -/
theorem getF_setF_ne (v : Word) (f g : Fld) (n : Nat) (hg : g.hi < 24) (h : f.hi < g.lo ∨ g.hi < f.lo) :
    getF (setF v f n) g = getF v g := by
  apply Nat.eq_of_testBit_eq
  intro i
  rw [getF, getF, getBits_testBit, getBits_testBit]
  by_cases hi : i < g.hi + 1 - g.lo
  · rw [setF_getLsbD v f n _ (by omega), if_neg (by omega)]
  · simp [hi]

/-- The value of a field is below two to its width. -/
theorem getF_lt (v : Word) (f : Fld) : getF v f < 2 ^ (f.hi + 1 - f.lo) := Nat.mod_lt _ (Nat.two_pow_pos _)

/-- A one-bit field is 1 exactly when the bit is set. -/
theorem getF_bit (v : Word) (n : Nat) : getF v ⟨n, n⟩ = b2n (v.getLsbD n) := by
  apply Nat.eq_of_testBit_eq
  intro i
  rw [getF, getBits_testBit]
  have e : n + 1 - n = 1 := by omega
  rw [e]
  cases i with
  | zero => cases v.getLsbD n <;> simp [b2n]
  | succ j => cases v.getLsbD n <;> simp [b2n, Nat.testBit_succ]

/-- The whole word as a field. -/
theorem getF_full (v : Word) : getF v ⟨23, 0⟩ = v.toNat := by
  have h := v.isLt
  simp only [getF, getBits, Nat.shiftRight_zero]
  exact Nat.mod_eq_of_lt h

/-- The whole word set. -/
theorem setF_full (v : Word) (n : Nat) : setF v ⟨23, 0⟩ n = w24 n := by
  apply BitVec.eq_of_getLsbD_eq
  intro i hi
  rw [setF_getLsbD v _ n i hi, if_pos (by constructor <;> simp <;> omega)]
  rw [w24, BitVec.getLsbD_ofNat]; simp [hi]

end Sys2Proof.Machine
end

