-- ==== Sys2Proof/Laws/Map.lean ====
section
/-!
SUPPORT. The laws of the sparse map: a read after a write, and the canonical form kept by every operation.
-/

namespace Sys2Proof.Machine

section

variable {α : Type}

@[simp] theorem SMap.get_nil (d : α) (k : Nat) : SMap.get d [] k = d := rfl

theorem SMap.get_put_eq (d : α) (m : SMap α) (k : Nat) (v : α) : SMap.get d (SMap.put m k v) k = v := by
  induction m with
  | nil => simp [SMap.put, SMap.get]
  | cons p r ih =>
    simp only [SMap.put]
    split
    · simp [SMap.get]
    · split
      · simp [SMap.get]
      · rename_i h
        simp [SMap.get, Ne.symm h, ih]

theorem SMap.get_put_ne (d : α) (m : SMap α) {k j : Nat} (v : α) (h : k ≠ j) :
    SMap.get d (SMap.put m k v) j = SMap.get d m j := by
  induction m with
  | nil => simp [SMap.put, SMap.get, h]
  | cons p r ih =>
    simp only [SMap.put]
    split
    · simp [SMap.get, h]
    · split
      · rename_i h2
        subst h2
        simp [SMap.get, h]
      · simp [SMap.get, ih]

theorem SMap.get_filter_ne (d : α) (m : SMap α) {k j : Nat} (h : k ≠ j) :
    SMap.get d (m.filter (fun p => decide (p.1 ≠ k))) j = SMap.get d m j := by
  induction m with
  | nil => rfl
  | cons p r ih =>
    by_cases hp : p.1 = k
    · simp [SMap.get, hp] at ih ⊢
      rw [ih, if_neg h]
    · simp [SMap.get, hp] at ih ⊢
      rw [ih]

theorem SMap.get_filter_eq (d : α) (m : SMap α) (k : Nat) : SMap.get d (m.filter (fun p => decide (p.1 ≠ k))) k = d := by
  induction m with
  | nil => rfl
  | cons p r ih =>
    by_cases hp : p.1 = k
    · simp [hp] at ih ⊢
      exact ih
    · simp [SMap.get, hp] at ih ⊢
      exact ih

variable [DecidableEq α]

/-- A read of a key just written gives the value written. -/
@[simp] theorem SMap.get_set_eq (d : α) (m : SMap α) (k : Nat) (v : α) : SMap.get d (SMap.set d m k v) k = v := by
  unfold SMap.set
  split
  · rename_i h
    rw [SMap.get_filter_eq, h]
  · exact SMap.get_put_eq d m k v

/-- A write leaves every other key alone, whatever an unlisted key reads as. -/
theorem SMap.get_set_ne (d d' : α) (m : SMap α) {k j : Nat} (v : α) (h : k ≠ j) :
    SMap.get d' (SMap.set d m k v) j = SMap.get d' m j := by
  unfold SMap.set
  split
  · exact SMap.get_filter_ne d' m h
  · exact SMap.get_put_ne d' m v h

/-- A read after a write, at any key. -/
theorem SMap.get_set (d : α) (m : SMap α) (k j : Nat) (v : α) :
    SMap.get d (SMap.set d m k v) j = if k = j then v else SMap.get d m j := by
  split
  · rename_i h
    subst h
    exact SMap.get_set_eq d m k v
  · rename_i h
    exact SMap.get_set_ne d d m v h

/-! ### The canonical form -/

theorem SMap.wfFrom_cons (f : Nat → α) (b : Option Nat) (k : Nat) (v : α) (r : SMap α) :
    SMap.wfFrom f b ((k, v) :: r) = true ↔ (∀ x, b = some x → x < k) ∧ v ≠ f k ∧ SMap.wfFrom f (some k) r = true := by
  cases b <;> simp [SMap.wfFrom, and_assoc]

theorem SMap.wfFrom_mono (f : Nat → α) {b c : Option Nat} (h : ∀ x, c = some x → ∃ y, b = some y ∧ x ≤ y) (m : SMap α)
    (hm : SMap.wfFrom f b m = true) : SMap.wfFrom f c m = true := by
  cases m with
  | nil => rfl
  | cons p r =>
    obtain ⟨k, v⟩ := p
    rw [SMap.wfFrom_cons] at hm ⊢
    refine ⟨fun x hx => ?_, hm.2⟩
    obtain ⟨y, hy, hxy⟩ := h x hx
    exact Nat.lt_of_le_of_lt hxy (hm.1 y hy)

/-- Dropping entries keeps the canonical form. -/
theorem SMap.wfFrom_filter (f : Nat → α) (p : Nat × α → Bool) (m : SMap α) :
    ∀ b, SMap.wfFrom f b m = true → SMap.wfFrom f b (m.filter p) = true := by
  induction m with
  | nil => intro b _; rfl
  | cons q r ih =>
    intro b hb
    obtain ⟨k, v⟩ := q
    rw [SMap.wfFrom_cons] at hb
    by_cases hp : p (k, v) = true
    · rw [List.filter_cons_of_pos hp, SMap.wfFrom_cons]
      exact ⟨hb.1, hb.2.1, ih _ hb.2.2⟩
    · rw [List.filter_cons_of_neg hp]
      refine ih b (SMap.wfFrom_mono f ?_ r hb.2.2)
      intro x hx
      exact ⟨k, rfl, Nat.le_of_lt (hb.1 x hx)⟩

theorem SMap.wfFrom_put (f : Nat → α) (m : SMap α) (k : Nat) (v : α) (hv : v ≠ f k) :
    ∀ b, (∀ x, b = some x → x < k) → SMap.wfFrom f b m = true → SMap.wfFrom f b (SMap.put m k v) = true := by
  induction m with
  | nil =>
    intro b hb _
    simp only [SMap.put]
    rw [SMap.wfFrom_cons]
    exact ⟨hb, hv, rfl⟩
  | cons p r ih =>
    intro b hb hm
    obtain ⟨k', v'⟩ := p
    rw [SMap.wfFrom_cons] at hm
    simp only [SMap.put]
    split
    · rename_i hlt
      rw [SMap.wfFrom_cons, SMap.wfFrom_cons]
      exact ⟨hb, hv, fun x hx => by cases hx; exact hlt, hm.2⟩
    · split
      · rename_i h2
        subst h2
        rw [SMap.wfFrom_cons]
        exact ⟨hb, hv, hm.2.2⟩
      · rename_i h1 h2
        rw [SMap.wfFrom_cons]
        refine ⟨hm.1, hm.2.1, ih _ ?_ hm.2.2⟩
        intro x hx
        cases hx
        omega

/-- A write of the value an unlisted key reads as, or of any other, keeps the canonical form. -/
theorem SMap.wf_set (f : Nat → α) (m : SMap α) (k : Nat) (v : α) (h : SMap.wf f m = true) :
    SMap.wf f (SMap.set (f k) m k v) = true := by
  unfold SMap.set
  split
  · exact SMap.wfFrom_filter f _ m none h
  · rename_i hv
    exact SMap.wfFrom_put f m k v hv none (fun x hx => by cases hx) h

/-- Dropping entries keeps the canonical form. -/
theorem SMap.wf_filter (f : Nat → α) (p : Nat × α → Bool) (m : SMap α) (h : SMap.wf f m = true) :
    SMap.wf f (m.filter p) = true := SMap.wfFrom_filter f p m none h

theorem SMap.wf_nil (f : Nat → α) : SMap.wf f [] = true := rfl

end

end Sys2Proof.Machine
end

