-- ==== Sys2Proof/Laws/Canon.lean ====
section
/-!
SUPPORT. The canonical form of the state's tables (State.canon) under the operations that write them: a write of a register, a memory
word, a thread or an engine keeps it, and so does any update of the other fields.
-/

namespace Sys2Proof.Machine

/-- The canonical form looks at four tables only. -/
theorem State.canon_of_tables {s t : State} (hm : t.mem = s.mem) (hr : t.regs = s.regs) (ht : t.thr = s.thr) (he : t.eng = s.eng)
    (h : s.canon) : t.canon := by
  unfold State.canon at h ⊢
  rw [hm, hr, ht, he]
  exact h

theorem State.canon_wr {s : State} (h : s.canon) (a : Nat) (v : Word) : (s.wr a v).canon :=
  ⟨h.1, SMap.wf_set regReset s.regs a v h.2.1, h.2.2⟩

theorem State.canon_setCell {s : State} (h : s.canon) (a : Nat) (c : MCell) : (s.setCell a c).canon :=
  ⟨SMap.wf_set memDflt s.mem a c h.1, h.2⟩

theorem State.canon_setTh {s : State} (h : s.canon) (k : Nat) (t : Thread) : (s.setTh k t).canon :=
  ⟨h.1, h.2.1, SMap.wf_set (fun _ => Thread.off) s.thr k t h.2.2.1, h.2.2.2⟩

theorem State.canon_setEn {s : State} (h : s.canon) (e : Nat) (x : Engine) : (s.setEn e x).canon :=
  ⟨h.1, h.2.1, h.2.2.1, SMap.wf_set (fun _ => Engine.init) s.eng e x h.2.2.2⟩

theorem State.canon_mapTh {s : State} (h : s.canon) (k : Nat) (f : Thread → Thread) : (s.mapTh k f).canon :=
  State.canon_setTh h k _

theorem State.canon_mapEn {s : State} (h : s.canon) (e : Nat) (f : Engine → Engine) : (s.mapEn e f).canon :=
  State.canon_setEn h e _

theorem State.canon_sf {s : State} (h : s.canon) (a : Nat) (f : Fld) (v : Nat) : (s.sf a f v).canon :=
  State.canon_wr h a _

theorem State.canon_draw {s : State} (h : s.canon) : s.draw.1.canon :=
  State.canon_of_tables (s := s) rfl rfl rfl rfl h

theorem State.canon_inc {s : State} (h : s.canon) (a : Nat) (f : Fld) : (s.inc a f).canon := State.canon_wr h a _

theorem State.canon_incW {s : State} (h : s.canon) (a : Nat) : (s.incW a).canon := State.canon_wr h a _

theorem State.canon_raise {s : State} (h : s.canon) (ev : Nat) : (s.raise ev).canon := by
  unfold State.raise
  split
  · exact h
  · split
    · exact h
    · split
      · exact State.canon_sf (State.canon_incW h _) _ _ _
      · exact h

theorem State.canon_raiseIf {s : State} (h : s.canon) (c : Bool) (ev : Nat) : (s.raiseIf c ev).canon := by
  unfold State.raiseIf
  split
  · exact State.canon_raise h ev
  · exact h

theorem State.canon_faultLog {s : State} (h : s.canon) (kind thread detail : Nat) (info : Word) :
    (s.faultLog kind thread detail info).canon :=
  State.canon_raise (State.canon_sf (State.canon_wr (State.canon_wr (State.canon_wr h _ _) _ _) _ _) _ _ _) _

theorem State.canon_denyLog {s : State} (h : s.canon) (kind cid detail thread : Nat) : (s.denyLog kind cid detail thread).canon :=
  State.canon_raise (State.canon_incW (State.canon_sf (State.canon_wr (State.canon_wr h _ _) _ _) _ _ _) _) _

theorem State.canon_escalate {s : State} (h : s.canon) (code : Nat) (en : Fld) : (s.escalate code en).canon := by
  unfold State.escalate
  split
  · have g := State.canon_faultLog h 11 0x1FF code 0
    dsimp only
    generalize s.faultLog 11 0x1FF code 0 = x at g ⊢
    split
    · exact g
    · have q : State.canon { x with flt := { x.flt with escAt := x.time.ticks } } := State.canon_of_tables (s := x) rfl rfl rfl rfl g
      exact State.canon_raise (State.canon_sf (State.canon_sf q _ _ _) _ _ _) _
  · exact h

theorem State.canon_errLog {s : State} (h : s.canon) (a : Nat) (ue : Bool) (src engine synd : Nat) :
    (s.errLog a ue src engine synd).canon := by
  unfold State.errLog
  dsimp only
  split <;> exact State.canon_raise (State.canon_inc (State.canon_sf (State.canon_wr (State.canon_wr (State.canon_wr h _ _) _ _) _ _) _ _ _) _ _) _

/-- A read of memory, with the write-back of a corrected word and its log entry. -/
theorem State.canon_memRead {s : State} (h : s.canon) (a src engine : Nat) : (s.memRead a src engine).1.canon := by
  unfold State.memRead
  split
  · exact h
  · split
    · exact h
    · exact State.canon_errLog (State.canon_setCell h _ _) _ _ _ _ _
    · exact State.canon_errLog h _ _ _ _ _

theorem State.canon_lbRelease {s : State} (h : s.canon) (e : Nat) : (s.lbRelease e).canon := by
  unfold State.lbRelease
  split
  · exact h
  · exact State.canon_mapEn (State.canon_mapTh h _ _) _ _

theorem State.canon_lbDo {s : State} (h : s.canon) (k : Nat) (a : LbAct) : (s.lbDo k a).canon := by
  unfold State.lbDo
  split
  · exact h
  · split
    · exact State.canon_lbRelease h _
    · exact h
  · dsimp only
    split
    · exact State.canon_incW (State.canon_mapEn h _ _) _
    · exact State.canon_mapTh h _ _

theorem State.canon_lbSnoop {s : State} (h : s.canon) (a : Nat) : (s.lbSnoop a).canon := by
  unfold State.lbSnoop
  dsimp only
  split
  · split
    · exact State.canon_lbRelease h _
    · exact h
  · exact h

/-- A write of memory, into the cells or into the MRAM write buffer. -/
theorem State.canon_memWrite {s : State} (h : s.canon) (a : Nat) (w : Word) : (s.memWrite a w).canon := by
  unfold State.memWrite
  dsimp only
  split
  · exact State.canon_sf (State.canon_of_tables (s := s) rfl rfl rfl rfl h) _ _ _
  · exact State.canon_lbSnoop (State.canon_setCell h _ _) _

/-- A fold of an operation that keeps the canonical form keeps it. -/
theorem State.canon_foldl {α : Type} (f : State → α → State) (hf : ∀ s a, s.canon → (f s a).canon) (l : List α) :
    ∀ s : State, s.canon → (l.foldl f s).canon := by
  induction l with
  | nil => intro s h; exact h
  | cons a r ih => intro s h; exact ih _ (hf s a h)

end Sys2Proof.Machine
end

