-- ==== Sys2Proof/Laws/State.lean ====
section
/-!
SUPPORT. One lemma per field of the state per named update: what the update leaves alone.
-/

namespace Sys2Proof.Machine

@[simp] theorem State.wr_pending (s : State) (a : Nat) (v : Word) : (s.wr a v).pending = s.pending := rfl
@[simp] theorem State.wr_fresh (s : State) (a : Nat) (v : Word) : (s.wr a v).fresh = s.fresh := rfl
@[simp] theorem State.wr_rdata (s : State) (a : Nat) (v : Word) : (s.wr a v).rdata = s.rdata := rfl
@[simp] theorem State.wr_mem (s : State) (a : Nat) (v : Word) : (s.wr a v).mem = s.mem := rfl
@[simp] theorem State.wr_thr (s : State) (a : Nat) (v : Word) : (s.wr a v).thr = s.thr := rfl
@[simp] theorem State.wr_eng (s : State) (a : Nat) (v : Word) : (s.wr a v).eng = s.eng := rfl
@[simp] theorem State.wr_ev (s : State) (a : Nat) (v : Word) : (s.wr a v).ev = s.ev := rfl
@[simp] theorem State.wr_memc (s : State) (a : Nat) (v : Word) : (s.wr a v).memc = s.memc := rfl
@[simp] theorem State.wr_bz (s : State) (a : Nat) (v : Word) : (s.wr a v).bz = s.bz := rfl
@[simp] theorem State.wr_str (s : State) (a : Nat) (v : Word) : (s.wr a v).str = s.str := rfl
@[simp] theorem State.wr_land (s : State) (a : Nat) (v : Word) : (s.wr a v).land = s.land := rfl
@[simp] theorem State.wr_bq (s : State) (a : Nat) (v : Word) : (s.wr a v).bq = s.bq := rfl
@[simp] theorem State.wr_time (s : State) (a : Nat) (v : Word) : (s.wr a v).time = s.time := rfl
@[simp] theorem State.wr_sys (s : State) (a : Nat) (v : Word) : (s.wr a v).sys = s.sys := rfl
@[simp] theorem State.wr_meas (s : State) (a : Nat) (v : Word) : (s.wr a v).meas = s.meas := rfl
@[simp] theorem State.wr_act (s : State) (a : Nat) (v : Word) : (s.wr a v).act = s.act := rfl
@[simp] theorem State.wr_comm (s : State) (a : Nat) (v : Word) : (s.wr a v).comm = s.comm := rfl
@[simp] theorem State.wr_chn (s : State) (a : Nat) (v : Word) : (s.wr a v).chn = s.chn := rfl
@[simp] theorem State.wr_pwr (s : State) (a : Nat) (v : Word) : (s.wr a v).pwr = s.pwr := rfl
@[simp] theorem State.wr_flt (s : State) (a : Nat) (v : Word) : (s.wr a v).flt = s.flt := rfl
@[simp] theorem State.wr_lp (s : State) (a : Nat) (v : Word) : (s.wr a v).lp = s.lp := rfl
@[simp] theorem State.wr_dl (s : State) (a : Nat) (v : Word) : (s.wr a v).dl = s.dl := rfl

@[simp] theorem State.sf_pending (s : State) (a : Nat) (f : Fld) (n : Nat) : (s.sf a f n).pending = s.pending := rfl
@[simp] theorem State.sf_fresh (s : State) (a : Nat) (f : Fld) (n : Nat) : (s.sf a f n).fresh = s.fresh := rfl
@[simp] theorem State.sf_rdata (s : State) (a : Nat) (f : Fld) (n : Nat) : (s.sf a f n).rdata = s.rdata := rfl
@[simp] theorem State.sf_mem (s : State) (a : Nat) (f : Fld) (n : Nat) : (s.sf a f n).mem = s.mem := rfl
@[simp] theorem State.sf_thr (s : State) (a : Nat) (f : Fld) (n : Nat) : (s.sf a f n).thr = s.thr := rfl
@[simp] theorem State.sf_eng (s : State) (a : Nat) (f : Fld) (n : Nat) : (s.sf a f n).eng = s.eng := rfl
@[simp] theorem State.sf_ev (s : State) (a : Nat) (f : Fld) (n : Nat) : (s.sf a f n).ev = s.ev := rfl
@[simp] theorem State.sf_memc (s : State) (a : Nat) (f : Fld) (n : Nat) : (s.sf a f n).memc = s.memc := rfl
@[simp] theorem State.sf_bz (s : State) (a : Nat) (f : Fld) (n : Nat) : (s.sf a f n).bz = s.bz := rfl
@[simp] theorem State.sf_str (s : State) (a : Nat) (f : Fld) (n : Nat) : (s.sf a f n).str = s.str := rfl
@[simp] theorem State.sf_land (s : State) (a : Nat) (f : Fld) (n : Nat) : (s.sf a f n).land = s.land := rfl
@[simp] theorem State.sf_bq (s : State) (a : Nat) (f : Fld) (n : Nat) : (s.sf a f n).bq = s.bq := rfl
@[simp] theorem State.sf_time (s : State) (a : Nat) (f : Fld) (n : Nat) : (s.sf a f n).time = s.time := rfl
@[simp] theorem State.sf_sys (s : State) (a : Nat) (f : Fld) (n : Nat) : (s.sf a f n).sys = s.sys := rfl
@[simp] theorem State.sf_meas (s : State) (a : Nat) (f : Fld) (n : Nat) : (s.sf a f n).meas = s.meas := rfl
@[simp] theorem State.sf_act (s : State) (a : Nat) (f : Fld) (n : Nat) : (s.sf a f n).act = s.act := rfl
@[simp] theorem State.sf_comm (s : State) (a : Nat) (f : Fld) (n : Nat) : (s.sf a f n).comm = s.comm := rfl
@[simp] theorem State.sf_chn (s : State) (a : Nat) (f : Fld) (n : Nat) : (s.sf a f n).chn = s.chn := rfl
@[simp] theorem State.sf_pwr (s : State) (a : Nat) (f : Fld) (n : Nat) : (s.sf a f n).pwr = s.pwr := rfl
@[simp] theorem State.sf_flt (s : State) (a : Nat) (f : Fld) (n : Nat) : (s.sf a f n).flt = s.flt := rfl
@[simp] theorem State.sf_lp (s : State) (a : Nat) (f : Fld) (n : Nat) : (s.sf a f n).lp = s.lp := rfl
@[simp] theorem State.sf_dl (s : State) (a : Nat) (f : Fld) (n : Nat) : (s.sf a f n).dl = s.dl := rfl

@[simp] theorem State.inc_pending (s : State) (a : Nat) (f : Fld) : (s.inc a f).pending = s.pending := rfl
@[simp] theorem State.inc_fresh (s : State) (a : Nat) (f : Fld) : (s.inc a f).fresh = s.fresh := rfl
@[simp] theorem State.inc_rdata (s : State) (a : Nat) (f : Fld) : (s.inc a f).rdata = s.rdata := rfl
@[simp] theorem State.inc_mem (s : State) (a : Nat) (f : Fld) : (s.inc a f).mem = s.mem := rfl
@[simp] theorem State.inc_thr (s : State) (a : Nat) (f : Fld) : (s.inc a f).thr = s.thr := rfl
@[simp] theorem State.inc_eng (s : State) (a : Nat) (f : Fld) : (s.inc a f).eng = s.eng := rfl
@[simp] theorem State.inc_ev (s : State) (a : Nat) (f : Fld) : (s.inc a f).ev = s.ev := rfl
@[simp] theorem State.inc_memc (s : State) (a : Nat) (f : Fld) : (s.inc a f).memc = s.memc := rfl
@[simp] theorem State.inc_bz (s : State) (a : Nat) (f : Fld) : (s.inc a f).bz = s.bz := rfl
@[simp] theorem State.inc_str (s : State) (a : Nat) (f : Fld) : (s.inc a f).str = s.str := rfl
@[simp] theorem State.inc_land (s : State) (a : Nat) (f : Fld) : (s.inc a f).land = s.land := rfl
@[simp] theorem State.inc_bq (s : State) (a : Nat) (f : Fld) : (s.inc a f).bq = s.bq := rfl
@[simp] theorem State.inc_time (s : State) (a : Nat) (f : Fld) : (s.inc a f).time = s.time := rfl
@[simp] theorem State.inc_sys (s : State) (a : Nat) (f : Fld) : (s.inc a f).sys = s.sys := rfl
@[simp] theorem State.inc_meas (s : State) (a : Nat) (f : Fld) : (s.inc a f).meas = s.meas := rfl
@[simp] theorem State.inc_act (s : State) (a : Nat) (f : Fld) : (s.inc a f).act = s.act := rfl
@[simp] theorem State.inc_comm (s : State) (a : Nat) (f : Fld) : (s.inc a f).comm = s.comm := rfl
@[simp] theorem State.inc_chn (s : State) (a : Nat) (f : Fld) : (s.inc a f).chn = s.chn := rfl
@[simp] theorem State.inc_pwr (s : State) (a : Nat) (f : Fld) : (s.inc a f).pwr = s.pwr := rfl
@[simp] theorem State.inc_flt (s : State) (a : Nat) (f : Fld) : (s.inc a f).flt = s.flt := rfl
@[simp] theorem State.inc_lp (s : State) (a : Nat) (f : Fld) : (s.inc a f).lp = s.lp := rfl
@[simp] theorem State.inc_dl (s : State) (a : Nat) (f : Fld) : (s.inc a f).dl = s.dl := rfl

@[simp] theorem State.incW_pending (s : State) (a : Nat) : (s.incW a).pending = s.pending := rfl
@[simp] theorem State.incW_fresh (s : State) (a : Nat) : (s.incW a).fresh = s.fresh := rfl
@[simp] theorem State.incW_rdata (s : State) (a : Nat) : (s.incW a).rdata = s.rdata := rfl
@[simp] theorem State.incW_mem (s : State) (a : Nat) : (s.incW a).mem = s.mem := rfl
@[simp] theorem State.incW_thr (s : State) (a : Nat) : (s.incW a).thr = s.thr := rfl
@[simp] theorem State.incW_eng (s : State) (a : Nat) : (s.incW a).eng = s.eng := rfl
@[simp] theorem State.incW_ev (s : State) (a : Nat) : (s.incW a).ev = s.ev := rfl
@[simp] theorem State.incW_memc (s : State) (a : Nat) : (s.incW a).memc = s.memc := rfl
@[simp] theorem State.incW_bz (s : State) (a : Nat) : (s.incW a).bz = s.bz := rfl
@[simp] theorem State.incW_str (s : State) (a : Nat) : (s.incW a).str = s.str := rfl
@[simp] theorem State.incW_land (s : State) (a : Nat) : (s.incW a).land = s.land := rfl
@[simp] theorem State.incW_bq (s : State) (a : Nat) : (s.incW a).bq = s.bq := rfl
@[simp] theorem State.incW_time (s : State) (a : Nat) : (s.incW a).time = s.time := rfl
@[simp] theorem State.incW_sys (s : State) (a : Nat) : (s.incW a).sys = s.sys := rfl
@[simp] theorem State.incW_meas (s : State) (a : Nat) : (s.incW a).meas = s.meas := rfl
@[simp] theorem State.incW_act (s : State) (a : Nat) : (s.incW a).act = s.act := rfl
@[simp] theorem State.incW_comm (s : State) (a : Nat) : (s.incW a).comm = s.comm := rfl
@[simp] theorem State.incW_chn (s : State) (a : Nat) : (s.incW a).chn = s.chn := rfl
@[simp] theorem State.incW_pwr (s : State) (a : Nat) : (s.incW a).pwr = s.pwr := rfl
@[simp] theorem State.incW_flt (s : State) (a : Nat) : (s.incW a).flt = s.flt := rfl
@[simp] theorem State.incW_lp (s : State) (a : Nat) : (s.incW a).lp = s.lp := rfl
@[simp] theorem State.incW_dl (s : State) (a : Nat) : (s.incW a).dl = s.dl := rfl

@[simp] theorem State.setTh_pending (s : State) (k : Nat) (t : Thread) : (s.setTh k t).pending = s.pending := rfl
@[simp] theorem State.setTh_fresh (s : State) (k : Nat) (t : Thread) : (s.setTh k t).fresh = s.fresh := rfl
@[simp] theorem State.setTh_rdata (s : State) (k : Nat) (t : Thread) : (s.setTh k t).rdata = s.rdata := rfl
@[simp] theorem State.setTh_regs (s : State) (k : Nat) (t : Thread) : (s.setTh k t).regs = s.regs := rfl
@[simp] theorem State.setTh_mem (s : State) (k : Nat) (t : Thread) : (s.setTh k t).mem = s.mem := rfl
@[simp] theorem State.setTh_eng (s : State) (k : Nat) (t : Thread) : (s.setTh k t).eng = s.eng := rfl
@[simp] theorem State.setTh_ev (s : State) (k : Nat) (t : Thread) : (s.setTh k t).ev = s.ev := rfl
@[simp] theorem State.setTh_memc (s : State) (k : Nat) (t : Thread) : (s.setTh k t).memc = s.memc := rfl
@[simp] theorem State.setTh_bz (s : State) (k : Nat) (t : Thread) : (s.setTh k t).bz = s.bz := rfl
@[simp] theorem State.setTh_str (s : State) (k : Nat) (t : Thread) : (s.setTh k t).str = s.str := rfl
@[simp] theorem State.setTh_land (s : State) (k : Nat) (t : Thread) : (s.setTh k t).land = s.land := rfl
@[simp] theorem State.setTh_bq (s : State) (k : Nat) (t : Thread) : (s.setTh k t).bq = s.bq := rfl
@[simp] theorem State.setTh_time (s : State) (k : Nat) (t : Thread) : (s.setTh k t).time = s.time := rfl
@[simp] theorem State.setTh_sys (s : State) (k : Nat) (t : Thread) : (s.setTh k t).sys = s.sys := rfl
@[simp] theorem State.setTh_meas (s : State) (k : Nat) (t : Thread) : (s.setTh k t).meas = s.meas := rfl
@[simp] theorem State.setTh_act (s : State) (k : Nat) (t : Thread) : (s.setTh k t).act = s.act := rfl
@[simp] theorem State.setTh_comm (s : State) (k : Nat) (t : Thread) : (s.setTh k t).comm = s.comm := rfl
@[simp] theorem State.setTh_chn (s : State) (k : Nat) (t : Thread) : (s.setTh k t).chn = s.chn := rfl
@[simp] theorem State.setTh_pwr (s : State) (k : Nat) (t : Thread) : (s.setTh k t).pwr = s.pwr := rfl
@[simp] theorem State.setTh_flt (s : State) (k : Nat) (t : Thread) : (s.setTh k t).flt = s.flt := rfl
@[simp] theorem State.setTh_lp (s : State) (k : Nat) (t : Thread) : (s.setTh k t).lp = s.lp := rfl
@[simp] theorem State.setTh_dl (s : State) (k : Nat) (t : Thread) : (s.setTh k t).dl = s.dl := rfl

@[simp] theorem State.mapTh_pending (s : State) (k : Nat) (f : Thread → Thread) : (s.mapTh k f).pending = s.pending := rfl
@[simp] theorem State.mapTh_fresh (s : State) (k : Nat) (f : Thread → Thread) : (s.mapTh k f).fresh = s.fresh := rfl
@[simp] theorem State.mapTh_rdata (s : State) (k : Nat) (f : Thread → Thread) : (s.mapTh k f).rdata = s.rdata := rfl
@[simp] theorem State.mapTh_regs (s : State) (k : Nat) (f : Thread → Thread) : (s.mapTh k f).regs = s.regs := rfl
@[simp] theorem State.mapTh_mem (s : State) (k : Nat) (f : Thread → Thread) : (s.mapTh k f).mem = s.mem := rfl
@[simp] theorem State.mapTh_eng (s : State) (k : Nat) (f : Thread → Thread) : (s.mapTh k f).eng = s.eng := rfl
@[simp] theorem State.mapTh_ev (s : State) (k : Nat) (f : Thread → Thread) : (s.mapTh k f).ev = s.ev := rfl
@[simp] theorem State.mapTh_memc (s : State) (k : Nat) (f : Thread → Thread) : (s.mapTh k f).memc = s.memc := rfl
@[simp] theorem State.mapTh_bz (s : State) (k : Nat) (f : Thread → Thread) : (s.mapTh k f).bz = s.bz := rfl
@[simp] theorem State.mapTh_str (s : State) (k : Nat) (f : Thread → Thread) : (s.mapTh k f).str = s.str := rfl
@[simp] theorem State.mapTh_land (s : State) (k : Nat) (f : Thread → Thread) : (s.mapTh k f).land = s.land := rfl
@[simp] theorem State.mapTh_bq (s : State) (k : Nat) (f : Thread → Thread) : (s.mapTh k f).bq = s.bq := rfl
@[simp] theorem State.mapTh_time (s : State) (k : Nat) (f : Thread → Thread) : (s.mapTh k f).time = s.time := rfl
@[simp] theorem State.mapTh_sys (s : State) (k : Nat) (f : Thread → Thread) : (s.mapTh k f).sys = s.sys := rfl
@[simp] theorem State.mapTh_meas (s : State) (k : Nat) (f : Thread → Thread) : (s.mapTh k f).meas = s.meas := rfl
@[simp] theorem State.mapTh_act (s : State) (k : Nat) (f : Thread → Thread) : (s.mapTh k f).act = s.act := rfl
@[simp] theorem State.mapTh_comm (s : State) (k : Nat) (f : Thread → Thread) : (s.mapTh k f).comm = s.comm := rfl
@[simp] theorem State.mapTh_chn (s : State) (k : Nat) (f : Thread → Thread) : (s.mapTh k f).chn = s.chn := rfl
@[simp] theorem State.mapTh_pwr (s : State) (k : Nat) (f : Thread → Thread) : (s.mapTh k f).pwr = s.pwr := rfl
@[simp] theorem State.mapTh_flt (s : State) (k : Nat) (f : Thread → Thread) : (s.mapTh k f).flt = s.flt := rfl
@[simp] theorem State.mapTh_lp (s : State) (k : Nat) (f : Thread → Thread) : (s.mapTh k f).lp = s.lp := rfl
@[simp] theorem State.mapTh_dl (s : State) (k : Nat) (f : Thread → Thread) : (s.mapTh k f).dl = s.dl := rfl

@[simp] theorem State.setEn_pending (s : State) (e : Nat) (x : Engine) : (s.setEn e x).pending = s.pending := rfl
@[simp] theorem State.setEn_fresh (s : State) (e : Nat) (x : Engine) : (s.setEn e x).fresh = s.fresh := rfl
@[simp] theorem State.setEn_rdata (s : State) (e : Nat) (x : Engine) : (s.setEn e x).rdata = s.rdata := rfl
@[simp] theorem State.setEn_regs (s : State) (e : Nat) (x : Engine) : (s.setEn e x).regs = s.regs := rfl
@[simp] theorem State.setEn_mem (s : State) (e : Nat) (x : Engine) : (s.setEn e x).mem = s.mem := rfl
@[simp] theorem State.setEn_thr (s : State) (e : Nat) (x : Engine) : (s.setEn e x).thr = s.thr := rfl
@[simp] theorem State.setEn_ev (s : State) (e : Nat) (x : Engine) : (s.setEn e x).ev = s.ev := rfl
@[simp] theorem State.setEn_memc (s : State) (e : Nat) (x : Engine) : (s.setEn e x).memc = s.memc := rfl
@[simp] theorem State.setEn_bz (s : State) (e : Nat) (x : Engine) : (s.setEn e x).bz = s.bz := rfl
@[simp] theorem State.setEn_str (s : State) (e : Nat) (x : Engine) : (s.setEn e x).str = s.str := rfl
@[simp] theorem State.setEn_land (s : State) (e : Nat) (x : Engine) : (s.setEn e x).land = s.land := rfl
@[simp] theorem State.setEn_bq (s : State) (e : Nat) (x : Engine) : (s.setEn e x).bq = s.bq := rfl
@[simp] theorem State.setEn_time (s : State) (e : Nat) (x : Engine) : (s.setEn e x).time = s.time := rfl
@[simp] theorem State.setEn_sys (s : State) (e : Nat) (x : Engine) : (s.setEn e x).sys = s.sys := rfl
@[simp] theorem State.setEn_meas (s : State) (e : Nat) (x : Engine) : (s.setEn e x).meas = s.meas := rfl
@[simp] theorem State.setEn_act (s : State) (e : Nat) (x : Engine) : (s.setEn e x).act = s.act := rfl
@[simp] theorem State.setEn_comm (s : State) (e : Nat) (x : Engine) : (s.setEn e x).comm = s.comm := rfl
@[simp] theorem State.setEn_chn (s : State) (e : Nat) (x : Engine) : (s.setEn e x).chn = s.chn := rfl
@[simp] theorem State.setEn_pwr (s : State) (e : Nat) (x : Engine) : (s.setEn e x).pwr = s.pwr := rfl
@[simp] theorem State.setEn_flt (s : State) (e : Nat) (x : Engine) : (s.setEn e x).flt = s.flt := rfl
@[simp] theorem State.setEn_lp (s : State) (e : Nat) (x : Engine) : (s.setEn e x).lp = s.lp := rfl
@[simp] theorem State.setEn_dl (s : State) (e : Nat) (x : Engine) : (s.setEn e x).dl = s.dl := rfl

@[simp] theorem State.mapEn_pending (s : State) (e : Nat) (f : Engine → Engine) : (s.mapEn e f).pending = s.pending := rfl
@[simp] theorem State.mapEn_fresh (s : State) (e : Nat) (f : Engine → Engine) : (s.mapEn e f).fresh = s.fresh := rfl
@[simp] theorem State.mapEn_rdata (s : State) (e : Nat) (f : Engine → Engine) : (s.mapEn e f).rdata = s.rdata := rfl
@[simp] theorem State.mapEn_regs (s : State) (e : Nat) (f : Engine → Engine) : (s.mapEn e f).regs = s.regs := rfl
@[simp] theorem State.mapEn_mem (s : State) (e : Nat) (f : Engine → Engine) : (s.mapEn e f).mem = s.mem := rfl
@[simp] theorem State.mapEn_thr (s : State) (e : Nat) (f : Engine → Engine) : (s.mapEn e f).thr = s.thr := rfl
@[simp] theorem State.mapEn_ev (s : State) (e : Nat) (f : Engine → Engine) : (s.mapEn e f).ev = s.ev := rfl
@[simp] theorem State.mapEn_memc (s : State) (e : Nat) (f : Engine → Engine) : (s.mapEn e f).memc = s.memc := rfl
@[simp] theorem State.mapEn_bz (s : State) (e : Nat) (f : Engine → Engine) : (s.mapEn e f).bz = s.bz := rfl
@[simp] theorem State.mapEn_str (s : State) (e : Nat) (f : Engine → Engine) : (s.mapEn e f).str = s.str := rfl
@[simp] theorem State.mapEn_land (s : State) (e : Nat) (f : Engine → Engine) : (s.mapEn e f).land = s.land := rfl
@[simp] theorem State.mapEn_bq (s : State) (e : Nat) (f : Engine → Engine) : (s.mapEn e f).bq = s.bq := rfl
@[simp] theorem State.mapEn_time (s : State) (e : Nat) (f : Engine → Engine) : (s.mapEn e f).time = s.time := rfl
@[simp] theorem State.mapEn_sys (s : State) (e : Nat) (f : Engine → Engine) : (s.mapEn e f).sys = s.sys := rfl
@[simp] theorem State.mapEn_meas (s : State) (e : Nat) (f : Engine → Engine) : (s.mapEn e f).meas = s.meas := rfl
@[simp] theorem State.mapEn_act (s : State) (e : Nat) (f : Engine → Engine) : (s.mapEn e f).act = s.act := rfl
@[simp] theorem State.mapEn_comm (s : State) (e : Nat) (f : Engine → Engine) : (s.mapEn e f).comm = s.comm := rfl
@[simp] theorem State.mapEn_chn (s : State) (e : Nat) (f : Engine → Engine) : (s.mapEn e f).chn = s.chn := rfl
@[simp] theorem State.mapEn_pwr (s : State) (e : Nat) (f : Engine → Engine) : (s.mapEn e f).pwr = s.pwr := rfl
@[simp] theorem State.mapEn_flt (s : State) (e : Nat) (f : Engine → Engine) : (s.mapEn e f).flt = s.flt := rfl
@[simp] theorem State.mapEn_lp (s : State) (e : Nat) (f : Engine → Engine) : (s.mapEn e f).lp = s.lp := rfl
@[simp] theorem State.mapEn_dl (s : State) (e : Nat) (f : Engine → Engine) : (s.mapEn e f).dl = s.dl := rfl

@[simp] theorem State.setCap_pending (s : State) (c : Nat) (x : Capsule) : (s.setCap c x).pending = s.pending := rfl
@[simp] theorem State.setCap_fresh (s : State) (c : Nat) (x : Capsule) : (s.setCap c x).fresh = s.fresh := rfl
@[simp] theorem State.setCap_rdata (s : State) (c : Nat) (x : Capsule) : (s.setCap c x).rdata = s.rdata := rfl
@[simp] theorem State.setCap_regs (s : State) (c : Nat) (x : Capsule) : (s.setCap c x).regs = s.regs := rfl
@[simp] theorem State.setCap_mem (s : State) (c : Nat) (x : Capsule) : (s.setCap c x).mem = s.mem := rfl
@[simp] theorem State.setCap_thr (s : State) (c : Nat) (x : Capsule) : (s.setCap c x).thr = s.thr := rfl
@[simp] theorem State.setCap_eng (s : State) (c : Nat) (x : Capsule) : (s.setCap c x).eng = s.eng := rfl
@[simp] theorem State.setCap_ev (s : State) (c : Nat) (x : Capsule) : (s.setCap c x).ev = s.ev := rfl
@[simp] theorem State.setCap_memc (s : State) (c : Nat) (x : Capsule) : (s.setCap c x).memc = s.memc := rfl
@[simp] theorem State.setCap_str (s : State) (c : Nat) (x : Capsule) : (s.setCap c x).str = s.str := rfl
@[simp] theorem State.setCap_land (s : State) (c : Nat) (x : Capsule) : (s.setCap c x).land = s.land := rfl
@[simp] theorem State.setCap_bq (s : State) (c : Nat) (x : Capsule) : (s.setCap c x).bq = s.bq := rfl
@[simp] theorem State.setCap_time (s : State) (c : Nat) (x : Capsule) : (s.setCap c x).time = s.time := rfl
@[simp] theorem State.setCap_sys (s : State) (c : Nat) (x : Capsule) : (s.setCap c x).sys = s.sys := rfl
@[simp] theorem State.setCap_meas (s : State) (c : Nat) (x : Capsule) : (s.setCap c x).meas = s.meas := rfl
@[simp] theorem State.setCap_act (s : State) (c : Nat) (x : Capsule) : (s.setCap c x).act = s.act := rfl
@[simp] theorem State.setCap_comm (s : State) (c : Nat) (x : Capsule) : (s.setCap c x).comm = s.comm := rfl
@[simp] theorem State.setCap_chn (s : State) (c : Nat) (x : Capsule) : (s.setCap c x).chn = s.chn := rfl
@[simp] theorem State.setCap_pwr (s : State) (c : Nat) (x : Capsule) : (s.setCap c x).pwr = s.pwr := rfl
@[simp] theorem State.setCap_flt (s : State) (c : Nat) (x : Capsule) : (s.setCap c x).flt = s.flt := rfl
@[simp] theorem State.setCap_lp (s : State) (c : Nat) (x : Capsule) : (s.setCap c x).lp = s.lp := rfl
@[simp] theorem State.setCap_dl (s : State) (c : Nat) (x : Capsule) : (s.setCap c x).dl = s.dl := rfl

@[simp] theorem State.mapCap_pending (s : State) (c : Nat) (f : Capsule → Capsule) : (s.mapCap c f).pending = s.pending := rfl
@[simp] theorem State.mapCap_fresh (s : State) (c : Nat) (f : Capsule → Capsule) : (s.mapCap c f).fresh = s.fresh := rfl
@[simp] theorem State.mapCap_rdata (s : State) (c : Nat) (f : Capsule → Capsule) : (s.mapCap c f).rdata = s.rdata := rfl
@[simp] theorem State.mapCap_regs (s : State) (c : Nat) (f : Capsule → Capsule) : (s.mapCap c f).regs = s.regs := rfl
@[simp] theorem State.mapCap_mem (s : State) (c : Nat) (f : Capsule → Capsule) : (s.mapCap c f).mem = s.mem := rfl
@[simp] theorem State.mapCap_thr (s : State) (c : Nat) (f : Capsule → Capsule) : (s.mapCap c f).thr = s.thr := rfl
@[simp] theorem State.mapCap_eng (s : State) (c : Nat) (f : Capsule → Capsule) : (s.mapCap c f).eng = s.eng := rfl
@[simp] theorem State.mapCap_ev (s : State) (c : Nat) (f : Capsule → Capsule) : (s.mapCap c f).ev = s.ev := rfl
@[simp] theorem State.mapCap_memc (s : State) (c : Nat) (f : Capsule → Capsule) : (s.mapCap c f).memc = s.memc := rfl
@[simp] theorem State.mapCap_str (s : State) (c : Nat) (f : Capsule → Capsule) : (s.mapCap c f).str = s.str := rfl
@[simp] theorem State.mapCap_land (s : State) (c : Nat) (f : Capsule → Capsule) : (s.mapCap c f).land = s.land := rfl
@[simp] theorem State.mapCap_bq (s : State) (c : Nat) (f : Capsule → Capsule) : (s.mapCap c f).bq = s.bq := rfl
@[simp] theorem State.mapCap_time (s : State) (c : Nat) (f : Capsule → Capsule) : (s.mapCap c f).time = s.time := rfl
@[simp] theorem State.mapCap_sys (s : State) (c : Nat) (f : Capsule → Capsule) : (s.mapCap c f).sys = s.sys := rfl
@[simp] theorem State.mapCap_meas (s : State) (c : Nat) (f : Capsule → Capsule) : (s.mapCap c f).meas = s.meas := rfl
@[simp] theorem State.mapCap_act (s : State) (c : Nat) (f : Capsule → Capsule) : (s.mapCap c f).act = s.act := rfl
@[simp] theorem State.mapCap_comm (s : State) (c : Nat) (f : Capsule → Capsule) : (s.mapCap c f).comm = s.comm := rfl
@[simp] theorem State.mapCap_chn (s : State) (c : Nat) (f : Capsule → Capsule) : (s.mapCap c f).chn = s.chn := rfl
@[simp] theorem State.mapCap_pwr (s : State) (c : Nat) (f : Capsule → Capsule) : (s.mapCap c f).pwr = s.pwr := rfl
@[simp] theorem State.mapCap_flt (s : State) (c : Nat) (f : Capsule → Capsule) : (s.mapCap c f).flt = s.flt := rfl
@[simp] theorem State.mapCap_lp (s : State) (c : Nat) (f : Capsule → Capsule) : (s.mapCap c f).lp = s.lp := rfl
@[simp] theorem State.mapCap_dl (s : State) (c : Nat) (f : Capsule → Capsule) : (s.mapCap c f).dl = s.dl := rfl

@[simp] theorem State.setCell_pending (s : State) (a : Nat) (c : MCell) : (s.setCell a c).pending = s.pending := rfl
@[simp] theorem State.setCell_fresh (s : State) (a : Nat) (c : MCell) : (s.setCell a c).fresh = s.fresh := rfl
@[simp] theorem State.setCell_rdata (s : State) (a : Nat) (c : MCell) : (s.setCell a c).rdata = s.rdata := rfl
@[simp] theorem State.setCell_regs (s : State) (a : Nat) (c : MCell) : (s.setCell a c).regs = s.regs := rfl
@[simp] theorem State.setCell_thr (s : State) (a : Nat) (c : MCell) : (s.setCell a c).thr = s.thr := rfl
@[simp] theorem State.setCell_eng (s : State) (a : Nat) (c : MCell) : (s.setCell a c).eng = s.eng := rfl
@[simp] theorem State.setCell_ev (s : State) (a : Nat) (c : MCell) : (s.setCell a c).ev = s.ev := rfl
@[simp] theorem State.setCell_memc (s : State) (a : Nat) (c : MCell) : (s.setCell a c).memc = s.memc := rfl
@[simp] theorem State.setCell_bz (s : State) (a : Nat) (c : MCell) : (s.setCell a c).bz = s.bz := rfl
@[simp] theorem State.setCell_str (s : State) (a : Nat) (c : MCell) : (s.setCell a c).str = s.str := rfl
@[simp] theorem State.setCell_land (s : State) (a : Nat) (c : MCell) : (s.setCell a c).land = s.land := rfl
@[simp] theorem State.setCell_bq (s : State) (a : Nat) (c : MCell) : (s.setCell a c).bq = s.bq := rfl
@[simp] theorem State.setCell_time (s : State) (a : Nat) (c : MCell) : (s.setCell a c).time = s.time := rfl
@[simp] theorem State.setCell_sys (s : State) (a : Nat) (c : MCell) : (s.setCell a c).sys = s.sys := rfl
@[simp] theorem State.setCell_meas (s : State) (a : Nat) (c : MCell) : (s.setCell a c).meas = s.meas := rfl
@[simp] theorem State.setCell_act (s : State) (a : Nat) (c : MCell) : (s.setCell a c).act = s.act := rfl
@[simp] theorem State.setCell_comm (s : State) (a : Nat) (c : MCell) : (s.setCell a c).comm = s.comm := rfl
@[simp] theorem State.setCell_chn (s : State) (a : Nat) (c : MCell) : (s.setCell a c).chn = s.chn := rfl
@[simp] theorem State.setCell_pwr (s : State) (a : Nat) (c : MCell) : (s.setCell a c).pwr = s.pwr := rfl
@[simp] theorem State.setCell_flt (s : State) (a : Nat) (c : MCell) : (s.setCell a c).flt = s.flt := rfl
@[simp] theorem State.setCell_lp (s : State) (a : Nat) (c : MCell) : (s.setCell a c).lp = s.lp := rfl
@[simp] theorem State.setCell_dl (s : State) (a : Nat) (c : MCell) : (s.setCell a c).dl = s.dl := rfl

@[simp] theorem State.setSrc_pending (s : State) (e n : Nat) (x : Src) : (s.setSrc e n x).pending = s.pending := rfl
@[simp] theorem State.setSrc_fresh (s : State) (e n : Nat) (x : Src) : (s.setSrc e n x).fresh = s.fresh := rfl
@[simp] theorem State.setSrc_rdata (s : State) (e n : Nat) (x : Src) : (s.setSrc e n x).rdata = s.rdata := rfl
@[simp] theorem State.setSrc_regs (s : State) (e n : Nat) (x : Src) : (s.setSrc e n x).regs = s.regs := rfl
@[simp] theorem State.setSrc_mem (s : State) (e n : Nat) (x : Src) : (s.setSrc e n x).mem = s.mem := rfl
@[simp] theorem State.setSrc_thr (s : State) (e n : Nat) (x : Src) : (s.setSrc e n x).thr = s.thr := rfl
@[simp] theorem State.setSrc_ev (s : State) (e n : Nat) (x : Src) : (s.setSrc e n x).ev = s.ev := rfl
@[simp] theorem State.setSrc_memc (s : State) (e n : Nat) (x : Src) : (s.setSrc e n x).memc = s.memc := rfl
@[simp] theorem State.setSrc_bz (s : State) (e n : Nat) (x : Src) : (s.setSrc e n x).bz = s.bz := rfl
@[simp] theorem State.setSrc_str (s : State) (e n : Nat) (x : Src) : (s.setSrc e n x).str = s.str := rfl
@[simp] theorem State.setSrc_land (s : State) (e n : Nat) (x : Src) : (s.setSrc e n x).land = s.land := rfl
@[simp] theorem State.setSrc_bq (s : State) (e n : Nat) (x : Src) : (s.setSrc e n x).bq = s.bq := rfl
@[simp] theorem State.setSrc_time (s : State) (e n : Nat) (x : Src) : (s.setSrc e n x).time = s.time := rfl
@[simp] theorem State.setSrc_sys (s : State) (e n : Nat) (x : Src) : (s.setSrc e n x).sys = s.sys := rfl
@[simp] theorem State.setSrc_meas (s : State) (e n : Nat) (x : Src) : (s.setSrc e n x).meas = s.meas := rfl
@[simp] theorem State.setSrc_act (s : State) (e n : Nat) (x : Src) : (s.setSrc e n x).act = s.act := rfl
@[simp] theorem State.setSrc_comm (s : State) (e n : Nat) (x : Src) : (s.setSrc e n x).comm = s.comm := rfl
@[simp] theorem State.setSrc_chn (s : State) (e n : Nat) (x : Src) : (s.setSrc e n x).chn = s.chn := rfl
@[simp] theorem State.setSrc_pwr (s : State) (e n : Nat) (x : Src) : (s.setSrc e n x).pwr = s.pwr := rfl
@[simp] theorem State.setSrc_flt (s : State) (e n : Nat) (x : Src) : (s.setSrc e n x).flt = s.flt := rfl
@[simp] theorem State.setSrc_lp (s : State) (e n : Nat) (x : Src) : (s.setSrc e n x).lp = s.lp := rfl
@[simp] theorem State.setSrc_dl (s : State) (e n : Nat) (x : Src) : (s.setSrc e n x).dl = s.dl := rfl

@[simp] theorem State.setPend_pending (s : State) (e n : Nat) : (s.setPend e n).pending = s.pending := rfl
@[simp] theorem State.setPend_fresh (s : State) (e n : Nat) : (s.setPend e n).fresh = s.fresh := rfl
@[simp] theorem State.setPend_rdata (s : State) (e n : Nat) : (s.setPend e n).rdata = s.rdata := rfl
@[simp] theorem State.setPend_mem (s : State) (e n : Nat) : (s.setPend e n).mem = s.mem := rfl
@[simp] theorem State.setPend_thr (s : State) (e n : Nat) : (s.setPend e n).thr = s.thr := rfl
@[simp] theorem State.setPend_eng (s : State) (e n : Nat) : (s.setPend e n).eng = s.eng := rfl
@[simp] theorem State.setPend_ev (s : State) (e n : Nat) : (s.setPend e n).ev = s.ev := rfl
@[simp] theorem State.setPend_memc (s : State) (e n : Nat) : (s.setPend e n).memc = s.memc := rfl
@[simp] theorem State.setPend_bz (s : State) (e n : Nat) : (s.setPend e n).bz = s.bz := rfl
@[simp] theorem State.setPend_str (s : State) (e n : Nat) : (s.setPend e n).str = s.str := rfl
@[simp] theorem State.setPend_land (s : State) (e n : Nat) : (s.setPend e n).land = s.land := rfl
@[simp] theorem State.setPend_bq (s : State) (e n : Nat) : (s.setPend e n).bq = s.bq := rfl
@[simp] theorem State.setPend_time (s : State) (e n : Nat) : (s.setPend e n).time = s.time := rfl
@[simp] theorem State.setPend_sys (s : State) (e n : Nat) : (s.setPend e n).sys = s.sys := rfl
@[simp] theorem State.setPend_meas (s : State) (e n : Nat) : (s.setPend e n).meas = s.meas := rfl
@[simp] theorem State.setPend_act (s : State) (e n : Nat) : (s.setPend e n).act = s.act := rfl
@[simp] theorem State.setPend_comm (s : State) (e n : Nat) : (s.setPend e n).comm = s.comm := rfl
@[simp] theorem State.setPend_chn (s : State) (e n : Nat) : (s.setPend e n).chn = s.chn := rfl
@[simp] theorem State.setPend_pwr (s : State) (e n : Nat) : (s.setPend e n).pwr = s.pwr := rfl
@[simp] theorem State.setPend_flt (s : State) (e n : Nat) : (s.setPend e n).flt = s.flt := rfl
@[simp] theorem State.setPend_lp (s : State) (e n : Nat) : (s.setPend e n).lp = s.lp := rfl
@[simp] theorem State.setPend_dl (s : State) (e n : Nat) : (s.setPend e n).dl = s.dl := rfl

end Sys2Proof.Machine
end

