-- ==== Sys2Proof/Laws/Regs.lean ====
section
/-!
SUPPORT. Reading after writing: device registers, threads, engines, capsules and memory cells, each read after each named update.
-/

namespace Sys2Proof.Machine

@[simp] theorem State.wr_th (s : State) (a : Nat) (v : Word) (j : Nat) : (s.wr a v).th j = s.th j := rfl
@[simp] theorem State.wr_en (s : State) (a : Nat) (v : Word) (j : Nat) : (s.wr a v).en j = s.en j := rfl
@[simp] theorem State.wr_cap (s : State) (a : Nat) (v : Word) (j : Nat) : (s.wr a v).cap j = s.cap j := rfl
@[simp] theorem State.wr_cell (s : State) (a : Nat) (v : Word) (b : Nat) : (s.wr a v).cell b = s.cell b := rfl

@[simp] theorem State.sf_th (s : State) (a : Nat) (f : Fld) (n : Nat) (j : Nat) : (s.sf a f n).th j = s.th j := rfl
@[simp] theorem State.sf_en (s : State) (a : Nat) (f : Fld) (n : Nat) (j : Nat) : (s.sf a f n).en j = s.en j := rfl
@[simp] theorem State.sf_cap (s : State) (a : Nat) (f : Fld) (n : Nat) (j : Nat) : (s.sf a f n).cap j = s.cap j := rfl
@[simp] theorem State.sf_cell (s : State) (a : Nat) (f : Fld) (n : Nat) (b : Nat) : (s.sf a f n).cell b = s.cell b := rfl

@[simp] theorem State.inc_th (s : State) (a : Nat) (f : Fld) (j : Nat) : (s.inc a f).th j = s.th j := rfl
@[simp] theorem State.inc_en (s : State) (a : Nat) (f : Fld) (j : Nat) : (s.inc a f).en j = s.en j := rfl
@[simp] theorem State.inc_cap (s : State) (a : Nat) (f : Fld) (j : Nat) : (s.inc a f).cap j = s.cap j := rfl
@[simp] theorem State.inc_cell (s : State) (a : Nat) (f : Fld) (b : Nat) : (s.inc a f).cell b = s.cell b := rfl

@[simp] theorem State.incW_th (s : State) (a : Nat) (j : Nat) : (s.incW a).th j = s.th j := rfl
@[simp] theorem State.incW_en (s : State) (a : Nat) (j : Nat) : (s.incW a).en j = s.en j := rfl
@[simp] theorem State.incW_cap (s : State) (a : Nat) (j : Nat) : (s.incW a).cap j = s.cap j := rfl
@[simp] theorem State.incW_cell (s : State) (a : Nat) (b : Nat) : (s.incW a).cell b = s.cell b := rfl

@[simp] theorem State.setTh_rd (s : State) (k : Nat) (t : Thread) (b : Nat) : (s.setTh k t).rd b = s.rd b := rfl
@[simp] theorem State.setTh_fl (s : State) (k : Nat) (t : Thread) (b : Nat) (g : Fld) : (s.setTh k t).fl b g = s.fl b g := rfl
@[simp] theorem State.setTh_en (s : State) (k : Nat) (t : Thread) (j : Nat) : (s.setTh k t).en j = s.en j := rfl
@[simp] theorem State.setTh_cap (s : State) (k : Nat) (t : Thread) (j : Nat) : (s.setTh k t).cap j = s.cap j := rfl
@[simp] theorem State.setTh_cell (s : State) (k : Nat) (t : Thread) (b : Nat) : (s.setTh k t).cell b = s.cell b := rfl

@[simp] theorem State.mapTh_rd (s : State) (k : Nat) (f : Thread → Thread) (b : Nat) : (s.mapTh k f).rd b = s.rd b := rfl
@[simp] theorem State.mapTh_fl (s : State) (k : Nat) (f : Thread → Thread) (b : Nat) (g : Fld) : (s.mapTh k f).fl b g = s.fl b g := rfl
@[simp] theorem State.mapTh_en (s : State) (k : Nat) (f : Thread → Thread) (j : Nat) : (s.mapTh k f).en j = s.en j := rfl
@[simp] theorem State.mapTh_cap (s : State) (k : Nat) (f : Thread → Thread) (j : Nat) : (s.mapTh k f).cap j = s.cap j := rfl
@[simp] theorem State.mapTh_cell (s : State) (k : Nat) (f : Thread → Thread) (b : Nat) : (s.mapTh k f).cell b = s.cell b := rfl

@[simp] theorem State.setEn_rd (s : State) (e : Nat) (x : Engine) (b : Nat) : (s.setEn e x).rd b = s.rd b := rfl
@[simp] theorem State.setEn_fl (s : State) (e : Nat) (x : Engine) (b : Nat) (g : Fld) : (s.setEn e x).fl b g = s.fl b g := rfl
@[simp] theorem State.setEn_th (s : State) (e : Nat) (x : Engine) (j : Nat) : (s.setEn e x).th j = s.th j := rfl
@[simp] theorem State.setEn_cap (s : State) (e : Nat) (x : Engine) (j : Nat) : (s.setEn e x).cap j = s.cap j := rfl
@[simp] theorem State.setEn_cell (s : State) (e : Nat) (x : Engine) (b : Nat) : (s.setEn e x).cell b = s.cell b := rfl

@[simp] theorem State.mapEn_rd (s : State) (e : Nat) (f : Engine → Engine) (b : Nat) : (s.mapEn e f).rd b = s.rd b := rfl
@[simp] theorem State.mapEn_fl (s : State) (e : Nat) (f : Engine → Engine) (b : Nat) (g : Fld) : (s.mapEn e f).fl b g = s.fl b g := rfl
@[simp] theorem State.mapEn_th (s : State) (e : Nat) (f : Engine → Engine) (j : Nat) : (s.mapEn e f).th j = s.th j := rfl
@[simp] theorem State.mapEn_cap (s : State) (e : Nat) (f : Engine → Engine) (j : Nat) : (s.mapEn e f).cap j = s.cap j := rfl
@[simp] theorem State.mapEn_cell (s : State) (e : Nat) (f : Engine → Engine) (b : Nat) : (s.mapEn e f).cell b = s.cell b := rfl

@[simp] theorem State.setCap_rd (s : State) (c : Nat) (x : Capsule) (b : Nat) : (s.setCap c x).rd b = s.rd b := rfl
@[simp] theorem State.setCap_fl (s : State) (c : Nat) (x : Capsule) (b : Nat) (g : Fld) : (s.setCap c x).fl b g = s.fl b g := rfl
@[simp] theorem State.setCap_th (s : State) (c : Nat) (x : Capsule) (j : Nat) : (s.setCap c x).th j = s.th j := rfl
@[simp] theorem State.setCap_en (s : State) (c : Nat) (x : Capsule) (j : Nat) : (s.setCap c x).en j = s.en j := rfl
@[simp] theorem State.setCap_cell (s : State) (c : Nat) (x : Capsule) (b : Nat) : (s.setCap c x).cell b = s.cell b := rfl

@[simp] theorem State.mapCap_rd (s : State) (c : Nat) (f : Capsule → Capsule) (b : Nat) : (s.mapCap c f).rd b = s.rd b := rfl
@[simp] theorem State.mapCap_fl (s : State) (c : Nat) (f : Capsule → Capsule) (b : Nat) (g : Fld) : (s.mapCap c f).fl b g = s.fl b g := rfl
@[simp] theorem State.mapCap_th (s : State) (c : Nat) (f : Capsule → Capsule) (j : Nat) : (s.mapCap c f).th j = s.th j := rfl
@[simp] theorem State.mapCap_en (s : State) (c : Nat) (f : Capsule → Capsule) (j : Nat) : (s.mapCap c f).en j = s.en j := rfl
@[simp] theorem State.mapCap_cell (s : State) (c : Nat) (f : Capsule → Capsule) (b : Nat) : (s.mapCap c f).cell b = s.cell b := rfl

@[simp] theorem State.setCell_rd (s : State) (a : Nat) (c : MCell) (b : Nat) : (s.setCell a c).rd b = s.rd b := rfl
@[simp] theorem State.setCell_fl (s : State) (a : Nat) (c : MCell) (b : Nat) (g : Fld) : (s.setCell a c).fl b g = s.fl b g := rfl
@[simp] theorem State.setCell_th (s : State) (a : Nat) (c : MCell) (j : Nat) : (s.setCell a c).th j = s.th j := rfl
@[simp] theorem State.setCell_en (s : State) (a : Nat) (c : MCell) (j : Nat) : (s.setCell a c).en j = s.en j := rfl
@[simp] theorem State.setCell_cap (s : State) (a : Nat) (c : MCell) (j : Nat) : (s.setCell a c).cap j = s.cap j := rfl

@[simp] theorem State.setSrc_rd (s : State) (e n : Nat) (x : Src) (b : Nat) : (s.setSrc e n x).rd b = s.rd b := rfl
@[simp] theorem State.setSrc_fl (s : State) (e n : Nat) (x : Src) (b : Nat) (g : Fld) : (s.setSrc e n x).fl b g = s.fl b g := rfl
@[simp] theorem State.setSrc_th (s : State) (e n : Nat) (x : Src) (j : Nat) : (s.setSrc e n x).th j = s.th j := rfl
@[simp] theorem State.setSrc_cap (s : State) (e n : Nat) (x : Src) (j : Nat) : (s.setSrc e n x).cap j = s.cap j := rfl
@[simp] theorem State.setSrc_cell (s : State) (e n : Nat) (x : Src) (b : Nat) : (s.setSrc e n x).cell b = s.cell b := rfl

@[simp] theorem State.setPend_th (s : State) (e n : Nat) (j : Nat) : (s.setPend e n).th j = s.th j := rfl
@[simp] theorem State.setPend_en (s : State) (e n : Nat) (j : Nat) : (s.setPend e n).en j = s.en j := rfl
@[simp] theorem State.setPend_cap (s : State) (e n : Nat) (j : Nat) : (s.setPend e n).cap j = s.cap j := rfl
@[simp] theorem State.setPend_cell (s : State) (e n : Nat) (b : Nat) : (s.setPend e n).cell b = s.cell b := rfl

/-! ### Device registers -/

/-- A register read after a register write. -/
theorem State.rd_wr (s : State) (a b : Nat) (v : Word) : (s.wr a v).rd b = if a = b then v else s.rd b := by
  unfold State.rd State.wr
  split
  · rename_i h
    subst h
    exact SMap.get_set_eq _ _ _ _
  · rename_i h
    exact SMap.get_set_ne _ _ _ _ h

@[simp] theorem State.rd_wr_eq (s : State) (a : Nat) (v : Word) : (s.wr a v).rd a = v := by rw [State.rd_wr, if_pos rfl]

theorem State.rd_wr_ne (s : State) {a b : Nat} (v : Word) (h : a ≠ b) : (s.wr a v).rd b = s.rd b := by
  rw [State.rd_wr, if_neg h]

theorem State.rd_sf (s : State) (a b : Nat) (f : Fld) (n : Nat) :
    (s.sf a f n).rd b = if a = b then setF (s.rd a) f n else s.rd b := State.rd_wr s a b _

theorem State.rd_sf_ne (s : State) {a b : Nat} (f : Fld) (n : Nat) (h : a ≠ b) : (s.sf a f n).rd b = s.rd b := by
  rw [State.rd_sf, if_neg h]

theorem State.rd_inc_ne (s : State) {a b : Nat} (f : Fld) (h : a ≠ b) : (s.inc a f).rd b = s.rd b := State.rd_sf_ne s f _ h

theorem State.rd_incW_ne (s : State) {a b : Nat} (h : a ≠ b) : (s.incW a).rd b = s.rd b := State.rd_sf_ne s _ _ h

/-- A field read after a write of its register. -/
theorem State.fl_wr (s : State) (a b : Nat) (v : Word) (g : Fld) :
    (s.wr a v).fl b g = if a = b then getF v g else s.fl b g := by
  unfold State.fl
  rw [State.rd_wr]
  split <;> rfl

/-- A field just set reads as its value, cut to the field. -/
theorem State.fl_sf_eq (s : State) (a : Nat) (f : Fld) (n : Nat) (h : f.hi < 24) :
    (s.sf a f n).fl a f = n % 2 ^ (f.hi + 1 - f.lo) := by
  unfold State.fl
  rw [State.rd_sf, if_pos rfl]
  exact getF_setF_eq _ f n h

/-- Setting one field of a register leaves a disjoint field of it alone. -/
theorem State.fl_sf_field (s : State) (a b : Nat) (f g : Fld) (n : Nat) (hg : g.hi < 24) (h : f.hi < g.lo ∨ g.hi < f.lo) :
    (s.sf a f n).fl b g = s.fl b g := by
  unfold State.fl
  rw [State.rd_sf]
  split
  · rename_i e
    subst e
    exact getF_setF_ne _ f g n hg h
  · rfl

/-- Setting a field leaves every other register alone. -/
theorem State.fl_sf_ne (s : State) {a b : Nat} (f g : Fld) (n : Nat) (h : a ≠ b) : (s.sf a f n).fl b g = s.fl b g := by
  unfold State.fl
  rw [State.rd_sf_ne s f n h]

theorem State.fl_wr_ne (s : State) {a b : Nat} (v : Word) (g : Fld) (h : a ≠ b) : (s.wr a v).fl b g = s.fl b g := by
  unfold State.fl
  rw [State.rd_wr_ne s v h]

theorem State.fl_inc_ne (s : State) {a b : Nat} (f g : Fld) (h : a ≠ b) : (s.inc a f).fl b g = s.fl b g :=
  State.fl_sf_ne s f g _ h

/-- A counting field after a count: one more, or its maximum. -/
theorem State.fl_inc_eq (s : State) (a : Nat) (f : Fld) (h : f.hi < 24) :
    (s.inc a f).fl a f = satInc (s.fl a f) f.max := by
  unfold State.inc
  rw [State.fl_sf_eq s a f _ h]
  refine Nat.mod_eq_of_lt ?_
  have h1 : s.fl a f < 2 ^ (f.hi + 1 - f.lo) := getF_lt _ f
  have h2 : f.max = 2 ^ (f.hi + 1 - f.lo) - 1 := rfl
  unfold satInc
  split <;> omega

/-! ### Threads, engines, capsules, memory -/

theorem State.th_setTh (s : State) (k j : Nat) (t : Thread) : (s.setTh k t).th j = if k = j then t else s.th j :=
  SMap.get_set _ _ _ _ _

@[simp] theorem State.th_setTh_eq (s : State) (k : Nat) (t : Thread) : (s.setTh k t).th k = t := SMap.get_set_eq _ _ _ _

theorem State.th_setTh_ne (s : State) {k j : Nat} (t : Thread) (h : k ≠ j) : (s.setTh k t).th j = s.th j :=
  SMap.get_set_ne _ _ _ _ h

@[simp] theorem State.th_mapTh_eq (s : State) (k : Nat) (f : Thread → Thread) : (s.mapTh k f).th k = f (s.th k) :=
  SMap.get_set_eq _ _ _ _

theorem State.th_mapTh_ne (s : State) {k j : Nat} (f : Thread → Thread) (h : k ≠ j) : (s.mapTh k f).th j = s.th j :=
  SMap.get_set_ne _ _ _ _ h

theorem State.en_setEn (s : State) (e j : Nat) (x : Engine) : (s.setEn e x).en j = if e = j then x else s.en j :=
  SMap.get_set _ _ _ _ _

@[simp] theorem State.en_setEn_eq (s : State) (e : Nat) (x : Engine) : (s.setEn e x).en e = x := SMap.get_set_eq _ _ _ _

theorem State.en_setEn_ne (s : State) {e j : Nat} (x : Engine) (h : e ≠ j) : (s.setEn e x).en j = s.en j :=
  SMap.get_set_ne _ _ _ _ h

@[simp] theorem State.en_mapEn_eq (s : State) (e : Nat) (f : Engine → Engine) : (s.mapEn e f).en e = f (s.en e) :=
  SMap.get_set_eq _ _ _ _

theorem State.en_mapEn_ne (s : State) {e j : Nat} (f : Engine → Engine) (h : e ≠ j) : (s.mapEn e f).en j = s.en j :=
  SMap.get_set_ne _ _ _ _ h

@[simp] theorem State.cap_setCap_eq (s : State) (c : Nat) (x : Capsule) : (s.setCap c x).cap c = x := SMap.get_set_eq _ _ _ _

theorem State.cap_setCap_ne (s : State) {c j : Nat} (x : Capsule) (h : c ≠ j) : (s.setCap c x).cap j = s.cap j :=
  SMap.get_set_ne _ _ _ _ h

@[simp] theorem State.cap_mapCap_eq (s : State) (c : Nat) (f : Capsule → Capsule) : (s.mapCap c f).cap c = f (s.cap c) :=
  SMap.get_set_eq _ _ _ _

theorem State.cap_mapCap_ne (s : State) {c j : Nat} (f : Capsule → Capsule) (h : c ≠ j) : (s.mapCap c f).cap j = s.cap j :=
  SMap.get_set_ne _ _ _ _ h

/-- A memory word read after a write of it. -/
@[simp] theorem State.cell_setCell_eq (s : State) (a : Nat) (c : MCell) : (s.setCell a c).cell a = c := SMap.get_set_eq _ _ _ _

/-- A write of a memory word leaves every other word alone. -/
theorem State.cell_setCell_ne (s : State) {a b : Nat} (c : MCell) (h : a ≠ b) : (s.setCell a c).cell b = s.cell b :=
  SMap.get_set_ne _ _ _ _ h

/-! ### General registers -/

/-- A general register after a write: g0 stays 0, the written one holds the value, every other one its own (R89). -/
theorem Ctx.peekG_wrG (c : Ctx) (rd r : Nat) (v : Word) :
    (c.wrG rd v).peekG r = if r = 0 then 0 else if r = rd then v else c.peekG r := by
  unfold Ctx.wrG Ctx.peekG
  by_cases h0 : r = 0
  · simp [h0]
  · by_cases hd : rd = 0
    · have : r ≠ rd := by omega
      simp [h0, hd]
    · simp only [hd, h0, if_false]
      rw [SMap.get_set]
      by_cases e : rd = r
      · simp [e]
      · simp [e, Ne.symm e]

@[simp] theorem Ctx.wrG_a0 (c : Ctx) (r : Nat) (v : Word) : (c.wrG r v).a0 = c.a0 := by unfold Ctx.wrG; split <;> rfl
@[simp] theorem Ctx.wrG_a1 (c : Ctx) (r : Nat) (v : Word) : (c.wrG r v).a1 = c.a1 := by unfold Ctx.wrG; split <;> rfl
@[simp] theorem Ctx.wrG_sat (c : Ctx) (r : Nat) (v : Word) : (c.wrG r v).sat = c.sat := by unfold Ctx.wrG; split <;> rfl
@[simp] theorem Ctx.wrG_aov (c : Ctx) (r : Nat) (v : Word) : (c.wrG r v).aov = c.aov := by unfold Ctx.wrG; split <;> rfl
@[simp] theorem Ctx.wrG_loops (c : Ctx) (r : Nat) (v : Word) : (c.wrG r v).loops = c.loops := by unfold Ctx.wrG; split <;> rfl
@[simp] theorem Ctx.wrG_pc (c : Ctx) (r : Nat) (v : Word) : (c.wrG r v).pc = c.pc := by unfold Ctx.wrG; split <;> rfl
@[simp] theorem Ctx.wrG_slot (c : Ctx) (r : Nat) (v : Word) : (c.wrG r v).slot = c.slot := by unfold Ctx.wrG; split <;> rfl
@[simp] theorem Ctx.wrG_shadow (c : Ctx) (r : Nat) (v : Word) : (c.wrG r v).shadow = c.shadow := by unfold Ctx.wrG; split <;> rfl

/-! ### Events -/

/-- The registers a raised event may change are the router's merge count and last merged event (R34). -/
theorem State.raise_rd (s : State) (ev b : Nat) (h1 : b ≠ Reg.EVR_MERGE) (h2 : b ≠ Reg.EVR_MLAST) :
    (s.raise ev).rd b = s.rd b := by
  unfold State.raise
  repeat' split
  all_goals first
    | rfl
    | (rw [State.rd_sf_ne _ _ _ (Ne.symm h2), State.rd_incW_ne _ (Ne.symm h1)])

@[simp] theorem State.raise_pending (s : State) (ev : Nat) : (s.raise ev).pending = s.pending := by unfold State.raise; (repeat' split) <;> rfl
@[simp] theorem State.raise_fresh (s : State) (ev : Nat) : (s.raise ev).fresh = s.fresh := by unfold State.raise; (repeat' split) <;> rfl
@[simp] theorem State.raise_rdata (s : State) (ev : Nat) : (s.raise ev).rdata = s.rdata := by unfold State.raise; (repeat' split) <;> rfl
@[simp] theorem State.raise_mem (s : State) (ev : Nat) : (s.raise ev).mem = s.mem := by unfold State.raise; (repeat' split) <;> rfl
@[simp] theorem State.raise_thr (s : State) (ev : Nat) : (s.raise ev).thr = s.thr := by unfold State.raise; (repeat' split) <;> rfl
@[simp] theorem State.raise_eng (s : State) (ev : Nat) : (s.raise ev).eng = s.eng := by unfold State.raise; (repeat' split) <;> rfl
@[simp] theorem State.raise_memc (s : State) (ev : Nat) : (s.raise ev).memc = s.memc := by unfold State.raise; (repeat' split) <;> rfl
@[simp] theorem State.raise_bz (s : State) (ev : Nat) : (s.raise ev).bz = s.bz := by unfold State.raise; (repeat' split) <;> rfl
@[simp] theorem State.raise_str (s : State) (ev : Nat) : (s.raise ev).str = s.str := by unfold State.raise; (repeat' split) <;> rfl
@[simp] theorem State.raise_land (s : State) (ev : Nat) : (s.raise ev).land = s.land := by unfold State.raise; (repeat' split) <;> rfl
@[simp] theorem State.raise_bq (s : State) (ev : Nat) : (s.raise ev).bq = s.bq := by unfold State.raise; (repeat' split) <;> rfl
@[simp] theorem State.raise_time (s : State) (ev : Nat) : (s.raise ev).time = s.time := by unfold State.raise; (repeat' split) <;> rfl
@[simp] theorem State.raise_sys (s : State) (ev : Nat) : (s.raise ev).sys = s.sys := by unfold State.raise; (repeat' split) <;> rfl
@[simp] theorem State.raise_meas (s : State) (ev : Nat) : (s.raise ev).meas = s.meas := by unfold State.raise; (repeat' split) <;> rfl
@[simp] theorem State.raise_act (s : State) (ev : Nat) : (s.raise ev).act = s.act := by unfold State.raise; (repeat' split) <;> rfl
@[simp] theorem State.raise_comm (s : State) (ev : Nat) : (s.raise ev).comm = s.comm := by unfold State.raise; (repeat' split) <;> rfl
@[simp] theorem State.raise_chn (s : State) (ev : Nat) : (s.raise ev).chn = s.chn := by unfold State.raise; (repeat' split) <;> rfl
@[simp] theorem State.raise_pwr (s : State) (ev : Nat) : (s.raise ev).pwr = s.pwr := by unfold State.raise; (repeat' split) <;> rfl
@[simp] theorem State.raise_flt (s : State) (ev : Nat) : (s.raise ev).flt = s.flt := by unfold State.raise; (repeat' split) <;> rfl
@[simp] theorem State.raise_lp (s : State) (ev : Nat) : (s.raise ev).lp = s.lp := by unfold State.raise; (repeat' split) <;> rfl
@[simp] theorem State.raise_dl (s : State) (ev : Nat) : (s.raise ev).dl = s.dl := by unfold State.raise; (repeat' split) <;> rfl
@[simp] theorem State.raise_th (s : State) (ev : Nat) (j : Nat) : (s.raise ev).th j = s.th j := by unfold State.raise; (repeat' split) <;> rfl
@[simp] theorem State.raise_en (s : State) (ev : Nat) (j : Nat) : (s.raise ev).en j = s.en j := by unfold State.raise; (repeat' split) <;> rfl
@[simp] theorem State.raise_cap (s : State) (ev : Nat) (j : Nat) : (s.raise ev).cap j = s.cap j := by unfold State.raise; (repeat' split) <;> rfl
@[simp] theorem State.raise_cell (s : State) (ev : Nat) (b : Nat) : (s.raise ev).cell b = s.cell b := by unfold State.raise; (repeat' split) <;> rfl

/-- A router event that the fabric can carry is last in the router's queue. -/
theorem State.raise_router (s : State) (ev : Nat) (hp : s.pwr.state < 2) (h : eventIsland ev = none) :
    (s.raise ev).ev = { s.ev with router := s.ev.router ++ [ev] } := by
  unfold State.raise
  rw [if_neg (by omega), h]

/-- An event of a clocked island that is not crossing yet starts its crossing (R34). -/
theorem State.raise_crossing (s : State) (ev i : Nat) (hp : s.pwr.state < 2) (h : eventIsland ev = some i) (hc : ev ∉ s.ev.crossing) :
    (s.raise ev).ev = { s.ev with crossing := s.ev.crossing ++ [ev] } := by
  unfold State.raise
  rw [if_neg (by omega), h]
  simp only [hc, if_false]

end Sys2Proof.Machine
end

