-- ==== Sys2Proof/Laws/Issue.lean ====
section
/-!
SUPPORT. What issuing one instruction does: the frame of a beat, and the instruction's own effect on its context.
-/

namespace Sys2Proof.Machine

theorem State.sameRest_refl (s : State) : s.sameRest s := by simp [State.sameRest]

/-! ### What a beat leaves of a thread -/

@[simp] theorem Thread.beaten_el (t u : Thread) : (t.beaten u).el = t.el := rfl
@[simp] theorem Thread.beaten_mode (t u : Thread) : (t.beaten u).mode = t.mode := rfl
@[simp] theorem Thread.beaten_levels (t u : Thread) : (t.beaten u).levels = t.levels := rfl
@[simp] theorem Thread.beaten_replay (t u : Thread) : (t.beaten u).replay = t.replay := rfl
@[simp] theorem Thread.beaten_settle (t u : Thread) : (t.beaten u).settle = t.settle := rfl
@[simp] theorem Thread.beaten_bind (t u : Thread) : (t.beaten u).bind = t.bind := rfl
@[simp] theorem Thread.beaten_startPrv (t u : Thread) : (t.beaten u).startPrv = t.startPrv := rfl
@[simp] theorem Thread.beaten_startKg (t u : Thread) : (t.beaten u).startKg = t.startKg := rfl
@[simp] theorem Thread.beaten_alCid (t u : Thread) : (t.beaten u).alCid = t.alCid := rfl
@[simp] theorem Thread.beaten_rws (t u : Thread) : (t.beaten u).rws = t.rws := rfl
@[simp] theorem Thread.beaten_halt (t u : Thread) : (t.beaten u).halt = t.halt := rfl
@[simp] theorem Thread.beaten_haltReq (t u : Thread) : (t.beaten u).haltReq = t.haltReq := rfl
@[simp] theorem Thread.beaten_stepping (t u : Thread) : (t.beaten u).stepping = t.stepping := rfl
@[simp] theorem Thread.beaten_haltIdx (t u : Thread) : (t.beaten u).haltIdx = t.haltIdx := rfl
@[simp] theorem Thread.beaten_restart (t u : Thread) : (t.beaten u).restart = t.restart := rfl
@[simp] theorem Thread.beaten_rom (t u : Thread) : (t.beaten u).rom = t.rom := rfl
@[simp] theorem Thread.beaten_ctx (t u : Thread) : (t.beaten u).ctx = u.ctx := rfl
@[simp] theorem Thread.beaten_infl (t u : Thread) : (t.beaten u).infl = u.infl := rfl

theorem Thread.idled_trans {t u v : Thread} (h : u = t.idled u) (g : v = u.idled v) : v = t.idled v := by
  rw [g, h]
  rfl

theorem Thread.idled_self (t : Thread) : t = t.idled t := rfl

theorem Thread.beaten_self (t : Thread) (h : t.skipBp = false) : t = t.beaten t := by
  cases t
  simp_all [Thread.beaten]

/-- A thread that another has become through a change of `beaten`'s fields alone. -/
theorem Thread.beaten_of {t u v : Thread} (h : u = t.beaten u) (g : v = u.beaten v) : v = t.beaten v := by
  rw [g, h]
  rfl

/-- The breakpoint's pass is used up. -/
theorem Thread.beaten_skip {t u : Thread} (h : u = t.idled u) : ({ u with skipBp := false } : Thread) = t.beaten { u with skipBp := false } := by
  rw [h]
  rfl

/-- A beat is taken from the allotment. -/
theorem Thread.beaten_al {t u : Thread} (h : u = t.beaten u) : ({ u with al := u.al - 1 } : Thread) = t.beaten { u with al := u.al - 1 } := by
  rw [h]
  rfl

theorem Thread.ctx_of_idled {t u : Thread} (h : u = t.idled u) : u.ctx = t.ctx := by rw [h]; rfl

theorem Thread.infl_of_idled {t u : Thread} (h : u = t.idled u) : u.infl = t.infl := by rw [h]; rfl

theorem State.beat_th (s : State) (k j : Nat) : (s.beat k).th j = s.th j := by
  unfold State.beat
  simp only []
  split <;> simp

theorem State.beat_rd (s : State) (k a : Nat) (h : a ≠ Reg.ENG_PROMO (k / 4)) : (s.beat k).rd a = s.rd a := by
  unfold State.beat
  simp only []
  split
  · rw [State.rd_incW_ne _ (Ne.symm h)]
    rfl
  · rfl

theorem State.beat_en (s : State) (k e : Nat) :
    (s.beat k).en e = { s.en e with last := ((s.beat k).en e).last, passed := ((s.beat k).en e).passed } := by
  unfold State.beat
  simp only []
  split <;> simp only [State.incW_en, State.en_setEn] <;> split <;> simp_all

theorem State.beat_cap (s : State) (k c : Nat) : (s.beat k).cap c = s.cap c := by
  unfold State.beat
  simp only []
  split <;> simp

theorem State.beat_rest (s : State) (k : Nat) :
    s.sameRest (s.beat k) ∧ (s.beat k).mem = s.mem ∧ (s.beat k).bz = s.bz := by
  unfold State.beat State.sameRest
  simp only []
  split <;> simp

theorem State.sameRest_trans {s t u : State} (h : s.sameRest t) (g : t.sameRest u) : s.sameRest u := by
  unfold State.sameRest at *
  simp_all

/-- What `State.windows` does, for a list of threads of the engine and the counts of lost beats. -/
def State.windowsOf (s : State) (e : Nat) (f : Nat → Nat) (l : List Nat) : State :=
  l.foldl (fun s t => s.mapTh (e * 4 + t) (fun x => { x with postEoi := x.postEoi - 1, lost := f (e * 4 + t) })) s

theorem State.windowsOf_frame (s : State) (e : Nat) (f : Nat → Nat) (l : List Nat) (i : Nat) :
    let u := s.windowsOf e f l
    u.th i = (s.th i).idled (u.th i) ∧ u.regs = s.regs ∧ u.mem = s.mem ∧ u.bz = s.bz ∧ u.eng = s.eng ∧ s.sameRest u := by
  unfold State.windowsOf
  induction l generalizing s with
  | nil => exact ⟨Thread.idled_self _, rfl, rfl, rfl, rfl, State.sameRest_refl s⟩
  | cons t r ih =>
    simp only [List.foldl_cons]
    obtain ⟨b1, b2, b3, b4, b5, b6⟩ :=
      ih (s.mapTh (e * 4 + t) (fun x => { x with postEoi := x.postEoi - 1, lost := f (e * 4 + t) }))
    refine ⟨Thread.idled_trans ?_ b1, b2.trans (State.mapTh_regs ..), b3.trans (State.mapTh_mem ..), b4.trans (State.mapTh_bz ..),
      b5.trans (State.mapTh_eng ..), State.sameRest_trans (by simp [State.sameRest]) b6⟩
    by_cases hj : e * 4 + t = i
    · subst hj
      rw [State.th_mapTh_eq]
      exact (show ∀ (x : Thread) (n m : Nat), ({ x with postEoi := n, lost := m } : Thread) = x.idled { x with postEoi := n, lost := m } from
        fun _ _ _ => rfl) _ _ _
    · rw [State.th_mapTh_ne _ _ hj]
      exact Thread.idled_self _

theorem State.windows_eq (s : State) (k : Nat) (port : Bool) : s.windows k port = s.windowsOf (k / 4)
    (fun j => if port && decide (j ≠ k) && s.portFetch j then min 16 ((s.th j).lost + 1) else 0) (List.range 4) := by
  unfold State.windows State.windowsOf
  rfl

theorem State.windows_frame (s : State) (k : Nat) (port : Bool) (i : Nat) :
    (s.windows k port).th i = (s.th i).idled ((s.windows k port).th i) ∧
    (s.windows k port).regs = s.regs ∧ (s.windows k port).mem = s.mem ∧ (s.windows k port).bz = s.bz ∧
    (s.windows k port).eng = s.eng ∧ s.sameRest (s.windows k port) := by
  rw [State.windows_eq]
  exact State.windowsOf_frame s (k / 4) _ (List.range 4) i

/-- The count ENG_TnISS of thread `k` incremented, and its breakpoint's pass used up. -/
def State.countBeat (u : State) (k : Nat) : State :=
  (u.wr (Reg.ENG_TnISS (k / 4) (k % 4)) (u.rd (Reg.ENG_TnISS (k / 4) (k % 4)) + 1)).mapTh k (fun t => { t with skipBp := false })

/-- A beat of thread `k` taken from its capsule's allotment. -/
def State.spendBeat (u : State) (k : Nat) : State :=
  (u.mapCap (u.th k).bind.cid (fun c => { c with used := c.used + 1 })).mapTh k (fun t => { t with al := t.al - 1 })

theorem State.countIssue_eq (s : State) (k : Nat) (port : Bool) :
    let x := ((s.beat k).windows k port).countBeat k
    s.countIssue k port = x ∨ s.countIssue k port = x.spendBeat k := by
  intro x
  have e : (((s.beat k).windows k port).wr (Reg.ENG_TnISS (k / 4) (k % 4))
      (((s.beat k).windows k port).rd (Reg.ENG_TnISS (k / 4) (k % 4)) + 1)).setTh k
      { (((s.beat k).windows k port).wr (Reg.ENG_TnISS (k / 4) (k % 4))
      (((s.beat k).windows k port).rd (Reg.ENG_TnISS (k / 4) (k % 4)) + 1)).th k with skipBp := false } = x := rfl
  have q : (x.th k).bind = ((((s.beat k).windows k port).wr (Reg.ENG_TnISS (k / 4) (k % 4))
      (((s.beat k).windows k port).rd (Reg.ENG_TnISS (k / 4) (k % 4)) + 1)).th k).bind := by
    rw [← e, State.th_setTh_eq]
  unfold State.countIssue
  simp only [e]
  split
  · right
    unfold State.spendBeat
    rw [q]
  · left
    rfl

theorem State.countBeat_frame {s u : State} {k : Nat} (h1 : ∀ i, u.th i = (s.th i).idled (u.th i))
    (h2 : ∀ a, a ≠ Reg.ENG_PROMO (k / 4) → u.rd a = s.rd a) (h3 : u.mem = s.mem) (h4 : u.bz = s.bz)
    (h5 : ∀ e, u.en e = { s.en e with last := (u.en e).last, passed := (u.en e).passed }) (h6 : s.sameRest u) :
    s.beatOnly (u.countBeat k) k ∧ (u.countBeat k).mem = s.mem ∧ ((u.countBeat k).th k).ctx = (s.th k).ctx ∧
    ((u.countBeat k).th k).infl = (s.th k).infl := by
  have hne : Reg.ENG_TnISS (k / 4) (k % 4) ≠ Reg.ENG_PROMO (k / 4) := by
    unfold Reg.ENG_TnISS Reg.ENG_PROMO
    omega
  have hcap : ∀ c, u.cap c = s.cap c := fun c => by
    unfold State.cap
    rw [h4]
  unfold State.countBeat
  refine ⟨⟨?_, ?_, ?_, ?_, ?_, ?_, ?_, ?_⟩, ?_, ?_, ?_⟩
  · exact State.sameRest_trans h6 (by simp [State.sameRest])
  · intro a ha
    simp only [List.mem_cons, List.not_mem_nil, or_false, not_or] at ha
    rw [State.mapTh_rd, State.rd_wr_ne _ _ (Ne.symm ha.1), h2 a ha.2]
  · rw [State.mapTh_rd, State.rd_wr_eq, h2 _ hne]
  · intro j hj
    rw [State.th_mapTh_ne _ _ (Ne.symm hj), State.wr_th]
    exact h1 j
  · rw [State.th_mapTh_eq, State.wr_th]
    exact Thread.beaten_skip (h1 k)
  · intro e
    rw [State.mapTh_en, State.wr_en]
    exact h5 e
  · intro c
    rw [State.mapTh_cap, State.wr_cap, hcap]
  · rw [State.mapTh_bz, State.wr_bz, h4]
  · rw [State.mapTh_mem, State.wr_mem, h3]
  · rw [State.th_mapTh_eq, State.wr_th]
    exact Thread.ctx_of_idled (t := s.th k) (u := u.th k) (h1 k)
  · rw [State.th_mapTh_eq, State.wr_th]
    exact Thread.infl_of_idled (t := s.th k) (u := u.th k) (h1 k)

theorem State.spendBeat_frame {s x : State} {k : Nat}
    (h : s.beatOnly x k ∧ x.mem = s.mem ∧ (x.th k).ctx = (s.th k).ctx ∧ (x.th k).infl = (s.th k).infl) :
    s.beatOnly (x.spendBeat k) k ∧ (x.spendBeat k).mem = s.mem ∧ ((x.spendBeat k).th k).ctx = (s.th k).ctx ∧
    ((x.spendBeat k).th k).infl = (s.th k).infl := by
  obtain ⟨⟨c1, c2, c3, c4, c5, c6, c7, c8⟩, c9, c10, c11⟩ := h
  unfold State.spendBeat
  refine ⟨⟨?_, ?_, ?_, ?_, ?_, ?_, ?_, ?_⟩, ?_, ?_, ?_⟩
  · exact State.sameRest_trans c1 (by simp [State.sameRest])
  · intro a ha
    simpa using c2 a ha
  · simpa using c3
  · intro j hj
    rw [State.th_mapTh_ne _ _ (Ne.symm hj), State.mapCap_th]
    exact c4 j hj
  · rw [State.th_mapTh_eq, State.mapCap_th]
    exact Thread.beaten_al c5
  · intro e
    simpa using c6 e
  · intro c
    rw [State.mapTh_cap]
    by_cases hc : (x.th k).bind.cid = c
    · subst hc
      rw [State.cap_mapCap_eq]
      rw [c7]
    · rw [State.cap_mapCap_ne _ _ hc]
      exact c7 c
  · rw [State.mapTh_bz]
    exact c8
  · rw [State.mapTh_mem, State.mapCap_mem, c9]
  · rw [State.th_mapTh_eq, State.mapCap_th]
    exact c10
  · rw [State.th_mapTh_eq, State.mapCap_th]
    exact c11

/-- The counting of an issue beat: its whole frame. -/
theorem State.countIssue_frame (s : State) (k : Nat) (port : Bool) :
    s.beatOnly (s.countIssue k port) k ∧ (s.countIssue k port).mem = s.mem ∧ ((s.countIssue k port).th k).ctx = (s.th k).ctx ∧
    ((s.countIssue k port).th k).infl = (s.th k).infl := by
  have hb := State.beat_rest s k
  have hw := State.windows_frame (s.beat k) k port
  have h1 : ∀ i, ((s.beat k).windows k port).th i = (s.th i).idled (((s.beat k).windows k port).th i) := fun i => by
    have := (hw i).1
    rw [State.beat_th] at this
    exact this
  have h2 : ∀ a, a ≠ Reg.ENG_PROMO (k / 4) → ((s.beat k).windows k port).rd a = s.rd a := fun a ha => by
    unfold State.rd
    rw [(hw 0).2.1]
    exact State.beat_rd s k a ha
  have h5 : ∀ e, ((s.beat k).windows k port).en e = { s.en e with
      last := (((s.beat k).windows k port).en e).last, passed := (((s.beat k).windows k port).en e).passed } := fun e => by
    have : ((s.beat k).windows k port).en e = (s.beat k).en e := by
      unfold State.en
      rw [(hw 0).2.2.2.2.1]
    rw [this]
    exact State.beat_en s k e
  have base := State.countBeat_frame h1 h2 ((hw 0).2.2.1.trans hb.2.1) ((hw 0).2.2.2.1.trans hb.2.2) h5
    (State.sameRest_trans hb.1 (hw 0).2.2.2.2.2)
  cases State.countIssue_eq s k port with
  | inl e => rw [e]; exact base
  | inr e => rw [e]; exact State.spendBeat_frame base

/-- An instruction that passes the checks before its own operation, in a state that runs it. -/
structure Iss.clean (i : Iss) : Prop where
  bad : i.bad = false
  keeper : i.keeper = false
  alone : i.alone = false
  noSlotBp : i.hasDs = false

theorem State.produced_of_runs {s : State} {k len : Nat} {rs : List Nat} (h : s.runs k len rs) :
    (s.th k).ctx.produced rs = true := h.1.2.2.1

theorem State.rplDrop_of {s : State} {k : Nat} (h : (s.th k).settle = false) : s.rplDrop k = s := by
  unfold State.rplDrop
  simp [h]

/-- Where an instruction issues and meets nothing, its body runs on the state that has counted the beat. -/
theorem State.issue_runs (s : State) (i : Iss) (body : State → State) (h : s.runs i.k i.len i.reads)
    (hbad : i.bad = false) (hk : i.keeper = false ∨ (s.th i.k).bind.prv = true) (ha : i.alone = false ∨ (s.th i.k).infl = [])
    (hds : i.hasDs = false ∨ (s.th i.k).skipBp = true ∨ s.bpHit i.k ((s.th i.k).ctx.pc + w24 i.len) = none) :
    s.issue i body = body (s.countIssue i.k i.port) := by
  obtain ⟨⟨h1, hch, h2, h3, h4, h5⟩, h6, h7, h8⟩ := h
  obtain ⟨⟨f1, f2, f3, f4, f5, f6, f7, f8⟩, f9, f10, f11⟩ := State.countIssue_frame s i.k i.port
  have hci : s.canIssue i = true := by
    unfold State.canIssue
    rw [h1, h2, hch]
    cases ha with
    | inl x => simp [x]
    | inr x => simp [x]
  have hbp : s.bpStop i = none := by
    unfold State.bpStop
    simp only [h6]
    by_cases hsk : (s.th i.k).skipBp = true
    · simp [hsk]
    · have h7' : s.bpHit i.k (s.th i.k).ctx.pc = none := by
        cases h7 with
        | inl x => exact absurd x hsk
        | inr x => exact x
      simp only [hsk, Option.isSome_none, Bool.false_eq_true, or_self, if_false, h7']
      cases hds with
      | inl x => simp [x]
      | inr x =>
        cases x with
        | inl y => exact absurd y hsk
        | inr y => simp [y]
  have hset : ((s.countIssue i.k i.port).th i.k).settle = false := by rw [f5, Thread.beaten_settle]; exact h5
  have hdep : ((s.countIssue i.k i.port).th i.k).depth = (s.th i.k).depth := by
    unfold Thread.depth
    rw [f5, Thread.beaten_levels]
  have hpre : (s.countIssue i.k i.port).preFault i = none := by
    unfold State.preFault
    simp only [f10, h6, hbad, hdep, Option.isSome_none, Bool.false_and, Bool.or_false, Bool.false_or]
    have hprv : ((s.countIssue i.k i.port).th i.k).bind = (s.th i.k).bind := by rw [f5, Thread.beaten_bind]
    rw [hprv]
    have hfin : ∀ b : Bool, b = false → (if b = true then some (FaultInfo.mk .illegal .fetch 0 i.word)
        else if (i.keeper && !(s.th i.k).bind.prv) = true then some (FaultInfo.mk .priv .fetch 0 i.word) else none) = none := by
      intro b hb
      cases hk with
      | inl x => simp [x, hb]
      | inr x => simp [x, hb]
    apply hfin
    revert h8
    cases (s.th i.k).ctx.loops with
    | nil => intro _; rfl
    | cons l r =>
      intro h8
      have := h8 l (by simp)
      by_cases ht : l.tag = (s.th i.k).depth
      · have := this ht
        simp [this.1, this.2]
      · simp [ht]
  unfold State.issue
  rw [hci, hbp]
  simp only [Bool.true_eq_false, if_false, hpre]
  rw [State.rplDrop_of hset, ite_self]

/-- The loop-end check where no loop of the thread's depth ends. -/
theorem loopEnd_none (last : Word) (depth : Nat) (ls : List LoopEnt)
    (h : ∀ l ∈ ls.head?, l.tag = depth → l.stop ≠ last) : loopEnd last depth ls = (ls, last + 1, false) := by
  cases ls with
  | nil => rfl
  | cons l r =>
    unfold loopEnd
    rw [if_neg]
    intro hc
    exact h l (by simp) hc.2 hc.1

theorem w24_len (len : Nat) (h : len = 1 ∨ len = 2) (p : Word) : p + w24 len - 1 = p + w24 (len - 1) := by
  cases h with
  | inl h => subst h; show p + 1 - 1 = p + 0; rw [BitVec.add_sub_cancel]; exact (BitVec.add_zero p).symm
  | inr h => subst h; show p + 2 - 1 = p + 1; rw [show (2 : Word) = 1 + 1 from rfl, ← BitVec.add_assoc, BitVec.add_sub_cancel]

/-- The advance of a context with no delay slot and no loop end. -/
theorem Ctx.advance_plain (c : Ctx) (depth len : Nat) (hl : len = 1 ∨ len = 2) (hs : c.slot = none)
    (h : ∀ l ∈ c.loops.head?, l.tag = depth → l.stop ≠ c.pc + w24 (len - 1)) :
    c.advance depth len = ({ c with pc := c.pc + w24 len }, false) := by
  unfold Ctx.advance
  simp only [hs]
  rw [w24_len len hl, loopEnd_none _ _ _ h]
  simp only []
  rw [← w24_len len hl, BitVec.sub_add_cancel, ← hs]

/-- A thread that nobody halts or steps is left alone by the halt check. -/
theorem State.haltCheck_none (s : State) (k : Nat) (h : (s.th k).haltReq = 0) (g : (s.th k).stepping = false) :
    s.haltCheck k = s := by
  unfold State.haltCheck
  simp [h, g]

/-- A thread set together with the count of accesses. -/
theorem State.setTh_fresh_th (s : State) (k n : Nat) (y : Thread) :
    let z : State := { s.setTh k y with fresh := n }
    z.th k = y ∧ ∀ j, j ≠ k → z.th j = s.th j :=
  ⟨State.th_setTh_eq s k y, fun _ hj => State.th_setTh_ne s y (Ne.symm hj)⟩

/-- The thread after its instruction, from the thread before it. -/
theorem Thread.beaten_moved (t : Thread) (c : Ctx) (w : Nat) (l : List Infl) (h : t.skipBp = false) :
    ({ t.moved c with watch := w, stall := false, stalled := false } : Thread) =
      t.beaten { t.moved c with watch := w, stall := false, stalled := false } ∧
    ({ t.moved c with infl := l } : Thread) = t.beaten { t.moved c with infl := l } := by
  cases t
  simp_all [Thread.beaten, Thread.moved]

theorem State.lbDo_none (s : State) (k : Nat) : s.lbDo k .none = s := rfl

/-- Finishing an instruction with context `c`: the context is set, and a record joins the uncommitted ones if there are any. -/
theorem State.finish_plain (s : State) (k len : Nat) (c : Ctx) (h : (s.th k).haltReq = 0) (g : (s.th k).stepping = false)
    (q : (s.th k).skipBp = false) :
    let t := s.finish k len c false
    (t.th k).ctx = c ∧ t.mem = s.mem ∧ t.regs = s.regs ∧ t.eng = s.eng ∧ t.bz = s.bz ∧ s.sameRest t ∧
    (∀ j, j ≠ k → t.th j = s.th j) ∧ t.th k = (s.th k).beaten (t.th k) := by
  intro t
  have e : t = (if (s.th k).infl = [] then
      s.setTh k { (s.th k).moved c with watch := s.time.ticks, stall := false, stalled := false }
    else
      let x : Infl := { id := s.fresh, snap := (s.th k).ctx, len := len, st := .done, lb := .none }
      let y : Thread := { (s.th k).moved c with infl := (s.th k).infl ++ [x] }
      let z : State := s.setTh k y
      { z with fresh := s.fresh + 1 }) := by
    show s.finish k len c false = _
    unfold State.finish State.finishLb lbLeft
    simp only [Bool.false_eq_true, if_false]
    split
    · rw [State.lbDo_none, State.haltCheck_none]
      · rw [State.th_setTh_eq]; exact h
      · rw [State.th_setTh_eq]; exact g
    · rw [State.haltCheck_none]
      · show ((s.setTh k _).th k).haltReq = 0
        rw [State.th_setTh_eq]; exact h
      · show ((s.setTh k _).th k).stepping = false
        rw [State.th_setTh_eq]; exact g
  rw [e]
  split
  · refine ⟨by rw [State.th_setTh_eq]; rfl, rfl, rfl, rfl, rfl, by simp [State.sameRest], ?_, ?_⟩
    · intro j hj
      rw [State.th_setTh_ne _ _ (Ne.symm hj)]
    · rw [State.th_setTh_eq]
      exact (Thread.beaten_moved (s.th k) c s.time.ticks [] q).1
  · let x : Infl := { id := s.fresh, snap := (s.th k).ctx, len := len, st := .done, lb := .none }
    let y : Thread := { (s.th k).moved c with infl := (s.th k).infl ++ [x] }
    have p := State.setTh_fresh_th s k (s.fresh + 1) y
    refine ⟨congrArg Thread.ctx p.1, rfl, rfl, rfl, rfl, by simp [State.sameRest], p.2, ?_⟩
    have m := (Thread.beaten_moved (s.th k) c 0 ((s.th k).infl ++ [x]) q).2
    exact p.1.trans (m.trans (congrArg (s.th k).beaten p.1.symm))

/-- A beat followed by the finishing of an instruction. -/
theorem State.beatOnly_finish (s u : State) (k len : Nat) (c : Ctx) (hb : s.beatOnly u k) (hm : u.mem = s.mem)
    (h : (u.th k).haltReq = 0) (g : (u.th k).stepping = false) :
    s.beatOnly (u.finish k len c false) k ∧ s.sameMem (u.finish k len c false) ∧ ((u.finish k len c false).th k).ctx = c := by
  obtain ⟨b1, b2, b3, b4, b5, b6, b7, b8⟩ := hb
  obtain ⟨a1, a2, a3, a4, a5, a6, a7, a8⟩ := State.finish_plain u k len c h g (by rw [b5]; rfl)
  have hrd : ∀ a, (u.finish k len c false).rd a = u.rd a := fun a => by unfold State.rd; rw [a3]
  refine ⟨⟨State.sameRest_trans b1 a6, ?_, ?_, ?_, ?_, ?_, ?_, ?_⟩, ?_, a1⟩
  · intro a ha
    rw [hrd]
    exact b2 a ha
  · rw [hrd]
    exact b3
  · intro j hj
    rw [a7 j hj]
    exact b4 j hj
  · exact Thread.beaten_of b5 a8
  · intro e
    have : (u.finish k len c false).en e = u.en e := by unfold State.en; rw [a4]
    rw [this]
    exact b6 e
  · intro x
    have : (u.finish k len c false).cap x = u.cap x := by unfold State.cap; rw [a5]
    rw [this]
    exact b7 x
  · rw [a5]
    exact b8
  · intro a
    show SMap.get _ (u.finish k len c false).mem a = SMap.get _ s.mem a
    rw [a2, hm]

/-- AN INSTRUCTION ON ITS THREAD'S REGISTERS: in a state that runs it, it changes nothing but the beat's counts and the context, which
becomes `f` of it at the next address, with the load shadow ended. -/
theorem State.regOp_runs (s : State) (i : Iss) (f : Ctx → Ctx) (h : s.runs i.k i.len i.reads) (hl : i.len = 1 ∨ i.len = 2)
    (hc : i.clean) (hs : ∀ c : Ctx, (f c).slot = c.slot) (hp : ∀ c : Ctx, (f c).pc = c.pc) (hls : ∀ c : Ctx, (f c).loops = c.loops) :
    s.beatOnly (s.regOp i f) i.k ∧ s.sameMem (s.regOp i f) ∧
    ((s.regOp i f).th i.k).ctx = { f (s.th i.k).ctx with shadow := [], pc := (s.th i.k).ctx.pc + w24 i.len } := by
  obtain ⟨⟨f1, f2, f3, f4, f5, f6, f7, f8⟩, f9, f10, f11⟩ := State.countIssue_frame s i.k i.port
  have hi : s.regOp i f = (fun s : State =>
      let t := s.th i.k
      let x := ({ f t.ctx with shadow := [] } : Ctx).advance t.depth i.len
      s.finish i.k i.len x.1 x.2) (s.countIssue i.k i.port) := by
    rw [State.regOp, State.issue_runs s i _ h hc.bad (.inl hc.keeper) (.inl hc.alone) (.inl hc.noSlotBp)]
  have hd : ((s.countIssue i.k i.port).th i.k).depth = (s.th i.k).depth := by unfold Thread.depth; rw [f5, Thread.beaten_levels]
  obtain ⟨⟨h1, hch, h2, h3, h4, h5⟩, h6, h7, h8⟩ := h
  have ha := Ctx.advance_plain { f (s.th i.k).ctx with shadow := [] } (s.th i.k).depth i.len hl (by simp [hs, h6])
    (by
      intro l hlm ht
      simp only [hls, hp] at hlm ⊢
      exact (h8 l hlm ht).2)
  simp only [hp] at ha
  rw [hi]
  simp only [f10, hd, hp, ha]
  exact State.beatOnly_finish s (s.countIssue i.k i.port) i.k i.len _ ⟨f1, f2, f3, f4, f5, f6, f7, f8⟩ f9
    (by rw [f5, Thread.beaten_haltReq]; exact h3) (by rw [f5, Thread.beaten_stepping]; exact h4)

end Sys2Proof.Machine
end

