-- ==== Sys2Proof/Laws/Does.lean ====
section
/-!
SUPPORT. From the effect of an instruction on its context to the claim's terms: what a register write, a saturating write and an
accumulator write leave.
-/

namespace Sys2Proof.Machine

open Sys2Proof

/-- An instruction that computes on its thread's registers does what its context function does. -/
theorem Does.of_regOp {c : Instr} {s : State} {P : Ctx → Ctx → Prop} (i : Iss) (f : Ctx → Ctx) (hx : exec c s = .next (s.regOp i f))
    (h : s.runs i.k i.len i.reads) (hl : i.len = 1 ∨ i.len = 2) (hc : i.clean) (hs : ∀ c : Ctx, (f c).slot = c.slot)
    (hp : ∀ c : Ctx, (f c).pc = c.pc) (hls : ∀ c : Ctx, (f c).loops = c.loops)
    (hP : (s.th i.k).ctx.slot = none → P (s.th i.k).ctx
      { f (s.th i.k).ctx with shadow := [], pc := (s.th i.k).ctx.pc + w24 i.len }) : Does c s i.k i.len P := by
  obtain ⟨a, b, d⟩ := State.regOp_runs s i f h hl hc hs hp hls
  refine ⟨_, hx, a, b, ?_, ?_⟩
  · rw [d]
  · rw [d]
    exact hP h.2.1

/-- What a write of one general register leaves. -/
theorem onlyG_wrG (c : Ctx) (rd : Nat) (v : Word) (p : Word) (h : c.slot = none) :
    onlyG rd v c { c.wrG rd v with shadow := [], pc := p } := by
  refine ⟨fun r => Ctx.peekG_wrG c rd r v, ?_⟩
  simp [keepsAcc, h]

theorem satQ_eq (x : Int) : satQ x = clamp 0x7FFFFF x := rfl

theorem clamp_le (m x : Int) (h : 0 ≤ m) : -m ≤ clamp m x ∧ clamp m x ≤ m := by
  unfold clamp
  omega

theorem ofInt_toInt_24 (x : Int) (h1 : -0x800000 ≤ x) (h2 : x < 0x800000) : (BitVec.ofInt 24 x).toInt = x := by
  rw [BitVec.toInt_ofInt]
  exact Int.bmod_eq_of_le (by omega) (by omega)

theorem ofInt_toInt_56 (x : Int) (h1 : -(2 ^ 55) ≤ x) (h2 : x < 2 ^ 55) : (BitVec.ofInt 56 x).toInt = x := by
  rw [BitVec.toInt_ofInt]
  exact Int.bmod_eq_of_le (by omega) (by omega)

/-- What a saturating write of one general register leaves (R121). -/
theorem onlyQ_wrSat (c : Ctx) (rd : Nat) (x : Int) (p : Word) (h : c.slot = none) :
    onlyQ rd x c { c.wrSat rd x with shadow := [], pc := p } := by
  have hc := clamp_le 0x7FFFFF x (by omega)
  refine ⟨⟨i24 (satQ x), ?_, fun r => Ctx.peekG_wrG c rd r _⟩, ?_⟩
  · rw [satQ_eq]
    exact ofInt_toInt_24 _ (by omega) (by omega)
  · exact ⟨rfl, Ctx.wrG_a0 _ _ _, Ctx.wrG_a1 _ _ _, Ctx.wrG_aov _ _ _, Ctx.wrG_loops _ _ _, (Ctx.wrG_slot _ _ _).trans h⟩

theorem Ctx.rdA_wrA (c : Ctx) (ac : Nat) (v : Acc) (h : ac ≤ 1) :
    (c.wrA ac v).rdA ac = v ∧ (c.wrA ac v).rdA (1 - ac) = c.rdA (1 - ac) := by
  have : ac = 0 ∨ ac = 1 := by omega
  cases this with
  | inl e => subst e; exact ⟨rfl, rfl⟩
  | inr e => subst e; exact ⟨rfl, rfl⟩

theorem Ctx.wrA_keeps (c : Ctx) (ac : Nat) (v : Acc) :
    (c.wrA ac v).g = c.g ∧ (c.wrA ac v).sat = c.sat ∧ (c.wrA ac v).aov = c.aov ∧ (c.wrA ac v).loops = c.loops ∧
    (c.wrA ac v).slot = c.slot ∧ (c.wrA ac v).pc = c.pc := by
  unfold Ctx.wrA
  split <;> exact ⟨rfl, rfl, rfl, rfl, rfl, rfl⟩

/-- What a write of one accumulator leaves. -/
theorem onlyA_wrA (c : Ctx) (ac : Nat) (v : Acc) (p : Word) (h : c.slot = none) (ha : ac ≤ 1) :
    onlyA ac v c { c.wrA ac v with shadow := [], pc := p } := by
  obtain ⟨k1, k2, k3, k4, k5, k6⟩ := Ctx.wrA_keeps c ac v
  obtain ⟨r1, r2⟩ := Ctx.rdA_wrA c ac v ha
  refine ⟨⟨fun r => ?_, k2, k4, k5.trans h⟩, k3, r1, r2⟩
  show (if r = 0 then (0 : Word) else SMap.get 0 (c.wrA ac v).g r) = if r = 0 then 0 else SMap.get 0 c.g r
  rw [k1]

/-- What a saturating write of one accumulator leaves (R122). -/
theorem onlyASat_wrSatA (c : Ctx) (ac : Nat) (x : Int) (p : Word) (h : c.slot = none) (ha : ac ≤ 1) :
    onlyASat ac x c { c.wrSatA ac x with shadow := [], pc := p } := by
  have hc := clamp_le (2 ^ 55 - 1) x (by omega)
  obtain ⟨k1, k2, k3, k4, k5, k6⟩ := Ctx.wrA_keeps c ac (sat56 x).1
  obtain ⟨r1, r2⟩ := Ctx.rdA_wrA c ac (sat56 x).1 ha
  refine ⟨⟨fun r => ?_, k2, k4, k5.trans h⟩, rfl, ?_, r2⟩
  · show (if r = 0 then (0 : Word) else SMap.get 0 (c.wrA ac (sat56 x).1).g r) = if r = 0 then 0 else SMap.get 0 c.g r
    rw [k1]
  · show ((c.wrA ac (sat56 x).1).rdA ac).toInt = clamp (2 ^ 55 - 1) x
    rw [r1]
    exact ofInt_toInt_56 (clamp (2 ^ 55 - 1) x) (by omega) (by omega)

end Sys2Proof.Machine
end

