-- ==== Sys2Proof/Machine/Pins.lean ====
section
/-!
DEFINITION. The pins (spec/19_pins_electrical.md): the ball map (R607), the electrical classes (R608), the state each pin takes in every state of the
device (R609–R611), and the pulls (R617).
-/

namespace Sys2Proof.Machine

/-! ### Balls -/

/-- The signal pins (R607, R608). -/
inductive Pad where
  | ainp (n : Fin 24)
  | ainn (n : Fin 24)
  | iex (n : Fin 24)
  | bex (k : Fin 4)
  | bexs (k : Fin 4)
  | refp (k : Fin 4)
  | refn (k : Fin 4)
  | xin (n : Fin 16)
  | cprb (k : Fin 4)
  | cret
  | sarin (n : Fin 12)
  | pls (n : Fin 8)
  | zc (k : Fin 2)
  | ssr (o : Fin 8)
  | tcap (n : Fin 4)
  | wkup (n : Fin 2)
  | gh (n : Fin 12)
  | gl (n : Fin 12)
  | bst (n : Fin 12)
  | sw (n : Fin 12)
  | shp (n : Fin 12)
  | shn (n : Fin 12)
  | sol (c : Fin 16)
  | chTx (p : Fin 2) (pos : Bool)
  | chRx (p : Fin 2) (pos : Bool)
  | usbDp
  | usbDm
  | usbVbus
  | xi
  | xo
  | extref
  | ethRefclk
  | ethTxen
  | ethTxd (i : Fin 2)
  | ethCrsdv
  | ethRxd (i : Fin 2)
  | ethRxer
  | ethMdc
  | ethMdio
  | xsClk
  | xsCsn
  | xsDqs
  | xsDq (i : Fin 8)
  | canTx (c : Fin 2)
  | canRx (c : Fin 2)
  | uartTx (u : Fin 4)
  | uartRx (u : Fin 4)
  | de (u : Fin 4)
  | scl (c : Fin 2)
  | sda (c : Fin 2)
  | sclT
  | sdaT
  | sck (i : Fin 2)
  | mosi (i : Fin 2)
  | miso (i : Fin 2)
  | cs (i : Fin 2) (j : Fin 4)
  | tck
  | tms
  | tdi
  | tdo
  | trstN
  | resetN
  | role
  | svc
  | bootsel (i : Fin 2)
  deriving DecidableEq, Repr

/-- The supplies and returns (R607). -/
inductive Rail where
  | agnd
  | pgnd
  | gnd
  | vcore
  | lxc
  | vin
  | vaux
  | vsys
  | lxa
  | avdd
  | vhold
  | vpre
  | vgd
  | hsenp
  | hsenn
  | vaon
  | vcfb
  deriving DecidableEq, Repr

/-- The ball rows in their order; a ball is a row and a column from 1 (R607). -/
inductive BallRow where
  | a | b | c | d | e | f | g | h | j | k | l | m | n | p | t | u | v | w | y | aa | ab | ac
  deriving DecidableEq, Repr

/-- The ball of a signal pin (R607). -/
def Pad.ball : Pad → BallRow × Nat
  | .ainp n => if n.val < 11 then (.a, 2 * n + 1) else if n.val < 22 then (.b, 2 * n - 21) else (.c, 2 * n - 43)
  | .ainn n => if n.val < 11 then (.a, 2 * n + 2) else if n.val < 22 then (.b, 2 * n - 20) else (.c, 2 * n - 42)
  | .iex n => if n.val < 18 then (.c, n + 5) else (.d, n - 17)
  | .bex k => (.d, k + 7)
  | .bexs k => (.d, k + 11)
  | .refp k => (.d, k + 15)
  | .refn k => (.d, k + 19)
  | .xin n => (.f, n + 1)
  | .cprb k => (.f, k + 17)
  | .cret => (.f, 21)
  | .sarin n => (.g, n + 1)
  | .pls n => (.g, n + 13)
  | .zc k => (.g, k + 21)
  | .ssr o => (.h, o + 8)
  | .tcap n => (.h, n + 16)
  | .wkup n => (.h, n + 20)
  | .gh n => (.j, n + 1)
  | .gl n => if n.val < 8 then (.k, n + 15) else (.l, n - 7)
  | .bst n => if n.val < 10 then (.j, n + 13) else (.k, n - 9)
  | .sw n => (.k, n + 3)
  | .shp n => (.l, n + 5)
  | .shn n => if n.val < 6 then (.l, n + 17) else (.m, n - 5)
  | .sol c => (.m, c + 7)
  | .chTx p pos => (.w, 6 * p + if pos then 1 else 2)
  | .chRx p pos => (.w, 6 * p + if pos then 4 else 5)
  | .usbDp => (.w, 13)
  | .usbDm => (.w, 14)
  | .usbVbus => (.w, 15)
  | .xi => (.w, 17)
  | .xo => (.w, 18)
  | .extref => (.w, 20)
  | .ethRefclk => (.w, 22)
  | .ethTxen => (.y, 1)
  | .ethTxd i => (.y, i + 2)
  | .ethCrsdv => (.y, 4)
  | .ethRxd i => (.y, i + 5)
  | .ethRxer => (.y, 7)
  | .ethMdc => (.y, 8)
  | .ethMdio => (.y, 9)
  | .xsClk => (.y, 11)
  | .xsCsn => (.y, 12)
  | .xsDqs => (.y, 13)
  | .xsDq i => (.y, i + 14)
  | .canTx c => (.aa, 2 * c + 1)
  | .canRx c => (.aa, 2 * c + 2)
  | .uartTx u => (.aa, 3 * u + 5)
  | .uartRx u => (.aa, 3 * u + 6)
  | .de u => (.aa, 3 * u + 7)
  | .scl c => (.aa, 2 * c + 17)
  | .sda c => (.aa, 2 * c + 18)
  | .sclT => (.aa, 21)
  | .sdaT => (.aa, 22)
  | .sck i => (.ab, 7 * i + 1)
  | .mosi i => (.ab, 7 * i + 2)
  | .miso i => (.ab, 7 * i + 3)
  | .cs i j => (.ab, 7 * i + 4 + j)
  | .tck => (.ac, 1)
  | .tms => (.ac, 2)
  | .tdi => (.ac, 3)
  | .tdo => (.ac, 4)
  | .trstN => (.ac, 5)
  | .resetN => (.ac, 6)
  | .role => (.ac, 7)
  | .svc => (.ac, 8)
  | .bootsel i => (.ac, i + 9)

/-- The balls of a rail, each as a row with its first and last column (R607). -/
def Rail.balls : Rail → List (BallRow × Nat × Nat)
  | .agnd => [(.e, 1, 22), (.f, 22, 22), (.h, 1, 7)]
  | .pgnd => [(.n, 1, 22), (.t, 5, 6)]
  | .gnd => [(.t, 22, 22), (.u, 11, 22), (.v, 1, 12), (.w, 3, 3), (.w, 6, 6), (.w, 9, 9), (.w, 12, 12), (.w, 16, 16), (.w, 19, 19),
      (.w, 21, 21), (.y, 10, 10), (.y, 22, 22), (.ab, 15, 22), (.ac, 11, 22)]
  | .vcore => [(.u, 1, 10), (.v, 13, 22)]
  | .lxc => [(.t, 13, 20)]
  | .vin => [(.p, 1, 6)]
  | .vaux => [(.t, 7, 12)]
  | .vsys => [(.p, 7, 10)]
  | .lxa => [(.t, 1, 4)]
  | .avdd => [(.h, 22, 22), (.p, 20, 22)]
  | .vhold => [(.p, 11, 12)]
  | .vpre => [(.p, 18, 19)]
  | .vgd => [(.p, 15, 16)]
  | .hsenp => [(.p, 13, 13)]
  | .hsenn => [(.p, 14, 14)]
  | .vaon => [(.p, 17, 17)]
  | .vcfb => [(.t, 21, 21)]

/-- How many balls a rail has. -/
def Rail.count (r : Rail) : Nat := (r.balls.map (fun x => x.2.2 + 1 - x.2.1)).sum

/-- The electrical classes (R608). -/
inductive PadClass where
  | an | d55 | hv | d33 | od | ch | us | osc | p | g
  deriving DecidableEq, Repr

/-- The class of a signal pin (R608). -/
def Pad.cls : Pad → PadClass
  | .ainp _ | .ainn _ | .iex _ | .bex _ | .bexs _ | .refp _ | .refn _ | .xin _ | .cprb _ | .cret | .sarin _ => .an
  | .pls _ | .zc _ => .d55
  | .gh _ | .gl _ | .bst _ | .sw _ | .shp _ | .shn _ | .sol _ | .ssr _ => .hv
  | .chTx _ _ | .chRx _ _ => .ch
  | .usbDp | .usbDm | .usbVbus => .us
  | .xi | .xo => .osc
  | .scl _ | .sda _ | .sclT | .sdaT | .resetN => .od
  | _ => .d33

/-- The class of a rail (R608). -/
def Rail.cls : Rail → PadClass
  | .agnd | .pgnd | .gnd => .g
  | _ => .p

/-! ### Pulls -/

/-- A pull of 50 kΩ (R617). -/
inductive Pull where
  | none | up | down
  deriving DecidableEq, Repr

/-- The pull of a pin in reset, PATROL and DORMANT (R617); every other pin has none. -/
def Pad.pull : Pad → Pull
  | .tms | .tdi | .canTx _ | .uartTx _ | .cs _ _ | .xsCsn => .up
  | .tck | .trstN | .de _ | .role | .svc | .bootsel _ | .ethTxen | .ethTxd _ | .ethMdc | .sck _ | .mosi _ | .xsClk | .xsDq _ | .xsDqs => .down
  | _ => .none

/-! ### Pin states -/

/-- What a pin does (R609, R610). `driven` and `openDrain` are a block's outputs as its chapter has them; `held` is the level at which the island's
clock stopped; `clampSw` and `clampGnd` hold a gate at its source; `buffered` is 1.65 V (R297). -/
inductive PadState where
  | hiZ (pull : Pull)
  | input (pull : Pull)
  | ignored
  | burnout (na : Nat)
  | buffered
  | current (ua : Nat)
  | bridge3V
  | square (mv period : Nat)
  | clampSw
  | clampGnd
  | gate (o : PhaseOut)
  | valve (mode ma : Nat)
  | opto (on : Bool) (fire : Option (Nat × Nat))
  | sense
  | driven
  | held
  | level (v : Bool)
  | openDrain
  | link
  | commonMode
  | terminated
  | wakeDetector
  | oscillates
  | attached
  deriving DecidableEq, Repr

/-- A pin of an unpowered device, power state OFF (R609, R612): no pull is connected, the gates are clamped, and the valve clamp acts. -/
def Pad.unpowered : Pad → PadState
  | .gh _ => .clampSw
  | .gl _ => .clampGnd
  | .sol _ => .valve 0 0
  | .ssr _ => .opto false none
  | _ => .hiZ .none

/-- A pin from the falling to the rising edge of RESET_N (R609); RESET_N itself is driven by the reset's cause (R584). -/
def Pad.inReset (xen : Bool) : Pad → PadState
  | .gh _ => .clampSw
  | .gl _ => .clampGnd
  | .sol _ => .valve 0 0
  | .ssr _ => .opto false none
  | .role => .input .down
  | .svc => .input .down
  | .bootsel _ => .input .down
  | .chRx _ _ => .terminated
  | .xi => if xen then .oscillates else .hiZ .none
  | .xo => if xen then .oscillates else .hiZ .none
  | .ethRefclk => .input .none
  | p => .hiZ p.pull

/-- A pin in PATROL and DORMANT (R609, R617). The pins of a patrol entry are driven during its visit alone, which one command is. -/
def Pad.asleep : Pad → PadState
  | .gh _ => .clampSw
  | .gl _ => .clampGnd
  | .sol _ => .valve 0 0
  | .ssr _ => .opto false none
  | .pls _ => .ignored
  | .zc _ => .ignored
  | .wkup _ => .input .none
  | .role => .input .down
  | .svc => .input .down
  | .bootsel _ => .input .down
  | .resetN => .input .none
  | .sclT => .openDrain
  | .sdaT => .openDrain
  | .chRx _ _ => .wakeDetector
  | p => .hiZ p.pull

/-- The block of a digital pin has its island and its enable (R609: until the keeper configures the block its pins stay as in reset; that its EN
configures it is DEDUCED, log entry 67). -/
def State.padBlock (s : State) : Pad → Option (Nat × Bool)
  | .ethTxen | .ethTxd _ | .ethMdc | .ethMdio | .ethCrsdv | .ethRxd _ | .ethRxer => some (1, s.fb Reg.ETH_CTL Reg.ETH_CTL_EN)
  | .xsClk | .xsCsn | .xsDqs | .xsDq _ => some (4, s.fb Reg.XSPI_CTL Reg.XSPI_CTL_EN)
  | .canTx c | .canRx c => some (2, s.fb (Reg.CANc_CTL c) Reg.CANc_CTL_EN)
  | .uartTx u | .uartRx u => some (2, s.fb (Reg.UARTu_CTL u) Reg.UARTu_CTL_EN)
  | .sck i | .mosi i | .miso i | .cs i _ => some (4, s.fb (Reg.SPIs_CTL i) Reg.SPIs_CTL_EN)
  | .scl c | .sda c => some (2, s.fb (Reg.I2Cc_CTL c) Reg.I2Cc_CTL_EN)
  | _ => none

/-- A digital output of a block: driven once configured, held while its island stands still (R609, R610). -/
def State.padOut (s : State) (p : Pad) : PadState :=
  match s.padBlock p with
  | some (i, en) => if !en then .hiZ p.pull else if s.islandRuns i then .driven else .held
  | none => .driven

/-- A digital input: ignored while its island is gated (R609, R610). -/
def State.padIn (s : State) (p : Pad) : PadState :=
  match s.padBlock p with
  | some (i, _) => if s.islandRuns i then .input .none else .ignored
  | none => .input .none

/-- A pin of the DSM or XING part: its analog function while the DSM island runs, high-impedance otherwise (R609). -/
def State.padDsm (s : State) (x : PadState) : PadState := if s.islandRuns 7 then x else .hiZ .none

/-- A pin in RUN and DOZE (R609–R611). -/
def State.padAwake (s : State) : Pad → PadState
  | .ainp n => s.padDsm (.burnout (s.precBurn n))
  | .ainn n => s.padDsm (if s.ainnHeld n then .buffered else .burnout (s.precBurn n))
  | .refp _ | .refn _ | .bexs _ | .xin _ | .sarin _ => s.padDsm (.input .none)
  | .iex n => s.padDsm (match s.precIex n with | some ua => .current ua | none => .hiZ .none)
  | .bex k => s.padDsm (if s.bexOn k then .bridge3V else .hiZ .none)
  | .cprb k => s.padDsm (match s.condDrive k with | some (mv, per) => .square mv per | none => .hiZ .none)
  | .cret => s.padDsm (if (List.range 4).any (fun k => (s.condDrive k).isSome) then .driven else .hiZ .none)
  | .pls n => .input (if s.fb (Reg.PULSE_INnCFG n) Reg.PULSE_INnCFG_PU then .up else .none)
  | .zc _ => .input .none
  | .gh n => (match s.phaseOut (n.val / 3) (n.val % 3) with | .pwm o st dt => .gate (.pwm o st dt) | _ => .clampSw)
  | .gl n => (match s.phaseOut (n.val / 3) (n.val % 3) with | .off => .clampGnd | o => .gate o)
  | .bst _ | .sw _ | .shp _ | .shn _ => .sense
  | .sol c => .valve (s.solOut c).1 (s.solOut c).2
  | .ssr o => .opto (s.ssrOut o).1 (s.ssrOut o).2
  | .de u => (match s.uartPin u with | some v => .level v | none => .hiZ .down)
  | .role | .svc | .bootsel _ => .input .down
  | .resetN => .input .none
  | .scl c => if s.fb (Reg.I2Cc_CTL c) Reg.I2Cc_CTL_EN then .openDrain else .hiZ .none
  | .sda c => if s.fb (Reg.I2Cc_CTL c) Reg.I2Cc_CTL_EN then .openDrain else .hiZ .none
  | .sclT | .sdaT => .openDrain
  | .chTx _ _ => if s.islandRuns 8 then .link else .commonMode
  | .chRx _ _ => .terminated
  | .usbDp | .usbDm => if s.islandRuns 3 && s.fb Reg.USB_STAT Reg.USB_STAT_ATT then .attached else .hiZ .none
  | .usbVbus => .input .none
  | .xi | .xo => if s.fb Reg.REF_TBCTL Reg.REF_TBCTL_XEN then .oscillates else .hiZ .none
  | .ethRefclk =>
    if s.fb Reg.ETH_CTL Reg.ETH_CTL_REFOUT then (if s.islandRuns 1 then .driven else .held) else .input .none
  | p => match p with
    | .ethTxen | .ethTxd _ | .ethMdc | .ethMdio | .xsClk | .xsCsn | .xsDqs | .xsDq _ | .canTx _ | .uartTx _ | .sck _ | .mosi _ | .cs _ _ | .tdo =>
      s.padOut p
    | p => s.padIn p

/-- A pin of the powered device outside reset (R609). -/
def State.pad (s : State) (p : Pad) : PadState := if 2 ≤ s.pwr.state then p.asleep else s.padAwake p

end Sys2Proof.Machine
end

