-- ==== Sys2Proof/WellFormed.lean ====
section
/-!
DEFINITION. Well-formed commands: the ranges of operands that their types leave open. A command that is not well-formed still has the
meaning its rule gives it (an instruction whose encoding is not allowed takes ILLEGAL, R86); the check says which commands a
sender of the spec would send.
-/

namespace Sys2Proof

/-- The command is one that the spec's tables allow. -/
def Instr.wf (i : Instr) : Bool :=
  match i with
  | .registerWrite _ a _ => decide (0xF00000 ≤ a.toNat)
  | .analogSettingTransfer a _ => decide (0xF00000 ≤ a.toNat)
  | .registerAccessTimeout _ _ => true
  | .heartbeatLoss => true
  | .heartbeatResume _ => true
  | .islandEventCrossing _ => true
  | .routerDelivery _ => true
  | .evrForce _ => true
  | .fetch _ _ => true
  | .accessComplete _ _ _ _ => true
  | .replayOutcomeArrival _ _ _ _ => true
  | .threadEnable _ => true
  | .threadDisable _ => true
  | .threadStopComplete _ => true
  | .lbctlWrite _ _ => true
  | .add _ _ _ _ => true
  | .sub _ _ _ _ => true
  | .and _ _ _ _ => true
  | .or _ _ _ _ => true
  | .xor _ _ _ _ => true
  | .andn _ _ _ _ => true
  | .nor _ _ _ _ => true
  | .slt _ _ _ _ => true
  | .sltu _ _ _ _ => true
  | .sll _ _ _ _ => true
  | .srl _ _ _ _ => true
  | .sra _ _ _ _ => true
  | .rol _ _ _ _ => true
  | .min _ _ _ _ => true
  | .max _ _ _ _ => true
  | .minu _ _ _ _ => true
  | .maxu _ _ _ _ => true
  | .mul _ _ _ _ => true
  | .mulhs _ _ _ _ => true
  | .mulhu _ _ _ _ => true
  | .clz _ _ _ rb => decide (rb = 0)
  | .addi _ _ _ _ => true
  | .andi _ _ _ _ => true
  | .ori _ _ _ _ => true
  | .xori _ _ _ _ => true
  | .slti _ _ _ _ => true
  | .sltiu _ _ _ _ => true
  | .slli _ _ _ n => decide (n.toNat < 24)
  | .srli _ _ _ n => decide (n.toNat < 24)
  | .srai _ _ _ n => decide (n.toNat < 24)
  | .roli _ _ _ n => decide (n.toNat < 24)
  | .lui _ _ _ => true
  | .extu _ _ _ pos len1 => decide (pos.toNat + len1.toNat < 24)
  | .exts _ _ _ pos len1 => decide (pos.toNat + len1.toNat < 24)
  | .ins _ _ _ pos len1 => decide (pos.toNat + len1.toNat < 24)
  | .li _ _ ra _ => decide (ra = 0)
  | .addl _ _ _ _ => true
  | .andl _ _ _ _ => true
  | .orl _ _ _ _ => true
  | .xorl _ _ _ _ => true
  | .sltl _ _ _ _ => true
  | .sltul _ _ _ _ => true
  | .ld _ _ _ _ => true
  | .st _ _ _ _ => true
  | .ldp _ d _ _ => decide (d.val % 2 = 0)
  | .stp _ d _ _ => decide (d.val % 2 = 0)
  | .ldPostModify _ d ra _ => decide (ra = 0) || decide (d ≠ ra)
  | .stPostModify _ _ _ _ => true
  | .ldpPostModify _ d ra _ => decide (d.val % 2 = 0) && (decide (ra = 0) || decide (d ≠ ra) && decide (d.val + 1 ≠ ra.val))
  | .stpPostModify _ d _ _ => decide (d.val % 2 = 0)
  | .ldx _ _ _ _ => true
  | .stx _ _ _ _ => true
  | .ldpx _ d _ _ => decide (d.val % 2 = 0)
  | .stpx _ d _ _ => decide (d.val % 2 = 0)
  | .xchg _ _ _ _ => true
  | .ldLong _ _ _ _ => true
  | .stLong _ _ _ _ => true
  | .ldpLong _ d _ _ => decide (d.val % 2 = 0)
  | .stpLong _ d _ _ => decide (d.val % 2 = 0)
  | .beq _ _ _ _ => true
  | .bne _ _ _ _ => true
  | .blt _ _ _ _ => true
  | .bge _ _ _ _ => true
  | .bltu _ _ _ _ => true
  | .bgeu _ _ _ _ => true
  | .beqi _ _ _ _ => true
  | .bnei _ _ _ _ => true
  | .blti _ _ _ _ => true
  | .bgei _ _ _ _ => true
  | .bltui _ _ _ _ => true
  | .bgeui _ _ _ _ => true
  | .beqLong _ _ _ _ => true
  | .bneLong _ _ _ _ => true
  | .bltLong _ _ _ _ => true
  | .bgeLong _ _ _ _ => true
  | .bltuLong _ _ _ _ => true
  | .bgeuLong _ _ _ _ => true
  | .j _ _ => true
  | .call _ _ => true
  | .jr _ d _ => decide (d = 0)
  | .callr _ _ _ => true
  | .jl _ d ra _ => decide (d = 0) && decide (ra = 0)
  | .calll _ _ ra _ => decide (ra = 0)
  | .loop _ _ _ => true
  | .loopi _ _ _ => true
  | .lpop _ d ra => decide (d = 0) && decide (ra = 0)
  | .mflLc _ _ ra => decide (ra = 0)
  | .mflLs _ _ ra => decide (ra = 0)
  | .mflLe _ _ ra => decide (ra = 0)
  | .mtlLc _ d _ => decide (d = 0)
  | .ldepth _ _ ra => decide (ra = 0)
  | .adds _ _ _ _ => true
  | .subs _ _ _ _ => true
  | .negs _ _ ra _ => decide (ra = 0)
  | .abss _ _ _ rb => decide (rb = 0)
  | .mulr _ _ _ _ => true
  | .clip _ _ _ _ => true
  | .shls _ _ _ _ => true
  | .mpy _ ac _ _ => decide (ac.val < 2)
  | .mac _ ac _ _ => decide (ac.val < 2)
  | .msu _ ac _ _ => decide (ac.val < 2)
  | .mpyi _ ac _ _ => decide (ac.val < 2)
  | .maci _ ac _ _ => decide (ac.val < 2)
  | .rnd _ _ ac => decide (ac.val < 2)
  | .rndc _ _ ac => decide (ac.val < 2)
  | .trn _ _ ac => decide (ac.val < 2)
  | .mfah _ _ ac => decide (ac.val < 2)
  | .mfal _ _ ac => decide (ac.val < 2)
  | .mfag _ _ ac => decide (ac.val < 2)
  | .mtah _ ac _ => decide (ac.val < 2)
  | .mtal _ ac _ => decide (ac.val < 2)
  | .mtag _ ac _ => decide (ac.val < 2)
  | .clra _ ac ra => decide (ac.val < 2) && decide (ra = 0)
  | .adda _ ac ac2 => decide (ac.val < 2) && decide (ac2.val < 2)
  | .suba _ ac ac2 => decide (ac.val < 2) && decide (ac2.val < 2)
  | .mova _ ac ac2 => decide (ac.val < 2) && decide (ac2.val < 2)
  | .nega _ ac ac2 => decide (ac.val < 2) && decide (ac2.val < 2)
  | .absa _ ac ac2 => decide (ac.val < 2) && decide (ac2.val < 2)
  | .mfas _ _ ra => decide (ra = 0)
  | .mtas _ d _ => decide (d = 0)
  | .asha _ ac ac2 n => decide (ac.val < 2) && decide (ac2.val < 2) && decide (-48 ≤ n.toInt) && decide (n.toInt ≤ 48)
  | .rnds _ _ ac n => decide (ac.val < 2) && decide (-24 ≤ n.toInt) && decide (n.toInt ≤ 24)
  | .div _ _ _ _ => true
  | .divu _ _ _ _ => true
  | .rem _ _ _ _ => true
  | .remu _ _ _ _ => true
  | .divq _ _ _ _ => true
  | .wfe _ d ra => decide (d = 0) && decide (ra = 0)
  | .waitt _ d ra => decide (d = 0) && decide (ra.val % 2 = 0)
  | .waittTargetReached _ => true
  | .rdt _ d ra => decide (ra = 0) && decide (d.val % 2 = 0)
  | .sync _ d ra => decide (d = 0) && decide (ra = 0)
  | .syncComplete _ => true
  | .fence _ d ra => decide (d = 0) && decide (ra = 0)
  | .fenceComplete _ => true
  | .retx _ d ra => decide (d = 0) && decide (ra = 0)
  | .cswap _ _ _ => true
  | .tcia _ d ra => decide (d = 0) && decide (ra = 0)
  | .tcic _ d _ => decide (d = 0)
  | .tcip _ _ _ => true
  | .btcia _ d ra => decide (d = 0) && decide (ra = 0)
  | .btcic _ d _ => decide (d = 0)
  | .btcip _ _ _ => true
  | .sev _ ra imm => decide (ra = 0) && decide (imm.toNat < 32)
  | .sevl _ ra imm => decide (ra = 0) && decide (imm = 0)
  | .callk _ ra _ => decide (ra = 0)
  | .ckpt _ _ imm => decide (imm.toNat < 64)
  | .ckptDrain _ => true
  | .eventArrival _ _ => true
  | .coalesceTimeLimit _ _ => true
  | .pendWrite _ _ _ => true
  | .eviHoldSet _ => true
  | .eviHoldRelease _ => true
  | .eviHoldTimeout _ => true
  | .wakeDelivery _ _ => true
  | .interruptAccept _ => true
  | .exceptionEntry _ _ _ _ _ => true
  | .claim _ _ => true
  | .eoi _ _ _ => true
  | .scrubStep => true
  | .mramWordWrite _ _ => true
  | .mrmark => true
  | .tableWalk _ _ _ _ => true
  | .reservationRequest _ => true
  | .tokenRefill => true
  | .memcPromotion _ _ => true
  | .hotbank _ => true
  | .hallmark _ => true
  | .hallmarkComplete => true
  | .load _ => true
  | .suspend _ => true
  | .resume _ => true
  | .epoch _ => true
  | .retire _ => true
  | .retireComplete => true
  | .kswitch _ => true
  | .refill _ => true
  | .budgetChunk _ => true
  | .budgetExhausted _ => true
  | .periodBoundary _ => true
  | .budgetPromotion _ => true
  | .probe _ => true
  | .strandPush _ _ _ _ => true
  | .strandFullTimeout _ _ _ => true
  | .strandPop _ _ _ => true
  | .payloadReadTimeout _ _ _ => true
  | .packetLockTimeout _ => true
  | .strandItemAtHead _ => true
  | .strandConfig _ _ => true
  | .strandFlush _ => true
  | .endpointPcidWrite _ _ => true
  | .landingHeader _ => true
  | .landingPayloadWrite _ => true
  | .checkpointComplete _ => true
  | .bridgeQueueToStrand _ => true
  | .claspBridgeQueueWrite _ => true
  | .precSample _ _ _ _ _ => true
  | .precRestart _ _ _ => true
  | .exsetWaitEnd _ => true
  | .precSync _ => true
  | .swapRequest _ => true
  | .precWref _ _ _ _ => true
  | .precStale _ => true
  | .coldJunctionReading _ => true
  | .precBexlim _ => true
  | .bandgapComparison _ _ _ _ => true
  | .bandgapStateWrite _ => true
  | .xingCrossing _ _ _ => true
  | .minivIntervalEnd _ => true
  | .xingAcquire _ => true
  | .acquisitionDone _ _ => true
  | .xingQuiet _ _ => true
  | .sarTrigger _ => true
  | .sarSwtrig _ => true
  | .sarStepDone _ _ _ => true
  | .sarStale _ => true
  | .pulseEdge _ _ _ => true
  | .pulseGlitch _ => true
  | .pulseIntervalEnd _ => true
  | .pulseStale _ => true
  | .condResult _ _ _ => true
  | .condStale _ => true
  | .claspCommand _ _ => true
  | .keeperCommand _ _ => true
  | .claspTick => true
  | .refreshWatchdogExpiry _ => true
  | .energyLimit _ => true
  | .arm _ => true
  | .disarm _ => true
  | .ruleTrip _ => true
  | .ruleRelease _ => true
  | .claspHoldSet _ => true
  | .claspHoldRelease _ => true
  | .claspHoldTimeout _ => true
  | .claspSwapRequest => true
  | .claspSwap => true
  | .claspWref _ _ => true
  | .pwmPeriodBoundary _ => true
  | .bridgeTriggerPoint _ _ => true
  | .brSync _ => true
  | .bridgeEnable _ => true
  | .overcurrentTrip _ _ _ => true
  | .tripfClear _ => true
  | .vgdUndervoltage => true
  | .bootstrapUndervoltage _ _ => true
  | .solPeakGrant => true
  | .solPeakEnd _ => true
  | .solOpenCheck _ _ => true
  | .solShort _ => true
  | .zeroCrossEdge _ _ => true
  | .zeroCrossLost _ => true
  | .ssrOc _ => true
  | .windowEnd _ _ _ _ _ => true
  | .tbAbsent _ => true
  | .tbStateWrite _ => true
  | .timeSlew _ => true
  | .slewAdjustment => true
  | .timerStart _ => true
  | .timerMatch _ => true
  | .timerCapture _ _ => true
  | .swcap _ => true
  | .captureRead _ _ => true
  | .gstart _ => true
  | .timedGlobalStart => true
  | .ethReceive _ _ _ _ _ => true
  | .ethTransmitDone _ _ => true
  | .txpoll => true
  | .mdioAccess _ _ => true
  | .linkPoll _ => true
  | .canReceive _ _ _ _ => true
  | .canFifoWrite _ _ => true
  | .canFifoRead _ => true
  | .canTransmitDone _ _ _ => true
  | .canTxTimeout _ => true
  | .canAbort _ _ => true
  | .canRecover _ => true
  | .canBusOffRecovery _ => true
  | .uartReceive _ _ _ _ _ => true
  | .uartIdleTimeout _ => true
  | .uartDataWrite _ _ => true
  | .uartDataRead _ => true
  | .uartTransmitDone _ => true
  | .spiDataWrite _ _ => true
  | .spiDataRead _ => true
  | .spiWordDone _ _ => true
  | .spiStallTimeout _ => true
  | .spiEnd _ => true
  | .start _ _ => true
  | .send _ _ => true
  | .readAck _ => true
  | .readNack _ => true
  | .stop _ => true
  | .i2cRecover _ => true
  | .i2cCommandDone _ _ _ => true
  | .arbitrationLost _ => true
  | .sclTimeout _ => true
  | .i2cPortRead _ => true
  | .i2ctMatch _ => true
  | .i2ctByte _ => true
  | .i2ctDone => true
  | .i2ctStrto => true
  | .i2ctPortAccess _ _ => true
  | .usbBusReset => true
  | .usbSuspend => true
  | .usbResume => true
  | .usbOut _ _ _ => true
  | .usbSetup _ _ _ => true
  | .usbIn _ _ => true
  | .usbVbusChange _ => true
  | .xspiWindowRead _ _ _ _ => true
  | .xspiCommand _ => true
  | .xspiCommandDone _ => true
  | .xspiPollTimeout _ => true
  | .sha256 _ => true
  | .gcmEncrypt _ => true
  | .gcmDecrypt _ => true
  | .ecdsaVerify _ => true
  | .clearKey _ => true
  | .cryptJobDone => true
  | .rngBlock _ => true
  | .rngPop => true
  | .linkUp _ => true
  | .linkDown _ => true
  | .portDead _ => true
  | .retransmitTimeout _ => true
  | .ack _ _ => true
  | .nak _ _ => true
  | .echo _ => true
  | .echr _ _ => true
  | .linkDelayMeasure => true
  | .enumerationStart => true
  | .enum _ _ => true
  | .enumr _ _ _ _ _ _ => true
  | .enumerationTimeout => true
  | .windowWrite _ _ => true
  | .windowRead _ _ => true
  | .wr _ _ _ _ _ _ _ _ _ _ _ => true
  | .rd _ _ _ _ _ _ _ _ _ => true
  | .rdr _ _ _ _ _ _ _ => true
  | .wack _ _ _ => true
  | .wackTimer => true
  | .wfail _ _ _ _ _ => true
  | .readTimeout _ => true
  | .writeTimeout _ => true
  | .chnDrainStore _ _ => true
  | .chnDrainComplete _ => true
  | .chnSeqRead _ _ => true
  | .chnDrainRead _ _ => true
  | .evt _ _ _ _ => true
  | .beaconSend => true
  | .beacon _ _ _ _ _ _ => true
  | .beaconLoss => true
  | .ring _ _ _ => true
  | .upstreamLost => true
  | .shedStepEnter _ => true
  | .shedStepLeave _ => true
  | .shedForce _ => true
  | .vsysCollapse => true
  | .holdupExhausted => true
  | .vinHigh => true
  | .chargerFull => true
  | .chargerFault => true
  | .holdMeasure _ _ _ _ _ => true
  | .holdRebase => true
  | .chargeMeasurement => true
  | .regulatorLimit _ => true
  | .planLevelRequest _ _ => true
  | .planLevelChange _ => true
  | .dozeRequest => true
  | .patrolRequest => true
  | .dormantRequest => true
  | .cancel => true
  | .participantAnswer _ _ => true
  | .participantTimeout => true
  | .pointOfNoReturn => true
  | .awuWake _ => true
  | .dozeReturn => true
  | .fabricRestart _ _ _ => true
  | .wakePin _ _ _ => true
  | .chadenWakeDetect _ => true
  | .lwake _ => true
  | .timeAlarm _ => true
  | .patrolVisit _ _ _ => true
  | .stall _ => true
  | .clusterFault _ _ => true
  | .readmit _ => true
  | .readmitComplete _ => true
  | .pairArm _ _ => true
  | .pairDisarm _ _ => true
  | .ckmiss _ => true
  | .fltTake _ => true
  | .takeover _ => true
  | .takeoverComplete _ => true
  | .escalationReset _ _ => true
  | .assayHour => true
  | .assayRunCommand => true
  | .assayRunComplete _ _ _ _ _ => true
  | .assayPlanWrite _ _ _ => true
  | .thermalEvaluation _ => true
  | .powerOnReset _ _ _ _ => true
  | .resetPin _ _ => true
  | .keeperReset _ _ _ => true
  | .watchdogKick _ _ _ _ => true
  | .watchdogWarn _ => true
  | .watchdogTimeout _ _ _ => true
  | .fuseProgram _ => true
  | .epochFuseBlow _ => true
  | .fuseDone _ => true
  | .serviceModeWrite _ => true
  | .klock => true
  | .trst => true
  | .extest => true
  | .samplePreload _ => true
  | .idcode => true
  | .clamp => true
  | .highz => true
  | .loupeSelect => true
  | .bypass => true
  | .nop => true
  | .rdk _ _ => true
  | .wrk _ _ _ => true
  | .rdc _ _ => true
  | .wrc _ _ _ => true
  | .setcid _ => true
  | .halt _ => true
  | .run _ => true
  | .step _ => true
  | .rdreg _ c => decide (c.val < 34)
  | .wrreg _ c _ => decide (c.val < 34) && decide (c.val ≠ 32)
  | .tstat _ => true
  | .setbp _ _ => true
  | .setwp _ _ => true
  | .breakpointHalt _ _ => true
  | .freeze _ => true
  | .chal _ => true
  | .keyw w _ => decide (w.val < 22)
  | .resp w _ => decide (w.val < 22)
  | .unlock _ => true
  | .unlockLockoutEnd => true
  | .lock => true
  | .wake => true
  | .mailw _ => true
  | .mailr => true
  | .tpllLock => true
  | .frameCrcFailure _ _ => true
  | .vgdRecovery => true
  | .bootstrapRecovery _ _ => true
  | .bexLimitEnd _ => true
  | .vinhiEnd => true
  | .ssrOcEnd _ => true
  | .i2cBusFree _ => true

end Sys2Proof
end

