-- ==== Sys2Proof/Tests/Slice0.lean ====
section
/-!
SUPPORT. Own tests: the smoke test of the well-formedness check, results the spec works out by hand, and for every statement of the
certificate a state and operands that meet its hypotheses.
-/

namespace Sys2Proof.Tests

set_option Elab.async false

open Sys2Proof Sys2Proof.Machine

/-! ### Small states -/

/-- A context at `pc` with general registers `g`. -/
def cx (pc : Word) (g : SMap Word) : Ctx := { Ctx.zero with pc := pc, g := g }

/-- A thread that runs at keeper privilege with context `c`. -/
def kth (c : Ctx) : Thread := { Thread.off with mode := .run, ctx := c }

/-- A thread that runs at capsule privilege as capsule 1 with context `c`. -/
def cth (c : Ctx) : Thread := { kth c with bind := { prv := false, cid := 1, kg := false, tep := 0 } }

/-- The state after reset with T0 of engine 0 being `t`. -/
def one (t : Thread) : State := { State.reset with thr := [(0, t)] }

/-- T0 of engine 0 runs in its local memory with registers `g`. -/
def run0 (g : SMap Word) : State := one (kth (cx 0x900000 g))

/-- As `one`, with capsule 1 ACTIVE. -/
def oneC (t : Thread) : State :=
  { one t with bz := { caps := [(1, { Capsule.empty with live := [(0, 0x600000)] })], check := none } }

/-- The state a command answers. -/
def get (o : Out) : State := match o with
  | .next t => t
  | _ => State.reset

/-- Register `r` of T0 of engine 0. -/
def greg (s : State) (r : Nat) : Word := (s.th 0).ctx.rdG r

/-! ### Witnesses: instructions -/

theorem wit_alu : (run0 []).runs 0 1 [1, 2] ∧ (run0 []).runs 0 1 [1] := by
  (repeat' apply And.intro) <;> first | decide +kernel | exact Or.inr (by decide +kernel)

theorem wit_immediate : (run0 []).runs 0 1 [1] ∧ (run0 []).runs 0 1 [2, 1] ∧ (run0 []).runs 0 1 [] ∧ (run0 []).runs 0 2 [0] ∧
    (run0 []).runs 0 2 [1] := by
  (repeat' apply And.intro) <;> first | decide +kernel | exact Or.inr (by decide +kernel)

theorem wit_immediate_ranges : (23#5).toNat < 24 ∧ (23#5).toNat + (0#5).toNat < 24 ∧ (0#5).toNat + (23#5).toNat < 24 := by decide

theorem wit_saturating : (run0 []).runs 0 1 [1, 2] ∧ (run0 []).runs 0 1 [2] ∧ (run0 []).runs 0 1 [1] := by
  (repeat' apply And.intro) <;> first | decide +kernel | exact Or.inr (by decide +kernel)

theorem wit_accumulator : (1 : Fin 16).val ≤ 1 ∧ -48 ≤ (0x50#7).toInt ∧ (0x30#7).toInt ≤ 48 ∧ (run0 []).runs 0 1 [1, 2] ∧
    (run0 []).runs 0 1 [1] ∧ (run0 []).runs 0 1 [] := by
  (repeat' apply And.intro) <;> first | decide +kernel | exact Or.inr (by decide +kernel)

theorem wit_rounding : -24 ≤ (0x68#7).toInt ∧ (0x18#7).toInt ≤ 24 ∧ (run0 [(2, 1)]).runs 0 1 [1, 2] ∧ greg (run0 [(2, 1)]) 2 ≠ 0 ∧
    greg (run0 []) 2 = 0 := by
  (repeat' apply And.intro) <;> first | decide +kernel | exact Or.inr (by decide +kernel)

theorem wit_transfers : (run0 []).runs 0 1 [1, 2] ∧ (run0 []).runs 0 2 [1, 2] ∧ (run0 []).passes 0 0x900001 ∧
    (run0 []).passes 0 0x900002 := by
  (repeat' apply And.intro) <;> first | decide +kernel | exact Or.inr (by decide +kernel)

/-- A delay slot waits; a loop ends at the pc; two loops end there together. -/
def slot0 : State := one (kth { cx 0x900011 [] with slot := some { xferAt := 0x900010, long := false, target := some 0x900020, link := some 15 } })
def loop0 (n m : Word) : State :=
  one (kth { cx 0x900011 [] with loops := [{ count := n, start := 0x900010, stop := 0x900011, tag := 0, owns := false },
    { count := m, start := 0x900008, stop := 0x900011, tag := 0, owns := false }] })

theorem wit_next_slot : slot0.issues 0 [1, 2] ∧ slot0.issues 0 [0] ∧ (slot0.th 0).ctx.loops = [] ∧ (slot0.th 0).ctx.slot.isSome := by
  (repeat' apply And.intro) <;> first | decide +kernel | exact Or.inr (by decide +kernel)

theorem wit_next_loop : (loop0 2 5).issues 0 [1, 2] ∧ (loop0 1 5).issues 0 [1, 2] ∧ (loop0 2 5).passes 0 0x900011 ∧
    ((loop0 1 5).th 0).ctx.loops.length = 2 ∧ ((loop0 1 5).th 0).depth = 0 := by
  (repeat' apply And.intro) <;> first | decide +kernel | exact Or.inr (by decide +kernel)

/-- Loop stacks that are full, hold one entry, and are empty. -/
def full3 : State := one (kth { cx 0x900000 [(1, 4)] with loops := List.replicate 3 { count := 2, start := 0x900100, stop := 0x900110, tag := 0, owns := false } })
def loop1 : State := one (kth { cx 0x900000 [(1, 4)] with loops := [{ count := 2, start := 0x900100, stop := 0x900110, tag := 0, owns := false }] })

theorem wit_loops : full3.runs 0 1 [1] ∧ 3 ≤ (full3.th 0).ctx.loops.length ∧ (full3.th 0).infl = [] ∧ (full3.th 0).depth < 16 ∧
    loop1.runs 0 1 [1] ∧ loop1.runs 0 1 [] ∧ (∀ l ∈ (loop1.th 0).ctx.loops, l.stop ≠ 0x900000) ∧ greg loop1 1 ≠ 0 ∧ greg loop1 2 = 0 ∧
    (run0 []).runs 0 1 [] ∧ ((run0 []).th 0).ctx.loops = [] := by
  (repeat' apply And.intro) <;> first | decide +kernel | exact Or.inr (by decide +kernel)

/-- A word pair of local memory, and capsule 1 with a page that maps it for loads and stores. -/
def mem0 : State := { run0 [(1, 0x900100), (4, 7), (5, 9)] with mem := [(0x900100, .good 5), (0x900101, .good 6)] }
def cap0 : State :=
  { oneC (cth (cx 0x000000 [(1, 0x000100)])) with
    mem := [(0x900100, .good 5)],
    eng := [(0, { Engine.init with tc := [(0, some { cid := 1, block := false, vpn := 0, base := 0x900000, perms := 7 })] })] }

theorem wit_loads : mem0.runs 0 1 [1] ∧ mem0.runs 0 2 [1] ∧ mem0.runs 0 1 [1, 2] ∧ mem0.reaches 0 .load 0x900100 0x900100 ∧
    ownLocal 0 0x900100 = true ∧ ownLocal 0 0x900101 = true ∧ mem0.cell 0x900100 = .good 5 ∧ mem0.cell 0x900101 = .good 6 ∧
    mem0.wpHit 0 .load 0x900100 0 = none ∧ mem0.wpHit 0 .load 0x900100 1 = none ∧ (mem0.th 0).ctx.pend = [] := by
  (repeat' apply And.intro) <;> first | decide +kernel | exact Or.inr (by decide +kernel) | exact Or.inl (by decide +kernel)

theorem wit_load_capsule : cap0.runs 0 1 [1] ∧ cap0.reaches 0 .load 0x000100 0x900100 ∧ ownLocal 0 0x900100 = true ∧
    cap0.cell 0x900100 = .good 5 ∧ cap0.wpHit 0 .load 0x000100 0 = none := by
  simp only [State.runs, State.issues, State.passes, State.reaches]
  refine ⟨by decide +kernel, Or.inr ⟨by decide +kernel, by decide +kernel, _, by rfl, by rfl⟩, by decide +kernel⟩

theorem wit_stores : mem0.runs 0 1 [4, 1] ∧ mem0.runs 0 1 [4, 5, 1] ∧ mem0.runs 0 1 [4, 5, 1, 2] ∧ mem0.runs 0 2 [4, 5, 1] ∧
    mem0.runs 0 1 [4, 1, 2] ∧ mem0.runs 0 2 [4, 1] ∧ mem0.reaches 0 .store 0x900100 0x900100 ∧ mem0.reaches 0 .xchg 0x900100 0x900100 ∧
    mem0.wpHit 0 .store 0x900100 1 = none ∧ mem0.wpHit 0 .xchg 0x900100 0 = none ∧ (mem0.th 0).infl = [] := by
  (repeat' apply And.intro) <;> first | decide +kernel | exact Or.inr (by decide +kernel) | exact Or.inl (by decide +kernel)

/-- T0 is about to reach cluster memory; the engine's spine holds its store, or its load. -/
def far0 : State := run0 [(1, 0xA00000), (3, 8)]
def acc0 (kind : AccKind) : Access :=
  { id := 7, k := 0, kind := kind, pair := false, va := 0xA00000, pa := 0xA00000, pa2 := 0xA00001, rd := 3, d0 := 8, d1 := 0, ia := 0x900000,
    cid := 0, prv := true, ord := none, half := false }
def wait0 : Infl := { id := 7, snap := cx 0x900000 [], len := 1, st := .waiting, lb := .none }
def spine0 (kind : AccKind) (t : Thread) : State :=
  { one t with eng := [(0, { Engine.init with spine := [acc0 kind] })], mem := [(0xA00000, .good 5)] }
def stored0 : State := spine0 .store (kth (cx 0x900001 []))
def loaded0 : State := spine0 .load { kth { cx 0x900001 [] with pend := [(3, 7)] } with infl := [wait0] }

theorem wit_spine_issue : far0.runs 0 1 [1] ∧ far0.runs 0 1 [3, 1] ∧ far0.wpHit 0 .load 0xA00000 0 = none ∧
    far0.wpHit 0 .store 0xA00000 0 = none ∧ far0.wpHit 0 .xchg 0xA00000 0 = none ∧ (far0.th 0).bind.prv = true ∧ (far0.th 0).infl = [] ∧
    (far0.en 0).spine.length < 4 ∧ sramRegion 0xA00000 = true ∧ ownLocal 0 0xA00000 = false := by
  (repeat' apply And.intro) <;> first | decide +kernel | exact Or.inr (by decide +kernel)

theorem wit_spine_complete : (stored0.en 0).spine.length = 1 ∧ (stored0.th 0).infl = [] ∧ (stored0.th 0).replay = [] ∧
    stored0.closed 0xA00000 = false ∧ stored0.quarantined 0 = false ∧ (loaded0.th 0).infl.map (·.id) = [7] ∧
    loaded0.cell 0xA00000 = .good 5 ∧ (loaded0.th 0).ctx.pend = [(3, 7)] ∧ (loaded0.th 0).haltReq = 0 ∧
    loaded0.closed 0xA00000 = false := by
  decide +kernel

/-- T0 with its event latch set, with a register write to be synchronised, waiting for a time, for its accesses, and for the synchroniser. -/
def latch0 : State := one { kth (cx 0x900000 []) with el := true }
def rws0 (w : List (Nat × Word)) (m : Mode) : State := one { kth (cx 0x900000 []) with rws := w, mode := m }
def locked0 (m : Mode) : State := { rws0 [] m with time := { TimeSt.init with locked := true, dt := 100 } }

theorem wit_waits : latch0.runs 0 1 [] ∧ (latch0.th 0).el = true ∧ (rws0 [(Reg.EVI_CTL 0, 1)] .run).runs 0 1 [] ∧
    (rws0 [] .run).runs 0 1 [2, 3] ∧ (locked0 .run).runs 0 1 [2, 3] ∧ (locked0 .run).time.locked = true ∧ (locked0 .run).sees 0 100 ∧
    ((locked0 .run).en 0).spine = [] ∧ stored0.runs 0 1 [] ∧
    (stored0.en 0).spine.map (·.k) = [0] := by
  (repeat' apply And.intro) <;> first | decide +kernel | exact Or.inr (by decide +kernel)

theorem wit_completions : (locked0 (.time 100)).entering = false ∧
    ((locked0 (.time 100)).th 0).mode = .time 100 ∧ (locked0 (.time 100)).pwr.state = 0 ∧ (locked0 (.time 100)).sees 0 100 ∧
    ((locked0 .fence).en 0).spine = [] ∧ ((locked0 .sync).th 0).mode = .sync ∧ ((locked0 .sync).th 0).haltReq = 0 ∧
    ((locked0 .sync).th 0).rom = false ∧ (locked0 .sync).chn.drains = [] ∧
    ((rws0 [(Reg.EVI_TtBASE 0 0, 0x1F)] .run).th 0).rws = [(Reg.EVI_TtBASE 0 0, 0x1F)] := by
  (repeat' apply And.intro) <;> first | decide +kernel | exact Or.inr (by decide +kernel)

/-- T0 runs as the capsule 1. -/
def capRun (g : SMap Word) : State := oneC (cth (cx 0x000100 g))

theorem wit_invalidate : (run0 []).runs 0 1 [] ∧ (run0 []).runs 0 1 [2] ∧ (run0 []).runs 0 1 [1, 2] ∧ ((run0 []).th 0).bind.prv = true ∧
    (capRun []).runs 0 1 [] ∧ (capRun []).runs 0 1 [2] ∧ (capRun []).runs 0 1 [1, 2] ∧ ((capRun []).th 0).bind.prv = false ∧
    ((capRun []).th 0).infl = [] ∧ ((capRun []).th 0).depth < 16 := by
  (repeat' apply And.intro) <;> first | decide +kernel | exact Or.inr (by decide +kernel)

/-- Descriptor 0 names a strand for checkpoints. -/
def ckpt0 : State :=
  { run0 [(1, 0x900100)] with mem := [(0x900100, .good 5)], bz := { caps := [(0, { Capsule.empty with live := [(16, 0x800005)] })], check := none } }
def sevC : State := { capRun [] with bz := { caps := [(1, { Capsule.empty with live := [(0, 0x600000), (9, 0x000080)] })], check := none } }

theorem wit_signal : (capRun []).runs 0 1 [] ∧ sevC.runs 0 1 [] ∧ (sevC.desc 1 9).getLsbD (31 - 24) = true ∧
    ((capRun []).desc 1 8).getLsbD 0 = false ∧ (run0 []).fl (Reg.EVI_HOLD 0) Reg.EVI_HOLD_HOLD = 0 ∧
    (run0 []).fl (Reg.EVI_SsCOAL 0 2) Reg.EVI_SsCOAL_CCNT ≤ 1 := by
  (repeat' apply And.intro) <;> first | decide +kernel | exact Or.inr (by decide +kernel)

theorem wit_ckpt : ckpt0.runs 0 1 [1] ∧ (ckpt0.th 0).bind.prv = true ∧ (0#10).toNat < 64 ∧ (ckpt0.en 0).stag.items = [] ∧
    (ckpt0.desc 0 16).getLsbD 23 = true ∧ ownLocal 0 (greg ckpt0 1).toNat = true ∧ ckpt0.cell (greg ckpt0 1).toNat = .good 5 := by
  (repeat' apply And.intro) <;> first | decide +kernel | exact Or.inr (by decide +kernel)

/-- A delay slot to be replayed without a link, source 10 pending for T0 at priority 3, and a thread with levels `ls`. -/
def slot1 : State := one (kth { cx 0x900011 [] with slot := some { xferAt := 0x900010, long := true, target := some 0x900020, link := none } })
def pend10 : State := (((run0 []).wr (Reg.EVI_SsCFG 0 10) 0x003000).wr (Reg.EVI_PENDk 0 0) 0x000400).wr (Reg.EVI_MASKk 0 0) 0
def lvl (xst : Word) (intr : Bool) : Level :=
  { xpc := 0x900100, xst := xst, xtgt := 0x900200, xcause := 0, xaddr := 0, intr := intr, src := 10, prio := 3, scan := false, claimed := false, live := intr }
def nested (xst : Word) (intr : Bool) : State := one { kth (cx 0x900000 []) with levels := [lvl xst intr] }

theorem wit_entries : (run0 []).isReady 0 = true ∧ slot1.isReady 0 = true ∧ (slot1.th 0).infl = [] ∧ (slot1.th 0).depth < 16 ∧
    (slot1.th 0).ctx.slot.map (·.link) = some none ∧ ((run0 []).th 0).ctx.slot = none := by decide +kernel

theorem wit_interrupt : pend10.entering = false ∧
    (pend10.th 0).mode = .run ∧ (pend10.th 0).postEoi = 0 ∧ (pend10.th 0).depth ≤ 14 ∧
    getF (pend10.rd (Reg.EVI_SsCFG 0 10)) Reg.EVI_SsCFG_KIND = 0 ∧ getF (pend10.rd (Reg.EVI_SsCFG 0 10)) Reg.EVI_SsCFG_THR = 0 ∧
    pend10.pendB 0 10 = true ∧ pend10.maskB 0 10 = false ∧ pend10.actB 0 10 = false ∧ 0 < getF (pend10.rd (Reg.EVI_SsCFG 0 10)) Reg.EVI_SsCFG_PRIO ∧
    pend10.baseOf 0 ≤ getF (pend10.rd (Reg.EVI_SsCFG 0 10)) Reg.EVI_SsCFG_PRIO ∧ (∀ m, m < 64 → m ≠ 10 → pend10.pendB 0 m = false) := by
  decide +kernel

/-- T0 is about to swap: the out-area at 0xA00100, the in-area at 0xA00000, whose words are 0 but for the binding of capsule 1. -/
def swapW (i : Nat) : Word := if i = 43 then 1 else 0
def swapOk : State :=
  { one { kth (cx 0x900000 [(1, 0xA00100), (2, 0xA00000), (3, 0xA00101)]) with levels := [lvl 0x800000 false] } with
    mem := (List.range 144).map (fun i => (0xA00000 + i, .good (swapW i))) }

theorem wit_retx : (nested 0x800000 true).runs 0 1 [] ∧ ((nested 0x800000 true).th 0).levels = [lvl 0x800000 true] ∧
    (nested 0x002005 true).runs 0 1 [] ∧ (0x800000#24).getLsbD 23 = true ∧ getBits (0x800000#24) 22 13 = 0 ∧ (0x002005#24).getLsbD 23 = false ∧
    getBits (0x002005#24) 22 13 = 1 ∧ ((nested 0x800000 true).th 0).al = 0 ∧ (∀ m, m < 64 → (nested 0x800000 true).pendB 0 m = false) ∧
    (run0 []).runs 0 1 [] ∧ ((run0 []).th 0).levels = [] := by
  (repeat' apply And.intro) <;> first | decide +kernel | exact Or.inr (by decide +kernel)

theorem wit_cswap : swapOk.runs 0 1 [1, 2] ∧ swapOk.runs 0 1 [1, 3] ∧ (swapOk.th 0).bind.prv = true ∧ (swapOk.th 0).levels.length = 1 ∧
    (greg swapOk 3).toNat % 2 = 1 ∧ (greg swapOk 2).toNat + 144 ≤ (greg swapOk 1).toNat ∧ (swapOk.en 0).lb.owner = none ∧
    (∀ m, m < 64 → swapOk.pendB 0 m = false) ∧
    (∀ i, i < 144 → sramRegion (0xA00100 + i) = true ∧ sramRegion (0xA00000 + i) = true ∧ swapOk.closed (0xA00100 + i) = false ∧
      swapOk.closed (0xA00000 + i) = false ∧ swapOk.cell (0xA00000 + i) = .good (swapW i)) ∧
    swapW 24 = 0 ∧ swapW 25 = 0 ∧ getBits (swapW 43) 9 0 = 1 ∧ (swapW 43).getLsbD 23 = false ∧ (swapW 39).getLsbD 0 = false := by
  (repeat' apply And.intro) <;> first | decide +kernel | exact Or.inr (by decide +kernel)

theorem wit_illegal : (run0 []).runs 0 1 [1] ∧ (run0 []).runs 0 1 [1, 2] ∧ (run0 []).runs 0 1 [2] ∧ (run0 []).runs 0 2 [1] ∧ (run0 []).runs 0 1 [] ∧
    (run0 []).runs 0 2 [] ∧ (run0 []).runs 0 1 [3, 4] ∧ (run0 []).passes 0 0x900001 ∧ (run0 []).passes 0 0x900002 ∧ 24 ≤ (24#5).toNat ∧
    24 ≤ (1#5).toNat + (23#5).toNat ∧ (0x4F#7).toInt < -48 ∧ 48 < (0x31#7).toInt ∧ (0x67#7).toInt < -24 ∧ 24 < (0x19#7).toInt ∧
    1 < (2 : Fin 16).val := by
  (repeat' apply And.intro) <;> first | decide +kernel | exact Or.inr (by decide +kernel)

/-! ### Witnesses: events, strands, memory, capsules -/

/-- Register fields of `s` set. -/
def sets (s : State) (l : List (Nat × Fld × Nat)) : State := l.foldl (fun s x => s.sf x.1 x.2.1 x.2.2) s

/-- Sources of engine 0: 10 counts to 3 and holds one event, or has reached its time limit. -/
def coal0 (k : Nat) : State :=
  { sets (run0 []) [(Reg.EVI_SsCOAL 0 10, Reg.EVI_SsCOAL_CCNT, 3), (Reg.EVI_SsCOAL 0 10, Reg.EVI_SsCOAL_CTIME, 2)] with
    time := { TimeSt.init with locked := true, dt := 2000 },
    eng := if k = 0 then [] else [(0, { Engine.init with srcs := [(10, { Src.idle with isOpen := true, k := k })] })] }
def held0 : State := sets (run0 []) [(Reg.EVI_HOLD 0, Reg.EVI_HOLD_HOLD, 1)]
def wake0 (m : Mode) : State :=
  sets (one { kth (cx 0x900000 []) with mode := m }) [(Reg.EVI_SsCFG 0 63, Reg.EVI_SsCFG_KIND, 1), (Reg.EVI_PENDk 0 2, bitF 15, 1),
    (Reg.EVI_MASKk 0 2, Reg.EVI_MASKk_MASK, 0)]

theorem wit_evi : (run0 []).fl (Reg.EVI_HOLD 0) Reg.EVI_HOLD_HOLD = 0 ∧ ((run0 []).src 0 63).isOpen = false ∧
    (run0 []).fl (Reg.EVI_SsCOAL 0 63) Reg.EVI_SsCOAL_CCNT ≤ 1 ∧ ((coal0 0).src 0 10).isOpen = false ∧ ((coal0 1).src 0 10).isOpen = true ∧
    1 < (coal0 0).fl (Reg.EVI_SsCOAL 0 10) Reg.EVI_SsCOAL_CCNT ∧
    ((coal0 1).src 0 10).k + 1 < (coal0 1).fl (Reg.EVI_SsCOAL 0 10) Reg.EVI_SsCOAL_CCNT ∧
    (coal0 1).fl (Reg.EVI_SsCOAL 0 10) Reg.EVI_SsCOAL_CTIME * 1000 ≤ ((coal0 1).time.dt - ((coal0 1).src 0 10).t0).toNat ∧
    (coal0 1).time.locked = true ∧ (coal0 1).pwr.state = 0 ∧ held0.fl (Reg.EVI_HOLD 0) Reg.EVI_HOLD_HOLD = 1 ∧
    held0.fl (Reg.EVI_SsCOAL 0 7) Reg.EVI_SsCOAL_CCNT ≤ 1 := by decide +kernel

theorem wit_evi_wake : (wake0 .event).entering = false ∧ (wake0 .run).entering = false ∧
    getF ((wake0 .event).rd (Reg.EVI_SsCFG 0 63)) Reg.EVI_SsCFG_KIND = 1 ∧ (wake0 .event).pendB 0 63 = true ∧
    (wake0 .event).maskB 0 63 = false ∧ ((wake0 .event).th 0).mode = .event ∧ ((wake0 .event).th 0).bind.prv = true ∧
    ((wake0 .event).th 0).levels = [] ∧ ((wake0 .run).th 0).mode = .run ∧ (wake0 .run).pendB 0 63 = true ∧
    getF ((wake0 .event).rd (Reg.EVI_SsCFG 0 63)) Reg.EVI_SsCFG_THR = 0 := by decide +kernel

/-- T0 has an interrupt level of source 10 whose bit is pending; one that has claimed it. -/
def claim0 (c : Bool) : State :=
  (one { kth (cx 0x900000 []) with levels := [{ lvl 0x800000 true with claimed := c }] }).sf (Reg.EVI_PENDk 0 0) (bitF 10) 1

theorem wit_claim : ((claim0 false).th 0).levels = [lvl 0x800000 true] ∧ (lvl 0x800000 true).live = true ∧ (lvl 0x800000 true).intr = true ∧
    (lvl 0x800000 true).scan = false ∧ (lvl 0x800000 true).claimed = false ∧ (claim0 false).pendB 0 10 = true ∧
    ((run0 []).th 0).levels = [] ∧ ((claim0 true).th 0).levels.map (·.claimed) = [true] := by decide +kernel

theorem wit_eoi : ((claim0 true).th 0).levels.find? (fun l => l.live) = some { lvl 0x800000 true with claimed := true } ∧
    getF (10#24) Reg.EVI_EOI_SRC = 10 ∧ getF (11#24) Reg.EVI_EOI_SRC ≠ 10 ∧ (claim0 true).fl (Reg.EVI_SsCOAL 0 1) Reg.EVI_SsCOAL_CCNT ≤ 1 ∧
    (claim0 true).fl (Reg.EVI_HOLD 0) Reg.EVI_HOLD_HOLD = 0 ∧ 4 / 4 ≠ (0 : Fin 128).val := by decide +kernel

/-- Events on their way, a route, threads to be enabled, disabled and stopped, and words to be fetched. -/
def routed : State :=
  { sets (run0 []) [(Reg.EVI_SsCFG 0 8, Reg.EVI_SsCFG_RTE, 1), (Reg.EVI_SsCFG 0 8, Reg.EVI_SsCFG_ROUTE, 976)] with
    ev := { crossing := [0x080], router := [976] } }
def stop0 : State := one { kth (cx 0x900000 []) with mode := .stopping }
def fetch0 : State := { run0 [] with mem := [(0x900000, .good 1), (0x900001, .good 2)] }

theorem wit_threads : routed.canon ∧ 0x080 ∈ routed.ev.crossing ∧ 976 ∈ routed.ev.router ∧
    getF (routed.rd (Reg.EVI_SsCFG 0 8)) Reg.EVI_SsCFG_RTE = 1 ∧ getF (routed.rd (Reg.EVI_SsCFG 0 8)) Reg.EVI_SsCFG_ROUTE = 976 ∧
    routed.fl (Reg.EVI_SsCOAL 0 8) Reg.EVI_SsCOAL_CCNT ≤ 1 ∧ routed.fl (Reg.EVI_HOLD 0) Reg.EVI_HOLD_HOLD = 0 ∧
    routed.quarantined 0 = false ∧ (run0 []).fb (Reg.ENG_TCTL 127) (bitF 3) = false ∧ ((run0 []).th 511).mode = .off ∧
    (run0 []).fb (Reg.ENG_TCTL 0) (bitF 0) = true ∧ ((run0 []).th 0).mode = .run ∧ (stop0.th 0).mode = .stopping ∧ (stop0.en 0).spine = [] ∧
    (stop0.th 0).restart = false ∧ fetch0.isReady 0 = true ∧ (fetch0.th 0).fbuf = [] ∧ ownLocal 0 0x900000 = true ∧
    fetch0.cell 0x900000 = .good 1 ∧ fetch0.cell 0x900001 = .good 2 := by
  (repeat' apply And.intro) <;> decide +kernel

/-- Strand 5 of mode `cfg` holding `n` items, the first at the head. -/
def str5 (cfg : Word) (n : Nat) (head : Bool) : State :=
  { (run0 []).wr (Reg.STR_sCFG 5) cfg with
    str := [(5, { Strand.empty with items := List.replicate n { w := 7, e := 0, h := false }, atHead := head })] }

theorem wit_strands : (str5 0x800000 3 true).entering = false ∧ (str5 0x800000 16 true).entering = false ∧ (str5 0 3 true).entering = false ∧
    (∀ c, c < 8 → (str5 0x800000 3 true).watches 5 c = []) ∧ ((str5 0x800000 3 true).th 0).bind.prv = true ∧
    (str5 0x800000 3 true).fl (Reg.STR_sCFG 5) Reg.STR_sCFG_FMT = 0 ∧ (str5 0x800000 3 true).fl (Reg.STR_sCFG 5) Reg.STR_sCFG_EN = 1 ∧
    (str5 0x800000 3 true).fl (Reg.STR_sCFG 5) Reg.STR_sCFG_SRC = 0 ∧ (str5 0x800000 3 true).fl (Reg.STR_sCFG 5) Reg.STR_sCFG_DST = 0 ∧
    ((str5 0x800000 3 true).strand 5).items.length < 16 ∧ 16 ≤ ((str5 0x800000 16 true).strand 5).items.length ∧
    (str5 0x800000 16 true).fl (Reg.STR_sCFG 5) Reg.STR_sCFG_FULLPOL = 0 ∧ (str5 0 3 true).fl (Reg.STR_sCFG 5) Reg.STR_sCFG_EN = 0 ∧
    ((str5 0x800000 3 true).strand 5).atHead = true ∧ ((str5 0x800000 3 false).strand 5).atHead = false ∧
    (str5 0x800000 3 false).strExp 5 = 0 ∧ ((str5 0x800000 3 false).strand 5).discard = false ∧ (0x00F000#24).getLsbD 16 = false ∧
    (0x00F000#24).getLsbD 23 = false ∧ (str5 0x800000 3 true).landOf 5 = none := by
  (repeat' apply And.intro) <;> decide +kernel

/-- Bridge queue 1 feeds strand 5; strand 5 with an item of another epoch; with stage 0 locked. -/
def bqs5 : State :=
  { sets ((run0 []).wr (Reg.STR_sCFG 5) 0x900000) [(Reg.STR_BQqCFG 1, Reg.STR_BQqCFG_EN, 1), (Reg.STR_BQqCFG 1, Reg.STR_BQqCFG_STRAND, 5)] with
    bq := [(1, [{ w := 9, ev := none }])], time := { TimeSt.init with locked := true } }
def old5 : State := { run0 [] with str := [(5, { Strand.empty with items := [{ w := 7, e := 3, h := false }] })] }
def lock5 : State := { (run0 []).wr (Reg.STR_sCFG 5) 0x800000 with str := [(5, { Strand.empty with lock := some (.thread 0, 2) })] }

theorem wit_strands_more : bqs5.bqGet 1 = [{ w := 9, ev := none }] ∧ bqs5.fl (Reg.STR_BQqCFG 1) Reg.STR_BQqCFG_EN = 1 ∧
    bqs5.fl (Reg.STR_BQqCFG 1) Reg.STR_BQqCFG_STRAND = 5 ∧ bqs5.fl (Reg.STR_sCFG 5) Reg.STR_sCFG_SRC = 1 ∧
    (old5.strand 5).items.map (·.e) = [3] ∧ old5.strExp 5 = 0 ∧ (lock5.strand 5).lock = some (.thread 0, 2) ∧
    (lock5.strand 5).waiting = [] := by decide +kernel

/-- The staging buffer of engine 0 drains into strand 5; landing unit 2 takes strand 5. -/
def drain5 : State :=
  { (run0 []).wr (Reg.STR_sCFG 5) 0xE80000 with
    eng := [(0, { Engine.init with stag := { items := [0x300082, 11, 12], strand := 5, thread := 0, epoch := 0 } })] }
def land5 (h : Bool) (f : Option Landing) : State :=
  { sets ((run0 []).wr (Reg.STR_sCFG 5) 0xE80000) [(Reg.STR_CKuCTL 2, Reg.STR_CKuCTL_EN, 1), (Reg.STR_CKuCTL 2, Reg.STR_CKuCTL_STRAND, 5),
      (Reg.STR_CKuA0 2, fullF, 0xA00000), (Reg.STR_CKuA1 2, fullF, 0xA00040)] with
    str := [(5, { Strand.empty with items := [{ w := 0x300082, e := 0, h := h }], atHead := true, remain := if h then 0 else 2 })],
    land := match f with | none => [] | some x => [(2, some x)] }
def fill0 (n : Nat) : Landing := { bank := 1, len := 2, seq := 1, taken := n }

theorem wit_landing : (land5 true none).entering = false ∧
    (drain5.en 0).stag.items = [0x300082, 11, 12] ∧ drain5.fl (Reg.STR_sCFG 5) Reg.STR_sCFG_SRC = 2 ∧
    drain5.fl (Reg.STR_sCFG 5) Reg.STR_sCFG_FMT = 1 ∧ drain5.fl (Reg.STR_sCFG 5) Reg.STR_sCFG_DST = 2 ∧ (drain5.strand 5).lock = none ∧
    hdrOk 0x300082 = true ∧ hdrLen 0x300082 ≠ 0 ∧ (land5 true none).landStrand 2 = some 5 ∧
    ((land5 true none).strand 5).items = [{ w := 0x300082, e := 0, h := true }] ∧ ((land5 true none).strand 5).atHead = true ∧
    sramRegion ((land5 true none).landBase 2 1) = true ∧ sramRegion ((land5 true none).landBase 2 1 + 63) = true ∧
    (land5 false (some (fill0 1))).landStrand 2 = some 5 ∧ SMap.get none (land5 false (some (fill0 1))).land 2 = some (fill0 1) ∧
    (land5 false (some (fill0 1))).closed 0xA00041 = false ∧ SMap.get none (land5 false (some (fill0 2))).land 2 = some (fill0 2) ∧
    (fill0 2).len ≤ (fill0 2).taken ∧ (fill0 2).bank ≤ 1 := by
  (repeat' apply And.intro) <;> decide +kernel

/-- The scrubber is at a word with one flipped bit; the MRAM write buffer holds a word. -/
def scrub0 : State :=
  { sets (run0 []) [(Reg.MEMC_CTL, Reg.MEMC_CTL_SCRUB, 1)] with mem := [(0, .corr 5 3)], time := { TimeSt.init with locked := true } }
def mram0 : State := { run0 [] with memc := { State.reset.memc with wbuf := [{ addr := 0x400000, val := 7, marked := false }] } }
/-- Capsule 1 with a two-level table, and the reservation of capsule 1. -/
def walk0 : State :=
  { one (cth (cx 0 [])) with bz := { caps := [(1, { Capsule.empty with live := [(0, 0x600000), (1, 0xA00000), (2, 5)] })], check := none }
                             mem := [(0xA00000, .good 0xA00081), (0xA00080, .good 0x90003E)] }
def resv0 (adm : Bool) : State :=
  { sets (run0 []) [(Reg.MEMC_RSEL, Reg.MEMC_RSEL_CID, 1), (Reg.MEMC_RSUM, Reg.MEMC_RSUM_SUM, if adm then 100 else 0)] with
    memc := { State.reset.memc with resv := if adm then [(1, { rate := 100, cls := 2, adm := true, dem := false, tokens := 40 })] else [] },
    time := { TimeSt.init with locked := true } }

theorem wit_memc : (run0 []).entering = false ∧ mram0.entering = false ∧ (resv0 true).entering = false ∧ (resv0 false).entering = false ∧
    scrub0.time.locked = true ∧ scrub0.fl Reg.MEMC_CTL Reg.MEMC_CTL_SCRUB = 1 ∧ scrub0.cell (scrubAddr 0) = .corr 5 3 ∧
    region (scrubAddr 0) ≠ .mram ∧ scrub0.closed (scrubAddr 0) = false ∧ scrub0.pwr.state = 0 ∧ (run0 []).time.locked = false ∧
    mram0.memc.wbuf.map (·.marked) = [false] ∧ region 0x400000 = .mram ∧ (run0 []).memc.wbuf = [] ∧
    (walk0.th 0).bind.prv = false ∧ (walk0.en 0).tcLookup 1 0 = none ∧ sramRegion ((walk0.desc 1 1).toNat + 0) = true ∧
    walk0.cell 0xA00000 = .good 0xA00081 ∧ getBits (0xA00081#24) 1 0 = 1 ∧ getBits (0xA00081#24) 6 2 = 0 ∧
    walk0.cell 0xA00080 = .good 0x90003E ∧ getBits (0x90003E#24) 1 0 = 2 ∧ getBits (0x90003E#24) 9 6 = 0 ∧
    getBits (0x90003E#24) 5 2 &&& AccKind.xchg.need = AccKind.xchg.need ∧ (resv0 true).fl Reg.MEMC_RSEL Reg.MEMC_RSEL_CID = 1 ∧
    100 - 100 + 2400 ≤ admLimit ((resv0 true).planLevel 8) ∧ admLimit ((resv0 false).planLevel 8) < 0 - 0 + 0x3FFF ∧
    (resv0 true).time.locked = true := by
  (repeat' apply And.intro) <;> decide +kernel

/-- Capsule 1 in lifecycle state `st`, with a staged descriptor; its check in progress; the keeper generations armed. -/
def life (st : Nat) : State :=
  { run0 [] with bz := { caps := [(1, { Capsule.empty with live := [(0, w24 (st * 0x200000)), (3, 2)], stag := [(1, 0xA00000)] })], check := none } }
def checking : State :=
  { life 1 with bz := { (life 1).bz with check := some { cid := 1, kmode := false, addr := 0xA00000 } } }
def armed : State :=
  { sets (run0 []) [(Reg.BZ_KGEN, Reg.BZ_KGEN_ARMED, 1)] with thr := [(0, { kth (cx 0x900000 []) with startKg := true })] }

theorem wit_lifecycle : (life 0).entering = false ∧ (life 2).entering = false ∧ (life 3).entering = false ∧ (life 4).entering = false ∧ armed.entering = false ∧
    (life 0).fl Reg.BZ_CSTAT Reg.BZ_CSTAT_BUSY = 0 ∧ (life 0).capState 1 = 0 ∧ (life 2).capState 1 = 2 ∧ (life 3).capState 1 = 3 ∧
    (life 4).capState 1 = 4 ∧ (life 5).capState 1 = 5 ∧ (life 0).bz.check = none ∧ checking.bz.check = some { cid := 1, kmode := false, addr := 0xA00000 } ∧
    sramRegion (SMap.get 0 ((life 2).cap 1).stag 1).toNat = true ∧ getBits (SMap.get 0 ((life 2).cap 1).stag 1) 6 0 = 0 ∧
    SMap.get 0 ((life 2).cap 1).stag 2 = 0 ∧ SMap.get 0 ((life 2).cap 1).stag 4 = 0 ∧
    (∀ i, i < 32 → 10 ≤ i → (SMap.get 0 ((life 2).cap 1).stag i).getLsbD 23 = false) ∧ (life 5).boundThreads 1 = 0 ∧
    armed.fl Reg.BZ_KGEN Reg.BZ_KGEN_ARMED = 1 ∧ armed.fb (Reg.ENG_TCTL 0) (bitF 0) = true ∧ (armed.th 0).startPrv = true ∧
    b2n (armed.th 0).startKg ≠ armed.fl Reg.BZ_KGEN Reg.BZ_KGEN_CUR := by
  (repeat' apply And.intro) <;> decide +kernel

/-- T0 runs as capsule 1 whose budget is set, REM `rem`; `w0` is descriptor word 0. -/
def budget0 (w0 : Word) (rem al : Nat) : State :=
  { one { cth (cx 0 []) with al := al } with
    bz := { caps := [(1, { Capsule.empty with live := [(0, w0), (2, 1000), (3, 10), (5, 4)], rem := rem })], check := none }
    time := { TimeSt.init with locked := true } }
def probe0 : State :=
  { sets (run0 []) [(Reg.BZ_PRCID, Reg.BZ_PRCID_CID, 1)] with
    bz := { caps := [(1, { Capsule.empty with live := [(0, 0x600000), (1, 0xA00000)] })], check := none }
    mem := [(0xA00000, .good 0x90003E)] }

theorem wit_budget : probe0.entering = false ∧ (run0 []).entering = false ∧
    ((budget0 0x600000 5000 64).th 0).al ≤ 64 ∧ ((budget0 0x600000 5000 64).th 0).bind.prv = false ∧
    getBits ((budget0 0x600000 0 0).desc 1 2) 19 0 ≠ 0 ∧ (budget0 0x600000 0 0).capState 1 = 3 ∧ ((budget0 0x600000 0 0).cap 1).rem = 0 ∧
    ((budget0 0x600000 0 0).th 0).al = 0 ∧ (budget0 0x600000 0 0).shedFloor ≤ getBits ((budget0 0x600000 0 0).desc 1 0) 10 8 ∧
    ((budget0 0x600000 0 0).desc 1 0).getLsbD 11 = false ∧ ((budget0 0x600800 0 0).desc 1 0).getLsbD 11 = true ∧
    ((budget0 0x600800 0 0).cap 1).heldEv = false ∧ (budget0 0x600800 0 0).holdOf 0 = 3 ∧
    getBits ((budget0 0x600800 0 0).desc 1 5) 15 0 ≠ 0 ∧ (budget0 0x600800 0 0).time.locked = true ∧
    probe0.fl Reg.BZ_PRCID Reg.BZ_PRCID_CID = 1 ∧ probe0.capState 1 = 3 ∧ probe0.cell ((probe0.desc 1 1).toNat + 0) = .good 0x90003E ∧
    getBits (0x90003E#24) 1 0 = 2 ∧ getBits (0x90003E#24) 16 6 = 0 ∧ getBits (0x90003E#24) 23 17 ≠ 0x40 ∧
    (run0 []).fl Reg.BZ_PRCID Reg.BZ_PRCID_CID = 0 := by
  (repeat' apply And.intro) <;> decide +kernel

/-! ### Witnesses: the conditions that other accesses, turns and boundaries add -/

theorem wit_port_free : mem0.portFree 0 [0x900100] ∧ mem0.portFree 0 [0x900100, 0x900101] ∧ cap0.portFree 0 [0x900100] ∧ (mem0.th 0).ctx.pend = [] ∧ (cap0.th 0).ctx.pend = [] := by
  simp only [State.portFree]
  decide +kernel

theorem wit_spine_turn : stored0.bankTurn 0 (acc0 .store) = true ∧ loaded0.bankTurn 0 (acc0 .load) = true ∧ (loaded0.th 0).stepping = false ∧
    (loaded0.th 0).replay = [] ∧ (loaded0.en 0).spine = [acc0 .load] ∧ (locked0 (.time 100)).resting 0 = false := by
  decide +kernel

theorem wit_entries_raise : raises .align 0x900101 = true ∧ raises .illegal 0xFFFFFF = true ∧ raises .parity 27 = true ∧ ((run0 []).th 0).haltReq = 0 ∧
    ((run0 []).th 0).stepping = false ∧ slot1.isReady 0 = true ∧ (slot1.th 0).haltReq = 0 ∧ (slot1.th 0).stepping = false ∧
    (slot1.th 0).ctx.slot.map (·.target) = some (some 0x900020) ∧ pend10.resting 0 = false ∧ (pend10.th 0).ctx.slot = none ∧ (pend10.th 0).infl = [] ∧
    (pend10.th 0).halt = 0 ∧ (pend10.th 0).haltReq = 0 ∧ (pend10.th 0).stepping = false ∧ (pend10.th 0).rom = false ∧ (pend10.th 0).levels = [] := by
  decide +kernel

theorem wit_return_more : ((nested 0x800000 true).th 0).replay = [] ∧ ((nested 0x800000 true).th 0).ctx.loops = [] ∧ ((nested 0x800000 true).th 0).infl = [] ∧
    (swapOk.en 0).spine = [] ∧ (swapOk.th 0).infl = [] ∧ (swapOk.th 0).replay = [] ∧ (swapOk.th 0).al = 0 ∧ (swapOk.th 0).ctx.loops = [] ∧
    (swapOk.th 0).levels = [lvl 0x800000 false] ∧ (swapOk.th 0).depth < 16 := by
  decide +kernel

theorem wit_threads_more : fetch0.lbWord 0 0x900000 = none ∧ fetch0.lbWord 0 0x900001 = none := by
  decide +kernel

/-- T0 runs as capsule 1, whose descriptor gives it no strand window. -/
def noWin : State := oneC (cth (cx 0x900000 []))

theorem wit_strand_windows : noWin.isReady 0 = true ∧ (noWin.th 0).bind.prv = false ∧ (noWin.th 0).infl = [] ∧ (noWin.th 0).ctx.slot = none ∧
    (noWin.th 0).depth < 16 ∧ noWin.strandWin (noWin.th 0).bind.cid 5 22 = false ∧ noWin.strandWin (noWin.th 0).bind.cid 5 21 = false ∧
    noWin.resting 4 = false ∧ ((str5 0x800000 3 true).strand 5).mid = none ∧ ((str5 0x800000 3 true).strand 5).waiting = [] ∧
    (str5 0xA00000 16 true).fl (Reg.STR_sCFG 5) Reg.STR_sCFG_DST = 0 ∧ bqs5.islandRuns (bqIsland 1) = true ∧
    (str5 0x8C0000 3 false).fl (Reg.STR_sCFG 5) Reg.STR_sCFG_DST = 3 := by
  decide +kernel

theorem wit_landing_more : (drain5.strand 5).mid = none ∧ (drain5.strand 5).waiting = [] ∧ drain5.quarantined 0 = false ∧ (∀ c < 4, drain5.watches 5 c = []) ∧
    ((land5 true none).strand 5).waiting = [] ∧ (land5 true (some (fill0 2))).landStrand 2 = some 5 ∧ sramRegion ((land5 true (some (fill0 2))).landBase 2 0) = true ∧
    sramRegion ((land5 true (some (fill0 2))).landBase 2 0 + 63) = true ∧ (land5 true none).resting 4 = false := by
  decide +kernel

/-- Engine 0 has a best-effort request for global SRAM that has not begun; token and budget boundaries that are due; a held capsule whose
waiting counter has reached its WAITT. -/
def glob0 : State :=
  { run0 [] with eng := [(0, { Engine.init with spine := [{ acc0 .load with va := 0x001000, pa := 0x001000, pa2 := 0x001001 }] })] }
def dueTok : State := { resv0 true with memc := { (resv0 true).memc with due := true } }
def dueBud : State :=
  { budget0 0x600800 0 0 with
    bz := { caps := [(1, { Capsule.empty with live := [(0, 0x600800), (2, 1000), (3, 10), (5, 4)], used := 7, due := true, waitc := 4 })], check := none } }

theorem wit_memc_more : scrub0.bankHeld (scrubAddr 0) = false ∧ dueTok.memc.due = true ∧ (resv0 true).memc.due = false ∧ (glob0.en 0).spine.length = 1 ∧
    region 0x001000 = .glob ∧ (glob0.en 0).spine.map (·.ord) = [none] ∧ (glob0.en 0).spine.all (glob0.sent 0) = true := by
  decide +kernel

theorem wit_budget_more : (dueBud.cap 1).due = true ∧ ((budget0 0x600000 0 0).cap 1).due = false ∧ dueBud.holdOf 0 = 3 ∧ getBits (dueBud.desc 1 5) 15 0 ≤ (dueBud.cap 1).waitc ∧
    (budget0 0x600000 0 0).fl (Reg.EVI_SsCOAL 0 4) Reg.EVI_SsCOAL_CCNT ≤ 1 ∧ (budget0 0x600000 0 0).fl (Reg.EVI_HOLD 0) Reg.EVI_HOLD_HOLD = 0 ∧
    ((budget0 0x600000 0 0).th 0).stepping = false := by
  decide +kernel

/-! ### Witnesses: measurement -/

/-- The time base runs, device time is `dt`, and the registers of `l` hold the words given. -/
def runs (dt : Nat) (l : List (Nat × Word)) : State :=
  l.foldl (fun s p => s.wr p.1 p.2) { State.reset with time := { TimeSt.init with locked := true, dt := BitVec.ofNat 48 dt } }

/-- Precision channel 3 enabled, with the status word and configuration given. -/
def prec3 (cfg exc st lctl : Word) : State :=
  { runs 5000 [(Reg.PREC_CTL, 3), (Reg.PREC_CHnCFG 3, cfg), (Reg.PREC_CHnEXC 3, exc), (Reg.PREC_CHnSTAT 3, st), (Reg.PREC_CHnLCTL 3, lctl),
      (Reg.PREC_BEXCTL, 2)] with
    meas := { MeasSt.init with prec := [(3, { PrecSt.init with cfg := cfg, exc := exc, seq := 0x29 })] } }

theorem wit_prec_sample : (prec3 0x801000 0 0x040000 0).islandRuns 7 = true ∧
    (prec3 0x801000 0 0x040000 0).fl (Reg.PREC_CHnSTAT 3) Reg.PREC_CHnSTAT_RUN = 1 ∧
    getF ((prec3 0x801000 0 0x040000 0).prec 3).cfg Reg.PREC_CHnCFG_MODE ≠ 3 ∧
    ((prec3 0x801000 0 0x040000 0).bqGet 3).length + 4 ≤ 30 ∧ (prec3 0x801000 0 0x040000 0).fl (Reg.PREC_CHnCFG 3) Reg.PREC_CHnCFG_PKT = 0 ∧
    (prec3 0x801060 0 0x040000 0x800000).fl (Reg.PREC_CHnCFG 3) Reg.PREC_CHnCFG_PKT = 1 ∧
    (prec3 0x801060 0 0x040000 0x800000).fl (Reg.PREC_CHnLCTL 3) Reg.PREC_CHnLCTL_PEND = 1 := by
  (repeat' apply And.intro) <;> decide +kernel

theorem wit_prec_control : (0x801000#24 ^^^ 0x802000#24) &&& 0xFFFF80 ≠ 0 ∧ (0x801000#24 ^^^ 0x801020#24) &&& 0xFFFF80 = 0 ∧
    (0#24 ^^^ 1#24) &&& 0x3F ≠ 0 ∧ (prec3 0x801000 0 0 0).fl (Reg.PREC_CHnSTAT 3) Reg.PREC_CHnSTAT_RUN = 0 ∧
    (prec3 0x801000 0 0x020000 0).fl (Reg.PREC_CHnSTAT 3) Reg.PREC_CHnSTAT_WAIT = 1 ∧
    (prec3 0x801000 0 0x040000 0).fl (Reg.PREC_CHnLCTL 3) Reg.PREC_CHnLCTL_PEND = 0 ∧
    (prec3 0x801000 0 0x040000 0x400000).fl (Reg.PREC_CHnLCTL 3) Reg.PREC_CHnLCTL_ACT = 1 ∧
    (prec3 0x801000 0 0 0).fl Reg.PREC_CTL Reg.PREC_CTL_EN = 1 ∧ (prec3 0x801000 0 0 0).fl Reg.PREC_CTL Reg.PREC_CTL_CJEN = 1 ∧
    ((prec3 0x801000 0 0 0).prec 3).off = false ∧ ((prec3 0x801000 0 0 0).rd Reg.PREC_BEXCTL).getLsbD 1 = true ∧
    ((prec3 0x801000 0 0 0).rd Reg.PREC_BEXSTAT).getLsbD 5 = false ∧ -204800 ≤ (0x096000#24).toInt ∧ (0x096000#24).toInt ≤ 614400 ∧
    614400 < (0x096001#24).toInt := by
  (repeat' apply And.intro) <;> decide +kernel

/-- Bandgap states `st`, with the run of comparisons above 12 mV of bandgap 1. -/
def bg (st : Word) (n : Nat) : State :=
  { runs 0 [(Reg.REF_BGSTAT, st)] with meas := { MeasSt.init with bg12 := if n = 0 then [] else [(1, n)] } }

theorem wit_bandgaps : (bg 0 9).islandRuns 0 = true ∧ (∀ k < 3, getBits ((bg 0 9).rd Reg.REF_BGSTAT) (2 * k + 1) (2 * k) < 2) ∧
    (bg 0 9).fl Reg.REF_BGSTAT Reg.REF_BGSTAT_SEL < 3 ∧ 600 < (601#24).toInt.natAbs ∧ 9 ≤ SMap.get 0 (bg 0 9).meas.bg12 1 ∧
    getBits ((bg 4 0).rd Reg.REF_BGSTAT) 3 2 = 1 ∧ getBits (8#24) 3 2 = 2 ∧ getBits ((bg 8 0).rd Reg.REF_BGSTAT) 3 2 = 2 ∧
    getBits ((bg 0x100008 0).rd Reg.REF_BGSTAT) 3 2 = 2 ∧ getBits ((bg 0x100008 0).rd Reg.REF_BGCTL) 1 0 = 0 := by
  (repeat' apply And.intro) <;> decide +kernel

/-- Crossing converter 2 at level `l`, with status `st` and module state `x`. -/
def xing2 (cfg lvl st : Word) (x : XingSt) : State :=
  { runs 1000 [(Reg.XING_CTL, 1), (Reg.XING_CHnCFG 2, cfg), (Reg.XING_CHnSTEP 2, 0x00A064), (Reg.XING_CHnTMO 2, 50), (Reg.XING_CHnLVL 2, lvl),
      (Reg.XING_CHnSTAT 2, st)] with
    meas := { MeasSt.init with xing := [(2, x)] } }

theorem wit_xing : (xing2 0x800000 0x800005 0 XingSt.init).islandRuns 0 = true ∧
    (xing2 0x800000 0x800005 0 XingSt.init).fl Reg.XING_CTL Reg.XING_CTL_EN = 1 ∧
    (xing2 0x800000 0x800005 0 XingSt.init).fl (Reg.XING_CHnCFG 2) Reg.XING_CHnCFG_EN = 1 ∧
    (xing2 0x800000 0x800005 0 XingSt.init).fl (Reg.XING_CHnSTAT 2) Reg.XING_CHnSTAT_ACQ = 0 ∧
    (xing2 0x800000 0x800005 0 XingSt.init).fl (Reg.XING_CHnLVL 2) Reg.XING_CHnLVL_V = 1 ∧
    5 < (xing2 0x800000 0x800005 0 XingSt.init).fl (Reg.XING_CHnSTEP 2) Reg.XING_CHnSTEP_LMAX ∧
    ((xing2 0x800000 0x800005 0 { XingSt.init with held := true }).xing 2).held = true ∧
    (xing2 0x800000 0x800005 0x040000 XingSt.init).fl (Reg.XING_CHnSTAT 2) Reg.XING_CHnSTAT_ACQ = 1 ∧
    (xing2 0xA00000 0x800005 0 XingSt.init).fl (Reg.XING_CHnTMO 2) Reg.XING_CHnTMO_TMO ≠ 0 ∧
    (xing2 0xA00000 0x800005 0 XingSt.init).fl (Reg.XING_CHnCFG 2) Reg.XING_CHnCFG_HBEN = 1 ∧
    ((xing2 0x800000 0x800005 0 { XingSt.init with at? := some 990 }).xing 2).at? = some 990 := by
  (repeat' apply And.intro) <;> decide +kernel

/-- Sampler core 1 with configuration `cfg` and status `st`; bridge 0 counts. -/
def sar1 (cfg st : Word) (step : Nat) : State :=
  { runs 1000 [(Reg.SAR_CTL, 2), (Reg.SAR_KkCFG 1, cfg), (Reg.SAR_KkSTAT 1, st), (Reg.SAR_KkSTEPj 1 0, 0xA00000), (Reg.SAR_KkSTEPj 1 1, 0x300000),
      (Reg.SAR_INnGAIN 5, 0x400000), (Reg.BR_bTRGA 0, 0)] with
    meas := { MeasSt.init with core := [(1, { step := step, off := false, sus := false })], sar := [(5, { InSt.init with seq := 0xF })] },
    act := { ActSt.init with br := [(0, { BrSt.init with count := true })] } }

theorem wit_sar : (sar1 0x801010 0 0).islandRuns 6 = true ∧ ((sar1 0x801010 0 0).rd Reg.SAR_CTL).getLsbD 1 = true ∧
    (sar1 0x801010 0 0).fl (Reg.SAR_KkCFG 1) Reg.SAR_KkCFG_TSEL = 8 ∧ (sar1 0x801010 0 0).fl (Reg.SAR_KkSTAT 1) Reg.SAR_KkSTAT_BUSY = 0 ∧
    (sar1 0x801010 0x200000 0).fl (Reg.SAR_KkSTAT 1) Reg.SAR_KkSTAT_BUSY = 1 ∧
    (sar1 0x801010 0x200000 0).fl (Reg.SAR_KkSTEPj 1 0) Reg.SAR_KkSTEPj_IN = 2 ∧
    (sar1 0x801010 0x200000 1).fl (Reg.SAR_KkSTEPj 1 1) Reg.SAR_KkSTEPj_IN = 3 ∧
    (sar1 0x801010 0x200000 1).fl (Reg.SAR_KkCFG 1) Reg.SAR_KkCFG_NSTEP = 1 ∧
    (sar1 0x801010 0 0).fl (Reg.SAR_KkCFG 1) Reg.SAR_KkCFG_TMO ≠ 0 ∧ (sar1 0x001010 0 0).islandRuns 5 = true ∧
    ((sar1 0x001010 0 0).br 0).count = true ∧ (sar1 0x001010 0 0).fl (Reg.BR_bTRGA 0) Reg.BR_bTRGA_CYC < ((sar1 0x001010 0 0).br 0).per ∧
    (sar1 0x001010 0 0).fl (Reg.SAR_KkCFG 1) Reg.SAR_KkCFG_TSEL = 0 := by
  (repeat' apply And.intro) <;> decide +kernel

/-- Pulse input 4 with configuration `cfg` and module state `e`; conductivity probe 1. -/
def pulse4 (cfg : Word) (e : PulseSt) : State :=
  { runs 5000 [(Reg.PULSE_INnCFG 4, cfg), (Reg.PULSE_INnHYG 4, 10), (Reg.COND_PkCFG 1, 0x800000), (Reg.COND_PkGAIN 1, 0x400000)] with
    meas := { MeasSt.init with edge := [(4, e)] } }

theorem wit_pulse : (pulse4 0x940001 PulseSt.init).islandRuns 0 = true ∧
    (pulse4 0x940001 PulseSt.init).fl (Reg.PULSE_INnCFG 4) Reg.PULSE_INnCFG_EN = 1 ∧
    (pulse4 0x940001 PulseSt.init).fl (Reg.PULSE_INnCFG 4) Reg.PULSE_INnCFG_MODE = 1 ∧
    (pulse4 0xA40001 PulseSt.init).fl (Reg.PULSE_INnCFG 4) Reg.PULSE_INnCFG_MODE = 2 ∧
    (pulse4 0x940001 PulseSt.init).fl (Reg.PULSE_INnHYG 4) Reg.PULSE_INnHYG_TMO ≠ 0 ∧ ((pulse4 0x940001 PulseSt.init).pulse 4).off = false ∧
    ((pulse4 0x940001 PulseSt.init).fl (Reg.PULSE_INnCFG 4) Reg.PULSE_INnCFG_EDGE).testBit 0 = true ∧
    (pulse4 0x940001 PulseSt.init).fl (Reg.PULSE_INnCFG 4) Reg.PULSE_INnCFG_N ≤ (pulse4 0x940001 { PulseSt.init with edges := 1 } |>.edge 4).edges ∧
    (pulse4 0 PulseSt.init).islandRuns 7 = true ∧ (pulse4 0 PulseSt.init).fl (Reg.COND_PkCFG 1) Reg.COND_PkCFG_EN = 1 ∧
    ((pulse4 0 PulseSt.init).cond 1).off = false := by
  (repeat' apply And.intro) <;> decide +kernel

/-! ### Witnesses: actuation and time -/

/-- Bridge 1 counts, with the words `l` in registers. -/
def bridge1 (l : List (Nat × Word)) : State :=
  { runs 0 l with act := { ActSt.init with br := [(1, { BrSt.init with count := true, vals := [(0, some 5), (1, some 6), (2, some 7)] })] } }

theorem wit_bridges : (bridge1 []).islandRuns 5 = true ∧ ((bridge1 []).br 1).count = true ∧ ((bridge1 []).br 2).count = false ∧
    (bridge1 [(Reg.BR_bOC 1, 0x000001)]).fl (Reg.BR_bOC 1) Reg.BR_bOC_OCTH ≠ 0 ∧
    (bridge1 [(Reg.BR_bCFG 1, 0xC00001)]).fl (Reg.BR_bCFG 1) Reg.BR_bCFG_TRIPMODE = 1 ∧ ((bridge1 []).rd (Reg.BR_bSTAT 1)).getLsbD 18 = false ∧
    (bridge1 [(Reg.BR_CTL, 0x800002)]).fl Reg.BR_CTL Reg.BR_CTL_VGDEN = 1 ∧
    (bridge1 [(Reg.BR_CTL, 0x800002)]).fl Reg.BR_VGDSTAT Reg.BR_VGDSTAT_UVNOW = 0 ∧ (2#24).getLsbD 1 = true := by
  (repeat' apply And.intro) <;> decide +kernel

/-- Valve driver 6 in state `st`, queued; SSR output 3 in mode `m`, enabled; zero-cross input 1 enabled. -/
def drv (st m : Nat) : State :=
  { sets (runs 9000000 []) [(Reg.SOL_cSTAT 6, Reg.SOL_cSTAT_STATE, st), (Reg.SSR_CTL, Reg.SSR_CTL_EN, 8), (Reg.SSR_oCFG 3, Reg.SSR_oCFG_MODE, m),
      (Reg.SSR_oCFG 3, Reg.SSR_oCFG_ZSEL, 1), (Reg.SSR_ZCkCFG 1, Reg.SSR_ZCkCFG_EN, 1), (Reg.SSR_ZCkSTAT 1, Reg.SSR_ZCkSTAT_LOST, 0)] with
    act := { ActSt.init with
      sol := [(6, { SolSt.init with want := true, since := 2000000 })], solq := if st = 1 then [6] else [],
      ssr := [(3, { SsrSt.init with v := 0x400000, acc := 0x500000 })] } }

theorem wit_drivers : (drv 1 1).islandRuns 0 = true ∧ (drv 1 1).act.solq = [6] ∧ (drv 1 1).solPeaks < 4 ∧ (drv 2 1).solState 6 = 2 ∧
    ((drv 2 1).sol 6).checked = false ∧ (drv 1 1).fl (Reg.SSR_ZCkCFG 1) Reg.SSR_ZCkCFG_EN = 1 ∧
    (drv 1 1).fl (Reg.SSR_ZCkSTAT 1) Reg.SSR_ZCkSTAT_LOST = 0 ∧ (drv 1 1).ssrEn 3 = true ∧ (drv 1 1).fl (Reg.SSR_oCFG 3) Reg.SSR_oCFG_ZSEL = 1 ∧
    (drv 1 1).fl (Reg.SSR_oCFG 3) Reg.SSR_oCFG_MODE = 1 ∧ (drv 1 1).hbOff 31 = false ∧ (drv 1 1).ssrMode 3 ≠ 0 ∧ (drv 1 0).ssrMode 3 = 0 ∧
    7500 ≤ (7500#16).toNat ∧ (11100#16).toNat ≤ 11100 ∧ ¬ 7500 ≤ (7499#16).toNat := by
  (repeat' apply And.intro) <;> decide +kernel

/-- Output 0 with a valid envelope (−1000 … 1000, SAFE 10, energy budget 100, ELIM 50); `l` gives more registers. -/
def clasp0 (dt : Nat) (l : List (Nat × Word)) : State :=
  runs dt ([(Reg.CL_TABw 0, 0xC00005), (Reg.CL_TABw 1, 0xFFFC18), (Reg.CL_TABw 2, 0x0003E8), (Reg.CL_TABw 3, 100), (Reg.CL_TABw 4, 10),
    (Reg.CL_TABw 5, 100), (Reg.CL_TABw 7, 50)] ++ l)
def armed0 (l : List (Nat × Word)) : State := clasp0 2000 ((Reg.CL_ARM0, 1) :: l)
def granted0 : State :=
  let s := armed0 [(Reg.CL_TABw 0x808, 0x800000), (Reg.CL_TABw 0x80A, 0x0001F4), (Reg.STR_sCFG 5, 0x840000), (Reg.STR_sEP 5, 1), (Reg.CL_INi 2, 0x800005)]
  { s with act := { s.act with grants := [(1, 0, 2)] }, str := [(5, { Strand.empty with items := [{ w := 300, e := 0, h := false }], atHead := true })] }
def packet0 : State :=
  { armed0 [(Reg.STR_sCFG 5, 0xC40000), (Reg.CL_INi 2, 0x800005)] with
    str := [(5, { Strand.empty with items := [{ w := 0x400001, e := 0, h := true }], atHead := true })] }

theorem wit_clasp : (armed0 []).entering = false ∧ (clasp0 0 []).entering = false ∧
    (armed0 []).fl Reg.CL_BANK Reg.CL_BANK_PEND = 0 ∧ (armed0 []).armed 0 = true ∧ (clasp0 0 []).armed 0 = false ∧
    (clasp0 0 []).envV 0 = true ∧ (clasp0 0 []).envV 1 = false ∧ (armed0 []).forced 0 = false ∧ (armed0 []).shedO 0 = false ∧
    (armed0 []).heldO 0 = false ∧ (armed0 [(Reg.CL_RTRIP0, 1), (Reg.CL_TABw 0x403, 1)]).forced 0 = true ∧
    (armed0 [(Reg.CL_SHED, 2)]).shedO 0 = true ∧ (armed0 [(Reg.CL_HOLD, 1)]).heldO 0 = true ∧ (armed0 []).time.dt.toNat / 1000 % 10 ≠ 0 ∧
    (clasp0 10000 []).time.dt.toNat / 1000 % 10 = 0 ∧ (armed0 []).env 0 5 ≠ 0 ∧ (armed0 []).elimF 0 = false ∧
    getBits ((armed0 []).env 0 0) 15 0 ≠ 0 ∧ SMap.get false (armed0 []).act.wdx 0 = false ∧ (armed0 []).time.locked = true := by
  (repeat' apply And.intro) <;> decide +kernel

theorem wit_clasp_inlet : granted0.entering = false ∧ packet0.entering = false ∧
    granted0.inletOf 5 = some 2 ∧ granted0.grantOf 1 0 = some 2 ∧ (granted0.env 0 0).getLsbD 22 = true ∧
    (granted0.subEnv 2 0).getLsbD 23 = true ∧ granted0.fl (Reg.STR_sCFG 5) Reg.STR_sCFG_DST = 1 ∧
    granted0.fl (Reg.STR_sCFG 5) Reg.STR_sCFG_FMT = 0 ∧ (granted0.strand 5).atHead = true ∧ packet0.inletOf 5 = some 2 ∧
    packet0.fl (Reg.STR_sCFG 5) Reg.STR_sCFG_FMT = 1 ∧ getBits (0x400001#24) 22 20 = 4 ∧ getBits (0x400001#24) 13 7 = 0 ∧
    getBits (0x400001#24) 6 0 = 1 ∧ SMap.get none packet0.act.pk 2 = none := by
  (repeat' apply And.intro) <;> decide +kernel

def energy0 : State :=
  { armed0 [] with act := { ActSt.init with energy := [(0, { bins := [60, 40], rem := 0 })] } }
def rule0 (due : Bool) (rrun : Nat) (trip : Word) : State :=
  { armed0 [(Reg.CL_TABw 0x400, 0x800001), (Reg.CL_TABw 0x403, 1), (Reg.CL_RTRIP0, trip)] with
    act := { ActSt.init with rules := [(0, { RuleSt.init with due := due, rrun := rrun })] } }

theorem wit_clasp_guards : (armed0 [(Reg.CL_HOLD, 1)]).entering = false ∧ (armed0 [(Reg.CL_BANK, 0x800000)]).entering = false ∧
    (energy0.env 0 5).toNat ≤ energy0.eInt 0 ∧ ((rule0 true 0 0).rule 0).due = true ∧ (rule0 true 0 0).tripped 0 = false ∧
    (rule0 true 0 0).ruleOut 0 0 = true ∧ (rule0 false 1 1).tripped 0 = true ∧
    max 1 (getBits ((rule0 false 1 1).ruleW 0 0) 7 0) ≤ ((rule0 false 1 1).rule 0).rrun ∧ ((rule0 false 1 1).ruleW 0 0).getLsbD 22 = false ∧
    (armed0 [(Reg.CL_HOLD, 1)]).fb Reg.CL_HOLD (bitF 0) = true ∧ (armed0 []).envGrp 0 = 0 ∧
    (armed0 [(Reg.CL_BANK, 0x800000)]).fl Reg.CL_BANK Reg.CL_BANK_PEND = 1 ∧ tabMask (0x1007 % 0x1000) ≠ 0 ∧
    0x1007 / 0x1000 ≠ (armed0 []).fl Reg.CL_BANK Reg.CL_BANK_ACT ∧ (7 : Nat) / 0x1000 = (armed0 []).fl Reg.CL_BANK Reg.CL_BANK_ACT ∧
    (armed0 []).flt.hb = none ∧ outQueue 35 = 64 + 5 ∧ (armed0 []).fqFull 69 = false := by
  (repeat' apply And.intro) <;> decide +kernel

def heldVal : State := { State.reset with act := { ActSt.init with held := [(35, 7, false)] } }
def lost0 : State := { armed0 [] with flt := { FltSt.init with hb := some 1500 } }

theorem wit_clasp_held : heldVal.act.held = [(35, 7, false)] ∧ heldVal.fqFull 69 = false ∧ heldVal.islandRuns 0 = false ∧
    lost0.flt.hb = some 1500 ∧ lost0.armed 0 = true := by
  (repeat' apply And.intro) <;> decide +kernel

/-- The time base with status `st`, slew `rem`. -/
def tb (st rem : Word) : State := runs 77 [(Reg.REF_TBSTAT, st), (Reg.TIME_SLEWREM, rem), (Reg.CHN_TCTL, 0)]

theorem wit_timebase : State.reset.time.locked = false ∧ (tb 0 0).time.locked = true ∧
    (∀ i < 3, getBits ((tb 0 0).rd Reg.REF_TBSTAT) (2 * i + 1) (2 * i) < 3) ∧ rankOf ((tb 0 0).rd Reg.REF_TBCTL) = [0, 1, 2] ∧
    [1, 2].find? (fun i => decide (i ≠ 0) && decide (getBits ((tb 0 0).rd Reg.REF_TBSTAT) (2 * i + 1) (2 * i) ≤ 1)) = some 1 ∧
    getBits ((tb 0x000300 0).rd Reg.REF_TBSTAT) 9 8 = 3 ∧ getBits ((tb 1 0).rd Reg.REF_TBSTAT) 1 0 = 1 ∧
    (rankOf (tb 0 0).time.tbctl).find? (fun i => decide (i ≠ 0) && decide (getBits ((tb 0 0).rd Reg.REF_TBSTAT) (2 * i + 1) (2 * i) ≤ 1)) = some 1 ∧
    (rankOf (tb 0x3C 0).time.tbctl).find? (fun i => decide (i ≠ 0) && decide (getBits ((tb 0x3C 0).rd Reg.REF_TBSTAT) (2 * i + 1) (2 * i) ≤ 1)) = none ∧
    (tb 0 0).islandRuns 0 = true ∧ (tb 0 0).pwr.state < 2 ∧ (tb 0 5).follows = false ∧ (runs 77 []).follows = true ∧ 0 < ((tb 0 5).rd Reg.TIME_SLEWREM).toInt ∧
    ((tb 0 0xFFFFFE).rd Reg.TIME_SLEWREM).toInt < 0 := by
  (repeat' apply And.intro) <;> decide +kernel

/-- Timer channel 63 with configuration `cfg`, running or not. -/
def tc63 (cfg : Word) (run : Bool) : State :=
  let s := runs 77 [(Reg.TCn_CFG 63, cfg), (Reg.TCn_CMP 63, 100), (Reg.TCn_INT 63, 20)]
  { s with time := { s.time with tc := [(63, { TcSt.init with run := run })] } }

/-- A timed start of groups `g` is pending, its target passed. -/
def gst63 (g : Nat) : State :=
  let s := runs 77 [(Reg.TIME_GSATL, 50)]
  { s with time := { s.time with gpend := some g } }

theorem wit_timers : (tc63 0x800000 false).islandRuns 0 = true ∧ (tc63 0x800000 false).fl (Reg.TCn_CFG 63) Reg.TCn_CFG_EN = 1 ∧
    (tc63 0x800000 false).fl (Reg.TCn_CFG 63) Reg.TCn_CFG_STG = 0 ∧ ((tc63 0x800000 false).tc 63).run = false ∧
    ((tc63 0x840000 true).tc 63).run = true ∧ (tc63 0x840000 true).fl (Reg.TCn_CFG 63) Reg.TCn_CFG_ONE = 1 ∧
    (tc63 0x840000 true).frozen = false ∧ (tc63 0x816800 true).fl (Reg.TCn_CFG 63) Reg.TCn_CFG_CSEL = 20 ∧
    (tc63 0x816800 true).fl (Reg.TCn_CFG 63) Reg.TCn_CFG_CEDGE ≠ 0 ∧ (tc63 0x816A00 true).fl (Reg.TCn_CFG 63) Reg.TCn_CFG_CSEL = 21 ∧
    getF (0#24) Reg.TIME_GSTART_GRP = 0 ∧ getF (0x800001#24) Reg.TIME_GSTART_GRP ≠ 0 ∧ (0x800001#24).getLsbD 23 = true ∧
    (gst63 1).time.gpend = some 1 ∧ reached (gst63 1).time.dt (mkPair ((gst63 1).rd Reg.TIME_GSATL) ((gst63 1).rd Reg.TIME_GSATH)) = true := by
  (repeat' apply And.intro) <;> decide +kernel

/-- As `xing2`, its bridge queue enabled and full. -/
def xingFull : State :=
  { sets (xing2 0x800000 0x800005 0 { XingSt.init with rep := 4 }) [(Reg.STR_BQqCFG 30, Reg.STR_BQqCFG_EN, 1)] with
    bq := [(30, List.replicate 30 { w := 9, ev := none })] }

theorem wit_xing_more : ((xing2 0xA00000 0x800005 0 { XingSt.init with off := false }).xing 2).off = false ∧ xingFull.fl (Reg.STR_BQqCFG 30) Reg.STR_BQqCFG_EN = 1 ∧
    30 < (xingFull.bqGet 30).length + 1 ∧ xingFull.fl (Reg.XING_CHnLVL 2) Reg.XING_CHnLVL_LVL ≠ (xingFull.xing 2).rep ∧
    xingFull.islandRuns 0 = true ∧ xingFull.fl Reg.XING_CTL Reg.XING_CTL_EN = 1 := by
  decide +kernel

theorem wit_sar_more : (sar1 0x001010 0 0).islandRuns 6 = true ∧ ((sar1 0x801010 0 0).core 1).off = false ∧
    (sar1 0x001010 0 0).fl (Reg.SAR_KkCFG 1) Reg.SAR_KkCFG_TSEL = 2 * (0 : Fin 4).val + b2n false ∧
    (sar1 0x801010 0x200000 0).fl (Reg.SAR_KkSTEPj 1 0) Reg.SAR_KkSTEPj_PUSH = 1 ∧
    (sar1 0x801010 0x200000 0).fl (Reg.SAR_INnCFG 5) Reg.SAR_INnCFG_PKT = 0 ∧ ((sar1 0x801010 0x200000 0).bqGet 57).length < 30 := by
  decide +kernel

theorem wit_pulse_more : (pulse4 0x840001 PulseSt.init).fl (Reg.PULSE_INnCFG 4) Reg.PULSE_INnCFG_MODE = 0 ∧
    ((pulse4 0x940001 PulseSt.init).fl (Reg.PULSE_INnCFG 4) Reg.PULSE_INnCFG_EDGE).testBit 1 = false ∧
    (pulse4 0x940001 PulseSt.init).fl (Reg.PULSE_INnCFG 4) Reg.PULSE_INnCFG_PKT = 0 ∧ ((pulse4 0 PulseSt.init).cond 1).lim = false ∧
    (pulse4 0 PulseSt.init).fl (Reg.COND_PkCFG 1) Reg.COND_PkCFG_PKT = 0 := by
  decide +kernel

/-- Bridge 1 with an overcurrent threshold of 1 step. -/
def oc1 : State := bridge1 [(Reg.BR_bOC 1, 0x000001)]

theorem wit_bridges_more : oc1.overcurrent 1 2000000 = true ∧ oc1.overcurrent 1 0 = false ∧ oc1.islandRuns 5 = true ∧
    (bridge1 [(Reg.BR_bCFG 1, 0)]).fl (Reg.BR_bCFG 1) Reg.BR_bCFG_PEREV = 0 ∧ (bridge1 []).pwr.state < 2 := by
  decide +kernel

theorem wit_drivers_more : (drv 1 1).fl (Reg.SSR_ZCkCFG 1) Reg.SSR_ZCkCFG_ZOFS = 0 ∧ (drv 1 1).ssrZc 3 = 1 ∧ 2 ≤ (drv 2 1).solState 6 ∧
    (runs 0 []).fl (Reg.SSR_ZCkCFG 1) Reg.SSR_ZCkCFG_EN = 0 ∧ (runs 0 []).islandRuns 0 = true := by
  decide +kernel

theorem wit_clasp_more : granted0.inletTurn 2 = true ∧ packet0.inletTurn 2 = true ∧ (granted0.strand 5).waiting = [] ∧
    granted0.fl (Reg.STR_sCFG 5) Reg.STR_sCFG_EN = 1 ∧ packet0.fl (Reg.STR_sCFG 5) Reg.STR_sCFG_DST = 1 ∧
    (armed0 [(Reg.CL_HOLD, 1)]).fl (Reg.CL_HGRPj ((armed0 [(Reg.CL_HOLD, 1)]).envGrp 0)) Reg.CL_HGRPj_RELCMD = 0 ∧
    (armed0 [(Reg.CL_HOLD, 1)]).forced 0 = false ∧ (armed0 [(Reg.CL_HOLD, 1)]).shedO 0 = false ∧ (clasp0 0 []).time.locked = true ∧
    (rule0 true 0 0).armed 0 = true ∧ (rule0 true 0 0).ruleOut 0 1 = false ∧ (heldVal.act.held.map (fun x => x.1)).Nodup := by
  decide +kernel

/-- The time base at a window's end, or about to adjust a tick by the rest `rem` of a slew. -/
def winEnd : State := let s := tb 0 0; { s with time := { s.time with winDue := true } }
def slew0 (rem : Word) : State :=
  let s := tb 0 rem
  { s with time := { s.time with slewAt := 100000, dt := 2000 } }

theorem wit_timebase_more : winEnd.time.winDue = true ∧ winEnd.islandRuns 0 = true ∧ (tb 0 0).time.winDue = false ∧
    (slew0 5).slewDue = true ∧ (slew0 0xFFFFFE).slewDue = true ∧ (tb 0 5).slewDue = false ∧ (slew0 5).islandRuns 0 = true ∧
    (slew0 5).tcs = [] ∧ (slew0 5).settleTick = slew0 5 ∧ (slew0 0xFFFFFE).settleTick = slew0 0xFFFFFE ∧ State.reset.islandRuns 0 = false := by
  refine ⟨?_, ?_, ?_, ?_, ?_, ?_, ?_, ?_, ?_, ?_, ?_⟩ <;> decide +kernel

/-- Timer channel 63 whose match is due. -/
def tcDue : State :=
  let s := tc63 0x840000 true
  { s with time := { s.time with tc := [(63, { TcSt.init with run := true, due := true })] } }

theorem wit_timers_more : (tcDue.tc 63).due = true ∧ tcDue.fl (Reg.TCn_CFG 63) Reg.TCn_CFG_ONE = 1 ∧ tcDue.islandRuns 0 = true ∧
    ((tc63 0x840000 true).tc 63).due = false ∧ (tc63 0x805600 true).fl (Reg.TCn_CFG 63) Reg.TCn_CFG_CSEL = 11 ∧
    ((tc63 0x805600 true).fl (Reg.TCn_CFG 63) Reg.TCn_CFG_CEDGE).testBit 0 = true ∧
    ((tc63 0x805600 true).fl (Reg.TCn_CFG 63) Reg.TCn_CFG_CEDGE).testBit 1 = false ∧ (gst63 1).islandRuns 0 = true := by
  decide +kernel

/-! ### Witnesses: communication -/

/-- The MAC enabled, receiving; its rings at 0xA00000 and 0xA00080 with descriptor word 0 `w0`, the data at 0xA00100. -/
def eth (ctl w0 : Word) : State :=
  { runs 500 [(Reg.ETH_CTL, ctl), (Reg.ETH_RBASEd 0, 0xA00001), (Reg.ETH_RBASEd 1, 0xA00081)] with
    mem := [(0xA00000, .good w0), (0xA00001, .good 0xA00100), (0xA00080, .good w0), (0xA00081, .good 0xA00100), (0xA00100, .good 1),
      (0xA00101, .good 2)] }
def frame : List Word := [0xFFFFFF, 0xFFFFFF, 3]

theorem wit_ethernet : (eth 0xA10000 0x800000).entering = false ∧ (eth 0xC08000 0x800006).entering = false ∧
    (eth 0xA10000 0x800000).islandRuns 1 = true ∧ (eth 0xA10000 0x800000).fl Reg.ETH_CTL Reg.ETH_CTL_EN = 1 ∧
    (eth 0xA10000 0x800000).fl Reg.ETH_CTL Reg.ETH_CTL_RXEN = 1 ∧ (eth 0xA10000 0x800000).ethHold = false ∧ 64 ≤ (64#12).toNat ∧
    (eth 0xA10000 0x800000).ethForMe frame = true ∧
    (∀ i < 4, sramRegion (0xA00080 + i) = true ∧ (eth 0xA10000 0x800000).closed (0xA00080 + i) = false) ∧
    128 * (eth 0xA10000 0x800000).fl (Reg.ETH_RBASEd 1) Reg.ETH_RBASEd_BASE = 0xA00080 ∧ (eth 0xA10000 0x800000).cell 0xA00080 = .good 0x800000 ∧
    (∀ i < 20, sramRegion (0xA00100 + i) = true ∧ (eth 0xA10000 0x800000).closed (0xA00100 + i) = false) ∧
    (0x800000#24).getLsbD 23 = true ∧ (eth 0xC08000 0x800006).fl Reg.ETH_CTL Reg.ETH_CTL_TXEN = 1 ∧
    (eth 0xC08000 0x800006).fl Reg.ETH_CTL Reg.ETH_CTL_LPOLL = 1 ∧ (getBits (0x800006#24) 10 0 + 2) / 3 = 2 ∧
    (eth 0xC08000 0x800006).comm.ethTx = none ∧ 128 * (eth 0 0).fl (Reg.ETH_RBASEd 0) Reg.ETH_RBASEd_BASE = 0xA00000 := by
  (repeat' apply And.intro) <;> decide +kernel

def sending (ctl : Word) : State :=
  { eth ctl 0x800006 with comm := { CommSt.init with ethTx := some { w0 := 0x800006, words := [1, 2], bad := false } } }

theorem wit_ethernet_sent : (sending 0x800000).comm.ethTx.map (·.bad) = some false ∧
    (sending 0x800000).fl Reg.ETH_CTL Reg.ETH_CTL_TXEN = 0 := by
  (repeat' apply And.intro) <;> decide +kernel

/-- CAN controller 1 with control `ctl`, status `st` and FIFOs `x`. -/
def can1 (ctl st : Word) (x : CanSt) : State :=
  { runs 500 [(Reg.CANc_CTL 1, ctl), (Reg.CANc_STAT 1, st)] with comm := { CommSt.init with can := [(1, x)] } }
def canTx : CanSt := { CanSt.init with tx := [[1, 2]] }

theorem wit_can : (can1 0x880000 0 canTx).entering = false ∧ (can1 0x980000 0x800000 canTx).entering = false ∧
    (can1 0x880000 0 canTx).islandRuns 2 = true ∧ (can1 0x880000 0 canTx).fl (Reg.CANc_CTL 1) Reg.CANc_CTL_EN = 1 ∧
    (can1 0x880000 0 canTx).canShed 1 = false ∧ (can1 0x880000 0 canTx).fl (Reg.CANc_STAT 1) Reg.CANc_STAT_STATE ≠ 2 ∧
    (can1 0x880000 0 canTx).canFilter 1 0x008000 5 = some 0 ∧
    ((sets (can1 0x880000 0 canTx) [(Reg.CANc_FkCTL 1 3, Reg.CANc_FkCTL_EN, 1), (Reg.CANc_FkCTL 1 3, Reg.CANc_FkCTL_MSK, 31),
      (Reg.CANc_FkCTL 1 3, Reg.CANc_FkCTL_ID, 1)]).canFilter 1 0x008000 5) = none ∧
    ((can1 0x880000 0 { CanSt.init with rx := List.replicate 32 [1, 2, 3] }).can 1).rx.length = 32 ∧
    (can1 0x880000 0 canTx).canMon 1 = false ∧ (can1 0x880000 0 canTx).fl (Reg.CANc_CTL 1) Reg.CANc_CTL_LOM = 0 ∧
    (can1 0x880000 0x00F800 canTx).fl (Reg.CANc_STAT 1) Reg.CANc_STAT_TEC + 8 = 256 ∧
    (can1 0x880005 0 canTx).fl (Reg.CANc_CTL 1) Reg.CANc_CTL_TXTO ≠ 0 ∧
    (can1 0x980000 0x800000 canTx).fl (Reg.CANc_STAT 1) Reg.CANc_STAT_STATE = 2 ∧
    (can1 0x980000 0x800000 canTx).fl (Reg.CANc_CTL 1) Reg.CANc_CTL_ABOR = 1 ∧ canWords 0 = 2 := by
  (repeat' apply And.intro) <;> decide +kernel

/-- UART 3 and SPI controller 1 enabled, with the FIFOs given. -/
def serial (uctl sctl : Word) (u : UartSt) (y : SpiSt) : State :=
  { runs 500 [(Reg.UARTu_CTL 3, uctl), (Reg.SPIs_CTL 1, sctl)] with comm := { CommSt.init with uart := [(3, u)], spi := [(1, y)] } }

theorem wit_serial : (serial 0x800008 0x820000 UartSt.init SpiSt.init).entering = false ∧
    (serial 0x800008 0x820000 UartSt.init SpiSt.init).islandRuns 2 = true ∧
    (serial 0x800008 0x820000 UartSt.init SpiSt.init).islandRuns 4 = true ∧
    (serial 0x800008 0x820000 UartSt.init SpiSt.init).fl (Reg.UARTu_CTL 3) Reg.UARTu_CTL_EN = 1 ∧
    (serial 0x800008 0x820000 UartSt.init SpiSt.init).fl (Reg.UARTu_CTL 3) Reg.UARTu_CTL_RTO ≠ 0 ∧
    (serial 0x800008 0x820000 UartSt.init SpiSt.init).uartDe 3 = false ∧
    (serial 0x800008 0x820000 UartSt.init SpiSt.init).fl (Reg.SPIs_CTL 1) Reg.SPIs_CTL_CSHOLD = 1 ∧
    (serial 0xC10000 0 { UartSt.init with tx := [1] } SpiSt.init).uartDe 3 = true ∧
    (serial 0xC10000 0 { UartSt.init with tx := [1] } SpiSt.init).fl (Reg.UARTu_CTL 3) Reg.UARTu_CTL_ECHO = 1 ∧
    ((serial 0x800000 0 { UartSt.init with rx := List.replicate 32 1 } SpiSt.init).uart 3).rx.length = 32 ∧
    ((serial 0x800000 0 UartSt.init { SpiSt.init with tx := List.replicate 16 1 }).spi 1).tx.length = 16 ∧
    ((serial 0x800000 0 UartSt.init { SpiSt.init with cs := true }).spi 1).cs = true := by
  (repeat' apply And.intro) <;> decide +kernel

/-- I²C controller 1 with status `st` and FIFOs `x`. -/
def i2c1 (st : Word) (x : I2cSt) : State :=
  { runs 500 [(Reg.I2Cc_CTL 1, 0x8A0000), (Reg.I2Cc_STAT 1, st)] with comm := { CommSt.init with i2c := [(1, x)] } }

theorem wit_i2c : (i2c1 0 I2cSt.init).entering = false ∧
    (i2c1 0 I2cSt.init).islandRuns 2 = true ∧ (i2c1 0 I2cSt.init).fl (Reg.I2Cc_CTL 1) Reg.I2Cc_CTL_EN = 1 ∧
    (i2c1 0 I2cSt.init).fl (Reg.I2Cc_CTL 1) Reg.I2Cc_CTL_SCLTO ≠ 0 ∧ (i2c1 0x400000 I2cSt.init).fl (Reg.I2Cc_STAT 1) Reg.I2Cc_STAT_BUSBUSY = 1 ∧
    ((i2c1 0 { I2cSt.init with cmd := [0x0A0] }).i2c 1).cmd = [0x0A0] ∧ getBits (0x0A0#24) 10 8 = 0 ∧ getBits (0x5A0#24) 10 8 = 5 ∧
    ((i2c1 0 { I2cSt.init with cmd := List.replicate 16 1, own := true, rx := [7] }).i2c 1).cmd.length = 16 := by
  (repeat' apply And.intro) <;> decide +kernel

/-- The USB device attached with endpoint configurations `a` (0) and `b` (1); the flash controller with command `cmd` and status `st`. -/
def usb (a b cmd st : Word) : State :=
  runs 500 [(Reg.USB_CTL, 0xC00005), (Reg.USB_STAT, 0xD00000), (Reg.USB_EPeCFG 0, a), (Reg.USB_EPeCFG 1, b), (Reg.XSPI_CTL, 0x800000),
    (Reg.XSPI_CMD, cmd), (Reg.XSPI_STAT, st)]

theorem wit_usb : (usb 0x880000 0x880000 0 0).entering = false ∧ (usb 0 0 0 0).entering = false ∧
    (usb 0x880000 0x880000 0 0).islandRuns 3 = true ∧ (usb 0x880000 0x880000 0 0).fl Reg.USB_STAT Reg.USB_STAT_ATT = 1 ∧
    (usb 0x880000 0x880000 0 0).fl Reg.USB_STAT Reg.USB_STAT_SUSP = 1 ∧
    (usb 0x880000 0x880000 0 0).fl (Reg.USB_EPeCFG 0) Reg.USB_EPeCFG_EN = 1 ∧ (usb 0x880000 0x880000 0 0).fl (Reg.USB_EPeCFG 0) Reg.USB_EPeCFG_RDY = 1 ∧
    (usb 0x880000 0x880000 0 0).fl (Reg.USB_EPeCFG 1) Reg.USB_EPeCFG_STALL = 0 ∧ (usb 0xC80000 0x880000 0 0).fl (Reg.USB_EPeCFG 0) Reg.USB_EPeCFG_STALL = 1 ∧
    (usb 0 0 0 0).islandRuns 4 = true ∧ (usb 0 0 0 0).fl Reg.XSPI_CTL Reg.XSPI_CTL_EN = 1 ∧ (usb 0 0 0x080300 0x800000).fl Reg.XSPI_STAT Reg.XSPI_STAT_BUSY = 1 ∧
    (usb 0 0 0x080300 0x800000).fl Reg.XSPI_CMD Reg.XSPI_CMD_POLL = 1 ∧ (usb 0 0 0 0).fl Reg.XSPI_STAT Reg.XSPI_STAT_BUSY = 0 := by
  (repeat' apply And.intro) <;> decide +kernel

/-- The crypto engine with job `n` under way on `len` bytes at 0xA00000, its output at 0xA00080. -/
def crypt (n : Nat) (len : Word) : State :=
  { runs 500 [(Reg.CRYPT_OP, 0x800000), (Reg.CRYPT_STAT, 0x800000), (Reg.CRYPT_ARGw 0, 0xA00000), (Reg.CRYPT_ARGw 1, 0xA00080), (Reg.CRYPT_ARGw 2, len)] with
    comm := { CommSt.init with job := n },
    mem := (List.range 22).map (fun i => (0xA00000 + i, .good 0x010203)) ++ (List.range 22).map (fun i => (0xA00080 + i, .good 0x010203)) }

theorem wit_crypto : (crypt 1 3).entering = false ∧ (runs 0 []).entering = false ∧ (crypt 0 0).entering = false ∧
    (crypt 1 3).comm.job = 1 ∧ (crypt 1 3).fl Reg.CRYPT_STAT Reg.CRYPT_STAT_BUSY = 1 ∧
    (runs 0 []).fl Reg.CRYPT_STAT Reg.CRYPT_STAT_BUSY = 0 ∧
    (∀ i < 22, sramRegion (0xA00000 + i) = true ∧ (crypt 1 3).closed (0xA00000 + i) = false ∧ (crypt 1 3).cell (0xA00000 + i) = .good 0x010203) ∧
    (∀ i < 22, sramRegion (0xA00080 + i) = true ∧ (crypt 4 3).closed (0xA00080 + i) = false ∧ (crypt 4 3).cell (0xA00080 + i) = .good 0x010203) ∧
    region 0x814000 = .unmapped ∧ (crypt 0 0).fl Reg.CRYPT_OP Reg.CRYPT_OP_RNGEN = 1 ∧
    (crypt 0 0).fl Reg.CRYPT_RNGSTAT Reg.CRYPT_RNGSTAT_FAILF = 0 ∧ (crypt 0 0).comm.rngN = 0 ∧ (crypt 0 0).comm.rng = [] := by
  (repeat' apply And.intro) <;> decide +kernel

theorem wit_ethernet_more : (eth 0xA10000 0x800000).ethMon = false ∧ (eth 0xA10000 0x800000).shedFrom 300 = false ∧ (eth 0xA10000 0x800000).cell 0xA00081 = .good 0xA00100 ∧
    (eth 0xA10000 0).cell 0xA00080 = .good 0 ∧ (0#24).getLsbD 23 = false ∧ (eth 0xC08000 0x800006).ethHold = false ∧ (eth 0xC08000 0x800006).islandRuns 1 = true ∧
    (∀ i < 4, sramRegion (0xA00000 + i) = true ∧ (eth 0xC08000 0x800006).closed (0xA00000 + i) = false) ∧
    (eth 0xC08000 0x800006).cell 0xA00100 = .good 1 ∧ (eth 0xC08000 0x800006).cell 0xA00101 = .good 2 ∧ (eth 0xC08000 0).comm.mdio = none ∧
    ({ eth 0xC08000 0 with comm := { CommSt.init with mdio := some (2, 7) } } : State).comm.mdio = some (2, 7) ∧ (sending 0x800000).islandRuns 1 = true := by
  (repeat' apply And.intro) <;> decide +kernel

/-- CAN controller 0 enabled, alone or with a frame to send. -/
def can0 (x : CanSt) : State := { runs 500 [(Reg.CANc_CTL 0, 0x880000)] with comm := { CommSt.init with can := [(0, x)] } }

theorem wit_can_more : (can0 canTx).shedFrom 300 = false ∧ (can0 canTx).canMon 0 = false ∧ (can0 canTx).fl (Reg.CANc_CTL 0) Reg.CANc_CTL_EN = 1 ∧
    (can0 canTx).fl (Reg.CANc_STAT 0) Reg.CANc_STAT_STATE = 0 ∧ (can0 canTx).fl (Reg.CANc_STAT 0) Reg.CANc_STAT_REC < 128 ∧ (can0 canTx).islandRuns 2 = true ∧
    ((can0 canTx).can 0).tx = [[1, 2]] ∧ ((can0 canTx).can 0).abort = false ∧ ((can0 { CanSt.init with part := [0, 1] }).can 0).part = [0, 1] ∧
    ((can0 { CanSt.init with tx := List.replicate 8 [0, 1] }).can 0).tx.length = 8 ∧ ((can0 { CanSt.init with rx := [[1, 2]] }).can 0).rx = [[1, 2]] ∧
    ((can1 0x880000 0x800000 { CanSt.init with recov := true }).can 1).recov = true ∧ (can0 canTx).resting 7 = false := by
  (repeat' apply And.intro) <;> decide +kernel

theorem wit_serial_more : ((serial 0x800000 0x820000 { UartSt.init with tx := [1, 2], rx := [3] } { SpiSt.init with tx := [1, 2], rx := [3] }).uart 3).tx = [1, 2] ∧
    (serial 0x800000 0x820000 UartSt.init SpiSt.init).fl (Reg.SPIs_CTL 1) Reg.SPIs_CTL_EN = 1 ∧ SpiSt.init.ending = false ∧
    ((serial 0x800000 0x820000 UartSt.init { SpiSt.init with tx := [1], ending := true }).spi 1).ending = true ∧ SpiSt.init.tx = [] ∧
    (serial 0x800008 0x820000 UartSt.init SpiSt.init).resting 9 = false ∧ (serial 0x800008 0x820000 UartSt.init SpiSt.init).resting 10 = false := by
  (repeat' apply And.intro) <;> decide +kernel

theorem wit_i2c_more : (i2c1 0x400000 I2cSt.init).fl (Reg.I2Cc_STAT 1) Reg.I2Cc_STAT_BUSBUSY = 1 ∧ I2cSt.init.own = false ∧ I2cSt.init.rx = [] ∧
    ((i2c1 0 { I2cSt.init with own := true }).i2c 1).own = true ∧ (usb 0x080000 0 0 0).fl (Reg.USB_EPeCFG 0) Reg.USB_EPeCFG_EN = 0 := by
  (repeat' apply And.intro) <;> decide +kernel

/-- The GCM tag of the ciphertext 1, 2, 3 with a key and an IV of zeros and no further data, and a decryption that asks for it. -/
def tag3 : List Nat := [242, 139, 46, 10, 17, 103, 33, 24, 1, 14, 215, 198, 160, 42, 122, 65]
def gcmGood : State :=
  ([0xF28B2E, 0x0A1167, 0x211801, 0x0ED7C6, 0xA02A7A, 0x410000].zipIdx).foldl (fun s x => s.wr (Reg.CRYPT_PARw (4 + x.2)) x.1) (crypt 3 3)

theorem wit_crypto_tag : Crypto.gcmTag (List.replicate 16 0) (List.replicate 12 0) [] [1, 2, 3] = tag3 ∧ tag3 ≠ List.replicate 16 0 := by
  decide +kernel

theorem wit_crypto_more : (Crypto.wordBytes ((List.range 11).map (fun i => gcmGood.rd (Reg.CRYPT_KEYw i)))).take 16 = List.replicate 16 0 ∧
    gcmGood.fl Reg.CRYPT_OP Reg.CRYPT_OP_KSZ = 0 ∧ (Crypto.wordBytes ((List.range 4).map (fun i => gcmGood.rd (Reg.CRYPT_PARw i)))).take 12 = List.replicate 12 0 ∧
    (Crypto.wordBytes ((List.range 6).map (fun i => gcmGood.rd (Reg.CRYPT_PARw (4 + i))))).take 16 = tag3 ∧ gcmGood.comm.job = 3 ∧
    gcmGood.rd (Reg.CRYPT_ARGw 3) = 0 ∧ (Crypto.wordBytes [0x010203]).take 3 = [1, 2, 3] ∧ gcmGood.cell 0xA00000 = .good 0x010203 := by
  (repeat' apply And.intro) <;> decide +kernel

theorem wit_crypto_jobs : (crypt 4 3).bz.check = none ∧ (crypt 5 3).comm.job = 5 ∧ (crypt 2 3).comm.job = 2 ∧
    ({ crypt 4 3 with bz := checking.bz } : State).bz.check.isSome = true ∧
    region ((crypt 1 3).wr (Reg.CRYPT_ARGw 0) 0x814000 |>.rd (Reg.CRYPT_ARGw 0)).toNat = .unmapped ∧
    ({ crypt 0 0 with comm := { CommSt.init with rngN := 1, rng := [7] } } : State).comm.rng = [7] ∧ (crypt 0 0).resting 5 = false := by
  (repeat' apply And.intro) <;> decide +kernel

/-! ### Witnesses: power -/

/-- Power state `st`, with an entry to `tgt` in progress or none, and the registers of `l`. -/
def pw (st tgt : Nat) (forced : Bool) (l : List (Nat × Word)) : State :=
  let s := { runs 100 ((Reg.PWR_PSSTAT, if tgt = 0 then 0 else 0x900000) :: l) with
    thr := []
    pwr := { PwrSt.init with state := st, tgt := tgt, forced := forced } }
  s

/-- An entry to DOZE of which every participant has answered OK. -/
def allOk1 : State := pw 0 1 false [(Reg.PWR_PSVOTE, 0x00FFFF)]
/-- An entry to DORMANT of which every participant has answered OK; the wake pin 0 is enabled. -/
def allOk3 : State := pw 0 3 false [(Reg.PWR_PSVOTE, 0x00FFFF), (Reg.AWU_WEN, 0x000001)]

theorem wit_power_request : (pw 0 0 false []).fl Reg.PWR_PSSTAT Reg.PWR_PSSTAT_BUSY = 0 ∧ (pw 0 0 false []).pwr.state = 0 ∧
    (pw 0 1 false []).fl Reg.PWR_PSSTAT Reg.PWR_PSSTAT_BUSY = 1 ∧ (pw 0 3 false []).pwr.tgt < 4 := by
  decide +kernel

theorem wit_power_answer : (pw 0 1 false []).voted 5 = false ∧ (pw 0 1 false []).answer 1 5 false = 0 ∧ (pw 0 1 false []).answer 1 7 true = 1 ∧
    2 ≤ (pw 0 3 false [(Reg.AWU_WEN, 0)]).answer 3 14 false ∧ 2 ≤ (pw 0 3 true [(Reg.CL_ARM0, 1)]).answer 3 2 false ∧ (pw 0 3 true []).pwr.forced = true ∧
    ((pw 0 1 false [(Reg.PWR_PSDLY, 0x008000)]).rd Reg.PWR_PSDLY).getLsbD 15 = true ∧
    (∀ q < 15, ((pw 0 1 false [(Reg.PWR_PSDLY, 0x008000)]).rd Reg.PWR_PSDLY).getLsbD q = false) := by
  decide +kernel

theorem wit_power_past : (∀ q < 16, allOk1.voted q = true ∧ allOk1.answer 1 q false = 0) ∧ allOk1.pwr.tgt = 1 ∧
    (∀ q < 16, allOk3.voted q = true ∧ allOk3.answer 3 q false = 0) ∧ allOk3.pwr.tgt = 3 ∧ allOk3.memc.wbuf = [] := by
  decide +kernel

/-- The wake sources 0 to 8 enabled. -/
def allWake : List (Nat × Word) := [(Reg.AWU_WEN, 0x0001FF), (Reg.AWU_WPIN, 0xFFFFFF), (Reg.I2CT_CFG, 0x800000)]

theorem wit_wake : (pw 2 0 false allWake).pwr.state ≠ 0 ∧ (pw 2 0 false allWake).wakeEn 6 = true ∧ (pw 1 0 false allWake).wakeEn 0 = true ∧
    getBits ((pw 1 0 false allWake).rd Reg.AWU_WPIN) Reg.AWU_WPIN_EDGE0.hi Reg.AWU_WPIN_EDGE0.lo = 3 ∧
    getBits ((pw 1 0 false allWake).rd Reg.AWU_WPIN) Reg.AWU_WPIN_EDGE1.hi Reg.AWU_WPIN_EDGE1.lo = 3 ∧
    (pw 1 0 false allWake).wakeEn 1 = true ∧ (pw 1 0 false allWake).wakeEn 3 = true ∧ (pw 1 0 false allWake).wakeEn 4 = true ∧
    (mkPair ((pw 1 0 false ((Reg.AWU_ALML, 7) :: allWake)).rd Reg.AWU_ALML) ((pw 1 0 false ((Reg.AWU_ALML, 7) :: allWake)).rd Reg.AWU_ALMH)).toNat = 7 ∧
    (pw 1 0 false ((Reg.AWU_ALML, 7) :: allWake)).wakeEn 5 = true ∧
    (pw 0 1 false allWake).entering = true ∧ (pw 0 1 false allWake).wakeEn 0 = true := by
  decide +kernel

/-- Patrol with entry `e` alone valid. -/
def patrol (e : Nat) : State :=
  pw 2 0 false [(Reg.AWU_WEN, 0x000040), (Reg.AWU_PeCFG e, 0x800000), (Reg.AWU_PeWHI e, 100), (Reg.AWU_PeSTAT e, 0)]

theorem wit_patrol : (patrol 5).pwr.state = 2 ∧ (∀ j < 8, (patrol 5).patValid j = true ↔ j = 5) ∧
    (patrol 5).fl (Reg.AWU_PeCFG 5) Reg.AWU_PeCFG_EVERY = 0 ∧ (patrol 5).fl (Reg.AWU_PeANA 5) Reg.AWU_PeANA_REFSEL ≠ 1 ∧
    (patrol 5).fl (Reg.AWU_PeCFG 5) Reg.AWU_PeCFG_TYPE = 0 ∧ (patrol 5).wakeEn 6 = true ∧
    max 1 ((patrol 5).fl (Reg.AWU_PeCFG 5) Reg.AWU_PeCFG_WCNT) = 1 := by
  decide +kernel

theorem wit_return : { pw 1 0 false [] with pwr := { PwrSt.init with state := 1, wake := true } }.pwr.wake = true ∧
    { pw 3 0 false [] with pwr := { PwrSt.init with state := 3, wake := true } }.pwr.state = 3 ∧
    (pw 0 0 false []).linked 1 = false ∧ getBits (0x000002#24) Reg.PWR_LWAKE_PORT.hi Reg.PWR_LWAKE_PORT.lo = 2 := by
  decide +kernel

/-- The I²C target enabled, with status `st` and FIFOs `x`. -/
def target (st : Word) (x : I2ctSt) : State :=
  { runs 100 [(Reg.I2CT_CFG, 0x800000), (Reg.I2CT_STAT, st)] with comm := { CommSt.init with i2ct := x } }

theorem wit_i2c_target : (target 0 I2ctSt.init).fl Reg.I2CT_CFG Reg.I2CT_CFG_EN = 1 ∧ (target 0 I2ctSt.init).entering = false ∧
    (target 0x800000 I2ctSt.init).fl Reg.I2CT_STAT Reg.I2CT_STAT_ACTIVE = 1 ∧ (target 0x800000 I2ctSt.init).comm.i2ct.dead = false ∧
    (target 0x800000 { I2ctSt.init with rx := List.replicate 8 1 }).comm.i2ct.rx.length = 8 ∧
    (target 0x100000 I2ctSt.init).fl Reg.I2CT_STAT Reg.I2CT_STAT_STRETCH = 1 ∧ (target 0 I2ctSt.init).comm.i2ct.held = none := by
  decide +kernel

theorem wit_patrol_visit : (patrol 5).pwr.visitN < (patrol 5).patPer ∧ (patrol 5).patPer % (patrol 5).patPer = 0 ∧ 0 ≤ (patrol 5).pwr.visitN ∧
    (patrol 5).patPer < 2 ^ 48 ∧ getF ((target 0 I2ctSt.init).an Reg.I2CT_CFG) Reg.I2CT_CFG_EN = 1 ∧ (target 0x800000 I2ctSt.init).comm.i2ct.tx.length < 8 ∧
    (target 0x800000 I2ctSt.init).fl Reg.I2CT_STAT Reg.I2CT_STAT_RD = 0 ∧ (target 0x800000 I2ctSt.init).fl Reg.I2CT_STAT Reg.I2CT_STAT_STRETCH = 0 := by
  decide +kernel

/-! ### Witnesses: Chaden Link -/

/-- Both ports linked and the link enabled: a manager with CHN_STAT `st`, or a worker; the registers of `l`, the link state `x`. -/
def link (mgr : Bool) (st : Word) (l : List (Nat × Word)) (x : ChnSt) : State :=
  { runs 20000 ((Reg.SYS_STRAP, if mgr then 0x800000 else 0) :: (Reg.CHN_CTL, 0xC01414) :: (Reg.CHN_PpSTAT 0, 0x800000) ::
      (Reg.CHN_PpSTAT 1, 0x800000) :: (Reg.CHN_STAT, st) :: l) with chn := x }

/-- Port 1 with frame 5 sent `n` times and not acknowledged. -/
def unacked (n : Nat) : ChnSt := { ChnSt.init with port := [(1, { PortSt.init with unack := [(5, [0x100000, 1], n)], txSeq := 6 })] }
/-- Worker 3, its upstream port A. -/
def worker3 (l : List (Nat × Word)) (x : ChnSt) : State := link false 0x000060 l x

theorem wit_ports : (link true 0x100004 [] ChnSt.init).entering = false ∧ (worker3 [] ChnSt.init).entering = false ∧
    (link true 0 [(Reg.CHN_PpSTAT 1, 0)] ChnSt.init).linked 1 = false ∧ (link true 0 [] ChnSt.init).islandRuns 8 = true ∧
    (link true 0 [] ChnSt.init).linked 1 = true ∧ (link true 0 [] ChnSt.init).carries 1 = true ∧ (link true 0 [] ChnSt.init).isManager = true ∧
    (∃ f ∈ ((worker3 [] (unacked 4)).port 1).unack, f.2.2 = 4) ∧ ((worker3 [] (unacked 1)).port 1).queue = [] ∧
    (worker3 [] (unacked 1)).ownNum = 3 ∧ (worker3 [] ChnSt.init).isManager = false ∧ (worker3 [] ChnSt.init).upPort = 0 ∧
    (worker3 [] { ChnSt.init with echo := true }).chn.echo = true ∧ (worker3 [(Reg.CHN_PpSTAT 0, 0)] ChnSt.init).linked 0 = false ∧
    (worker3 [] ChnSt.init).fl Reg.CHN_STAT Reg.CHN_STAT_UPLOST = 0 ∧ (link true 0x100004 [] ChnSt.init).fl Reg.CHN_STAT Reg.CHN_STAT_RING = 1 ∧
    (link true 0x100004 [] ChnSt.init).fl Reg.CHN_STAT Reg.CHN_STAT_REV = 0 ∧ (link true 0x100004 [] ChnSt.init).fl Reg.CHN_STAT Reg.CHN_STAT_NW = 4 := by
  decide +kernel

theorem wit_enumeration : (link true 0 [] ChnSt.init).entering = false ∧ (link true 0 [] { ChnSt.init with phase := 3, first := 0, found := 2 }).entering = false ∧
    (link true 0 [] ChnSt.init).fl Reg.CHN_CTL Reg.CHN_CTL_EN = 1 ∧ (link true 0 [] ChnSt.init).chn.wr = [] ∧
    (link true 0 [] { ChnSt.init with phase := 2, first := 0 }).chn.phase = 2 ∧ (link true 0 [] { ChnSt.init with phase := 2, first := 0 }).linked 1 = true ∧
    (link true 0 [] { ChnSt.init with phase := 3, first := 0, found := 2 }).carries 1 = true ∧
    (link true 0 [(Reg.CHN_EINk 15, 0x800035)] ChnSt.init).fl (Reg.CHN_EINk 15) Reg.CHN_EINk_SRC = 3 ∧
    (link true 0 [(Reg.CHN_EINk 15, 0x800035)] ChnSt.init).fl (Reg.CHN_EINk 15) Reg.CHN_EINk_SLOT = 5 ∧
    (link true 0 [] ChnSt.init).fl Reg.CHN_CTL Reg.CHN_CTL_BEN = 1 ∧ (link true 0 [] ChnSt.init).time.dt.toNat % 10000 = 0 := by
  decide +kernel

theorem wit_beacon : (worker3 [] { ChnSt.init with dlyOk := true, good := 15 }).entering = false ∧
    (worker3 [] { ChnSt.init with dlyOk := true, good := 15 }).follows = true ∧
    (worker3 [(Reg.CHN_TCTL, 0)] ChnSt.init).follows = false ∧ (worker3 [] ChnSt.init).ownNum ≠ 0 ∧
    (worker3 [] ChnSt.init).fl Reg.CHN_TSTAT Reg.CHN_TSTAT_LOCK = 0 := by
  decide +kernel

/-- The spine interface of engine 0 holds a window access to worker 2, which the manager holds on port B. -/
def winAcc (kind : AccKind) : Access := { acc0 kind with va := 0xC20010, pa := 0xC20010, pa2 := 0xC20011 }
def window (kind : AccKind) : State :=
  { link true 0x000002 [(Reg.CHN_WnSTAT 2, 0xA00200)] ChnSt.init with
    thr := [(0, kth (cx 0x900000 []))], eng := [(0, { Engine.init with spine := [winAcc kind] })] }

theorem wit_window : (window .store).entering = false ∧ (window .load).entering = false ∧
    (((window .store).en 0).spine[0]?).isSome ∧ region 0xC20010 = .chaden ∧ (window .store).maySend 0 (winAcc .store) = true ∧
    (window .store).quarantined 0 = false ∧ (window .store).addrFault .store 0xC20010 = none ∧ (window .load).addrFault .load 0xC20010 = none ∧
    (window .store).outTo 2 = 0 ∧ ((window .store).th 0).infl = [] ∧ (window .store).portOf 2 = 1 := by
  decide +kernel

/-- A window read of T0, or of the Loupe port, waits with TAG 9; two posted writes of T0 to worker 2 are outstanding. -/
def reading (e : Nat) : State :=
  { window .load with
    thr := [(0, { kth { cx 0x900001 [] with pend := [(3, 7)] } with infl := [wait0] })]
    chn := { ChnSt.init with rd := [{ tag := 9, worker := 2, waddr := 0x000010, cid := 0, eng := e, ac := winAcc .load, after := 0, since := 0 }] } }
def posted (n : Nat) : PostedWr := { ord := n, worker := 2, waddr := 0x000010, cid := 0, thread := 0, data := [5], acc := n, since := 0 }
def writing : State := { link true 0x000002 [] { ChnSt.init with wr := [posted 1, posted 2], count := 2,
                                                                 drains := [{ thread := 0, depth := 0, acc := 1 }] } with
  thr := [(0, { kth (cx 0x900000 []) with mode := .drain })] }

theorem wit_window_ends : (reading 0).entering = false ∧ (reading 128).entering = false ∧ writing.entering = false ∧
    ((reading 0).chn.rd.find? (fun r => decide (r.tag = 9))).isSome ∧ ((reading 0).th 0).infl = [wait0] ∧
    ((reading 0).th 0).ctx.pend = [(3, 7)] ∧ ((reading 128).chn.rd.find? (fun r => decide (r.tag = 9))).isSome ∧
    (writing.chn.wr.find? (fun w => decide (w.worker = 2 ∧ BitVec.ofNat 24 w.ord = 2))).isSome ∧
    (writing.chn.drains.find? (fun x => decide (x.thread = 0 ∧ x.depth = (writing.th 0).depth))).isSome ∧
    (∀ w ∈ writing.chn.wr, ¬ w.acc < 1) ∧ (writing.en 0).spine = [] := by
  decide +kernel

/-- Worker 3 with its far side enabled, capsule 1 admitted to SRAM at 0xA00000. -/
def far3 (x : ChnSt) : State :=
  { worker3 [(Reg.CHN_FCTL, 0x800000), (Reg.CHN_FRkCTL 7, 0xE00001), (Reg.CHN_FRkBASE 7, 0xA00000), (Reg.CHN_FRkLIM 7, 0xA00000)] x with
    mem := [(0xA00000, .good 5), (0xA00001, .good 6)] }

theorem wit_far : (far3 ChnSt.init).entering = false ∧
    (far3 ChnSt.init).carries 0 = true ∧ (far3 ChnSt.init).ownNum = 3 ∧ (far3 ChnSt.init).fl Reg.CHN_FCTL Reg.CHN_FCTL_EN = 1 ∧
    (far3 ChnSt.init).fl (Reg.CHN_FRkCTL 7) Reg.CHN_FRkCTL_CID = 1 ∧ (far3 ChnSt.init).fl (Reg.CHN_FRkBASE 7) Reg.CHN_FRkBASE_BASE = 0xA00000 / 0x400 ∧
    (far3 ChnSt.init).fl (Reg.CHN_FRkLIM 7) Reg.CHN_FRkLIM_LIM = 0xA00000 / 0x400 ∧ sramRegion 0xA00000 = true ∧
    (far3 ChnSt.init).closed 0xA00000 = false ∧ (far3 ChnSt.init).cell 0xA00001 = .good 6 ∧
    (far3 { ChnSt.init with farSeq := some 7, farN := 15 }).chn.farSeq = some 7 ∧ ((7#24) - (5#24)).toNat < 2 ^ 23 ∧
    2 ^ 23 ≤ ((7#24) - (8#24)).toNat ∧
    ((far3 { ChnSt.init with farRsp := [(9, [1])] }).chn.farRsp.find? (fun r => decide (r.1 = 9))) = some (9, [1]) := by
  decide +kernel

/-- A port that is down after a dead frame; one that asked for a frame again. -/
def stuckPort : State := link true 0 [(Reg.CHN_PpSTAT 1, 0)] { ChnSt.init with port := [(1, { PortSt.init with stuck := true })] }

theorem wit_ports_more : stuckPort.linked 1 = false ∧ (stuckPort.port 1).stuck = true ∧
    ((link true 0 [(Reg.CHN_PpSTAT 1, 0)] ChnSt.init).port 1).stuck = false ∧ (worker3 [] (unacked 4)).islandRuns 8 = true ∧
    (worker3 [] (unacked 4)).linked 1 = true ∧ (worker3 [] (unacked 4)).carries 1 = true ∧ ((worker3 [] (unacked 1)).port 1).relay = [] ∧
    ((worker3 [] (unacked 1)).port 1).nakked = false ∧ ((worker3 [] (unacked 1)).port 0).relay = [] ∧ ((worker3 [] (unacked 1)).port 0).queue = [] ∧
    ((worker3 [] (unacked 1)).port 0).unack.length < 16 ∧ (worker3 [] (unacked 1)).carries 0 = true ∧ (link true 0 [] ChnSt.init).chn.rd = [] ∧
    (link true 0x000002 [(Reg.CHN_WnSTAT 2, 0xA00200)] ChnSt.init).heldW 2 = true ∧
    (link true 0x000002 [(Reg.CHN_WnSTAT 2, 0xA00200)] ChnSt.init).portOf 2 = 1 := by
  decide +kernel

theorem wit_enumeration_more : (link true 0 [] { ChnSt.init with beacon := true }).chn.beacon = true ∧ (link true 0 [] { ChnSt.init with beacon := true }).carries 0 = true ∧
    (link true 0 [] { ChnSt.init with beacon := true }).time.locked = true ∧ ChnSt.init.beacon = false ∧
    (worker3 [] { ChnSt.init with dlyOk := true, good := 15, poor := 3 }).chn.poor = 3 ∧ (worker3 [] ChnSt.init).carries 0 = true ∧
    (worker3 [(Reg.CHN_TSTAT, 0x800000)] ChnSt.init).fl Reg.CHN_TSTAT Reg.CHN_TSTAT_LOCK = 1 ∧
    (∀ n < 64, (link true 0 [] ChnSt.init).fl (Reg.TCn_CFG n) Reg.TCn_CFG_CSEL ≠ 19) ∧
    (∀ j < 16, (link true 0 [] ChnSt.init).fl (Reg.CHN_EINk j) Reg.CHN_EINk_V = 0) ∧ (worker3 [] ChnSt.init).resting 13 = false := by
  (repeat' apply And.intro) <;> decide +kernel

/-- The reads and writes of `reading` and `writing` at a time when they are late. -/
def lateRd : State := let s := reading 0; { s with time := { s.time with ticks := 1000000000 } }
def lateWr : State := { writing with time := { writing.time with ticks := 1000000000 } }

theorem wit_window_more : (window .store).chn.wr.length + (window .store).chn.rd.length < 256 ∧ (window .store).islandRuns 8 = true ∧
    ((window .store).th 0).replay = [] ∧ (window .store).chn.rd = [] ∧ (window .store).carries 1 = true ∧ ((window .store).port 1).relay = [] ∧
    ((window .store).port 1).queue = [] ∧ ((window .store).port 1).unack.length < 16 ∧ (window .store).resting 13 = false ∧
    100 * max 1 (lateRd.fl Reg.CHN_CTL Reg.CHN_CTL_RTO) ≤ lateRd.time.ticks ∧ (lateRd.th 0).levels = [] ∧ wait0.snap.slot = none ∧
    (lateRd.th 0).haltReq = 0 ∧ (lateRd.th 0).stepping = false ∧ lateRd.chn.rd.map (·.tag) = [9] ∧ lateRd.carries 1 = true ∧ lateRd.isManager = true ∧
    10000 * max 1 (lateWr.fl Reg.CHN_CTL Reg.CHN_CTL_WTO) ≤ lateWr.time.ticks ∧
    (lateWr.chn.wr.find? (fun w => decide (BitVec.ofNat 24 w.ord = 2))).isSome ∧ (writing.chn.drains.map (·.depth)) = [(writing.th 0).depth] := by
  (repeat' apply And.intro) <;> decide +kernel

theorem wit_far_more : (far3 ChnSt.init).chn.farSeq = none ∧ (far3 ChnSt.init).chn.farRsp = [] ∧ (far3 ChnSt.init).upPort = 0 ∧
    (far3 ChnSt.init).isManager = false ∧ (far3 ChnSt.init).fl (Reg.CHN_FRkCTL 7) Reg.CHN_FRkCTL_V = 1 ∧
    (far3 ChnSt.init).fl (Reg.CHN_FRkCTL 7) Reg.CHN_FRkCTL_W = 1 ∧ (far3 ChnSt.init).fl (Reg.CHN_FRkCTL 7) Reg.CHN_FRkCTL_R = 1 ∧
    sramRegion 0xA00001 = true ∧ (far3 ChnSt.init).closed 0xA00001 = false ∧ (far3 ChnSt.init).cell 0xA00000 = .good 5 ∧
    ((far3 ChnSt.init).port 0).relay = [] ∧ ((far3 ChnSt.init).port 0).queue = [] ∧ ((far3 ChnSt.init).port 0).unack.length < 16 ∧
    (worker3 [] ChnSt.init).fl Reg.CHN_FCTL Reg.CHN_FCTL_EN = 0 ∧ (far3 ChnSt.init).fl (Reg.CHN_FRkCTL 7) Reg.CHN_FRkCTL_CID ≠ 2 := by
  (repeat' apply And.intro) <;> decide +kernel

/-! ### Witnesses: supply, faults, assay -/

/-- Supply state `p` and the registers of `l`. -/
def supply (p : PwrSt) (l : List (Nat × Word)) : State := { runs 100 l with pwr := p }
/-- VHOLD `vh`, Ĉ 6,800 µF, Q `q`, HOLD_STAT `st`. -/
def bank (p : PwrSt) (vh q st : Word) (l : List (Nat × Word)) : State :=
  supply p ((Reg.HOLD_VH, vh) :: (Reg.HOLD_CAP, 6800) :: (Reg.HOLD_Q, q) :: (Reg.HOLD_STAT, st) :: (Reg.HOLD_CTL, 0xC00F2C) ::
    (Reg.PWR_VIN, 2400) :: l)

theorem wit_ladder : max (max (supply PwrSt.init []).pwr.vinStep (min ((4 : Fin 5).val + 1) 4))
      ((supply PwrSt.init []).fl Reg.PWR_SHCFG Reg.PWR_SHCFG_FORCE) = 4 ∧
    (supply PwrSt.init []).pwr.vinStep ≤ 4 ∧ (supply PwrSt.init []).fl Reg.PWR_SHSTAT Reg.PWR_SHSTAT_STEP ≤ 4 ∧
    (supply { PwrSt.init with vinStep := 4 } [(Reg.PWR_SHSTAT, 0x3C0004)]).fl Reg.PWR_SHSTAT Reg.PWR_SHSTAT_STEP = 4 ∧
    (supply { PwrSt.init with state := 2 } allWake).wakeEn 7 = true ∧
    (bank PwrSt.init 600 0 0x010000 []).fl Reg.HOLD_STAT Reg.HOLD_STAT_EXH = 1 := by
  decide +kernel

theorem wit_hold : (bank PwrSt.init 2000 136000 0 []).fl Reg.HOLD_CTL Reg.HOLD_CTL_RTEN = 1 ∧ (bank PwrSt.init 2000 136000 0 []).pwr.ride = false ∧
    (bank PwrSt.init 600 0 0 []).fl Reg.HOLD_VH Reg.HOLD_VH_VH ≤ 600 ∧ (bank PwrSt.init 600 0 0 []).fl Reg.HOLD_STAT Reg.HOLD_STAT_EXH = 0 ∧
    (bank PwrSt.init 2000 136000 0x200000 []).fl Reg.HOLD_STAT Reg.HOLD_STAT_STATE = 1 ∧ (bank PwrSt.init 2000 136000 0 []).disagree = false ∧
    (bank { PwrSt.init with restMs := 10000 } 2000 0 0 []).disagree = true ∧ (bank PwrSt.init 2000 0 0 []).pwr.chgDone = false ∧
    (bank PwrSt.init 2000 0 0 []).fl Reg.HOLD_CTL Reg.HOLD_CTL_EN = 1 ∧
    (bank { PwrSt.init with chgDone := true, chgQ := 13600, chgV := 200 } 2000 0 0 []).pwr.chgQ * 100 / 200 = 6800 ∧
    (bank { PwrSt.init with chgMs := 1000 } 2000 0 0x200000 []).fl Reg.HOLD_VH Reg.HOLD_VH_VH + 100 <
      min (50 * min 72 (max 20 ((bank PwrSt.init 2000 0 0 []).fl Reg.HOLD_CTL Reg.HOLD_CTL_VTGT)))
        ((bank PwrSt.init 2000 0 0 []).fl Reg.PWR_VIN Reg.PWR_VIN_VIN - 100) := by
  decide +kernel

theorem wit_plan : (∃ p, p < 8 ∧ (supply PwrSt.init []).fl (Reg.ASY_MPdp 8 p) Reg.ASY_MPdp_RET = 0 ∧
      p ≤ min ((supply PwrSt.init []).fl (Reg.PWR_PLn 8) Reg.PWR_PLn_REQ) (supply PwrSt.init []).planCap) ∧
    (supply PwrSt.init [(Reg.PWR_PLn 8, 0x7C0002)]).planTarget 8 ≠ (supply PwrSt.init [(Reg.PWR_PLn 8, 0x7C0002)]).planLevel 8 ∧
    (supply PwrSt.init []).planTarget 8 = (supply PwrSt.init []).planLevel 8 := by
  refine ⟨⟨0, ?_⟩, ?_⟩ <;> decide +kernel

/-- T5 runs and is watched; FLT_STAT `q`. -/
def watched (q : Word) (t : Thread) : State := { runs 100 [(Reg.ENG_STALL 1, 10), (Reg.FLT_STAT, q)] with thr := [(5, t)] }

theorem wit_stall : (watched 0 (kth (cx 0x900000 []))).fl (Reg.ENG_STALL (5 / 4)) Reg.ENG_STALL_STALL_T ≠ 0 ∧
    (watched 0 (kth (cx 0x900000 []))).holdOf 5 = 0 ∧ ((watched 0 (kth (cx 0x900000 []))).th 5).depth < 16 ∧
    ((watched 0 (kth (cx 0x900000 []))).th 5).stepping = false ∧ (watched 0 (kth (cx 0x900000 []))).time.locked = true := by
  decide +kernel

/-- Pair 31 with control word `ctl`: primary T5, shadow T64, capsule 1 on checkpoint unit 2, which serves strand 5. -/
def pair31 (ctl : Word) (q : Word) (f : FltSt) : State :=
  { runs 100 [(Reg.SP_nCTL 31, ctl), (Reg.SP_nCAP 31, 0x0BFC01), (Reg.SP_nDL 31, 10), (Reg.STR_CKuCTL 2, 0x800005), (Reg.FLT_STAT, q)] with
    bz := { caps := [(1, { Capsule.empty with live := [(0, 0x600000), (7, 0x000200), (16, 0x800005)] })], check := none }
    flt := f }

theorem wit_pairs : ((pair31 0 0 FltSt.init).th 64).mode = .off ∧ (pair31 0 0 FltSt.init).quarantined 1 = false ∧ (pair31 0 2 FltSt.init).quarantined 1 = true ∧
    (0x800A40#24).toNat % 512 = 64 ∧ (0x800A40#24).toNat / 512 % 512 = 5 ∧ (pair31 0 0 FltSt.init).fl (Reg.SP_nCAP 31) Reg.SP_nCAP_CID = 1 ∧
    (pair31 0 0 FltSt.init).capState 1 = 3 ∧ (pair31 0 0 FltSt.init).fl (Reg.SP_nCAP 31) Reg.SP_nCAP_UNIT = 2 ∧
    (pair31 0 0 FltSt.init).fl (Reg.STR_CKuCTL 2) Reg.STR_CKuCTL_EN = 1 ∧ ((pair31 0 0 FltSt.init).desc 1 16).getLsbD 23 = true ∧
    (pair31 0 0 FltSt.init).fl (Reg.STR_CKuCTL 2) Reg.STR_CKuCTL_STRAND = ((pair31 0 0 FltSt.init).desc 1 16).toNat % 512 ∧
    (∀ m ∈ (pair31 0 0 FltSt.init).armedPairs, m = 31) ∧ (pair31 0xC00A40 0 FltSt.init).pairArmed 31 = true ∧
    (pair31 0xC00A40 0 FltSt.init).fl (Reg.SP_nDL 31) Reg.SP_nDL_CKDL ≠ 0 ∧
    SMap.get none (pair31 0xC00A40 0 { FltSt.init with trig := [(31, some 5)] }).flt.trig 31 = some 5 ∧
    SMap.get none (pair31 0xC00A40 0 { FltSt.init with took := [(31, some (5, 9, 3))] }).flt.took 31 = some (5, 9, 3) ∧
    1 ∈ (pair31 0 2 { FltSt.init with readm := [1] }).flt.readm := by
  decide +kernel

/-- Domain 8 at level 3 with adder `add`; its calibration counts and temperature coefficient in MRAM. -/
def assay (add : Nat) : State :=
  { runs 100 [(Reg.ASY_STAT, 0x800000), (Reg.ASY_MPdp 8 3, w24 (add * 0x10000)), (Reg.ASY_CTL, 0x800000)] with
    mem := (List.range 4).map (fun q => (0x7F0400 + 32 * 8 + 8 * q + 3, .good 100000)) ++ [(0x7F0520 + 8, .good 100)] }
def meas3 (n : Word) : AsyMeas := { d := 8, p := 3, n := [n, n, n, n], tj := 1000 }

theorem wit_assay : (assay 0).time.locked = true ∧ (assay 0).pwr.state = 0 ∧ (assay 0).fl Reg.ASY_STAT Reg.ASY_STAT_BUSY = 1 ∧
    (meas3 100000).d = 8 ∧ (meas3 100000).p = 3 ∧ (assay 0).retired 8 3 = false ∧
    (assay 10).levelMv 8 3 ≤ (assay 10).fl Reg.PWR_VCORE Reg.PWR_VCORE_MV ∧ (assay 10).fl (Reg.ASY_MPdp 8 3) Reg.ASY_MPdp_ADD = 10 ∧
    (∀ q < 4, (assay 0).cell (0x7F0400 + 32 * 8 + 8 * q + 3) = .good 100000) ∧ (assay 0).cell (0x7F0520 + 8) = .good 100 ∧
    0 < ((100000#24).toNat : Int) * (8000000 + (100#24).toInt * (1000 - (1000#12).toInt)) := by
  decide +kernel

/-- The change of domain 8 to level 2 that its request asks for is under way. -/
def changing : State := get (execPlanLevelRequest 8 2 (supply PwrSt.init []))

theorem wit_plan_change : (supply PwrSt.init []).planGoal 8 = none ∧ changing.planGoal 8 = some 2 ∧
    (supply PwrSt.init [(Reg.PWR_PLn 8, 0x7C0002)]).planGoal 8 = none ∧ (bank PwrSt.init 2000 136000 0 []).pwr.chgStop = false ∧
    (bank { PwrSt.init with restMs := 10000 } 2000 0 0 []).pwr.chgDone = false ∧ (supply PwrSt.init []).pwr.restMs < 10000 := by
  decide +kernel

/-- T5 watched, its stall due. -/
def stalledT : State := watched 0 { kth (cx 0x900000 []) with stall := true }

theorem wit_stall_due : (stalledT.th 5).stall = true ∧ (stalledT.th 5).mode = .run ∧ (stalledT.th 5).halt = 0 ∧ (stalledT.th 5).rom = false ∧
    stalledT.holdOf 5 = 0 ∧ stalledT.pwr.state = 0 ∧ ((watched 0 (kth (cx 0x900000 []))).th 5).stall = false ∧
    (pair31 0xC00A40 0 { FltSt.init with ckDue := [31] }).flt.ckDue = [31] ∧ FltSt.init.ckDue = [] ∧
    (pair31 0xC00A40 0 { FltSt.init with ckDue := [31] }).pwr.state = 0 ∧ (pair31 0 2 FltSt.init).flt.readm = [] := by
  decide +kernel

/-- The hour of the assay is over. -/
def hourOver : State := let s := assay 0; { s with sys := { s.sys with hour := 360000000001 } }

theorem wit_hour : 360000000000 ≤ hourOver.sys.hour ∧ (assay 0).sys.hour < 360000000000 := by decide +kernel

/-! ### Witnesses: the Loupe port -/

/-- LOUPE selected with lock state `lk` and power state `st`; the registers of `l`. -/
def loupe (lk : Nat) (st : Nat) (x : LoupeSt) (l : List (Nat × Word)) : State :=
  { runs 100 ((Reg.SYS_DBG, w24 (lk * 2 ^ 19)) :: l) with
    lp := { x with ir := 0x10 }
    pwr := { PwrSt.init with state := st }
    mem := [(0x900100, .good 5), (0xA00000, .good 0x90003E)]
    bz := { caps := [(1, { Capsule.empty with live := [(0, 0x600000), (1, 0xA00000)] })], check := none } }

theorem wit_loupe : (loupe 2 0 LoupeSt.init []).lp.ir = 0x10 ∧ (∀ r ∈ (loupe 2 0 LoupeSt.init []).chn.rd, r.eng ≠ 128) ∧
    (loupe 0 0 LoupeSt.init []).lock = 0 ∧ (loupe 1 0 LoupeSt.init []).lock = 1 ∧ (loupe 2 0 LoupeSt.init []).lock = 2 ∧
    (loupe 2 3 LoupeSt.init [(Reg.AWU_WEN, 0x000100)]).wakeEn 8 = true ∧ (loupe 2 0 LoupeSt.init [(Reg.AWU_WEN, 0)]).wakeEn 8 = false ∧
    (loupe 0 0 { LoupeSt.init with lockout := true } []).lp.lockout = true ∧
    (loupe 0 0 { LoupeSt.init with nonce := [1, 2, 3, 4, 5, 6, 7, 8] } []).lp.nonce[7]? = some 8 ∧
    (loupe 4 0 LoupeSt.init [(Reg.SYS_DBG, 0x800000)]).fl Reg.SYS_DBG Reg.SYS_DBG_DENY = 1 ∧
    (loupe 2 0 LoupeSt.init []).cell 0x900100 = .good 5 ∧ (loupe 2 0 LoupeSt.init []).cell 0x900200 = .bad ∧
    sramRegion 0x900100 = true ∧ sramRegion 0x900200 = true ∧ (loupe 2 0 LoupeSt.init []).closed 0x900100 = false ∧
    (loupe 2 0 { LoupeSt.init with cid := 1 } []).capState 1 = 3 := by
  decide +kernel

/-- The page that maps capsule 1's address 0x000100. -/
def page0 : TcEnt := { cid := 1, block := true, vpn := 0, base := 0x900000, perms := 15 }

theorem wit_loupe_capsule : (loupe 2 0 { LoupeSt.init with cid := 1 } []).walk 1 0x000100 0 =
      (loupe 2 0 { LoupeSt.init with cid := 1 } [], .entry page0) ∧ tcAddr page0 .load 0x000100 = .ok 0x900100 ∧
    tcAddr page0 .store 0x000100 = .ok 0x900100 := by
  refine ⟨by decide +kernel, by rfl, by rfl⟩

/-- A P-256 public key and its signature of the nonce 1 to 8, SYS_ID and 0x800000, made with the standard's formulas outside the model; DKEY is
the key's SHA-256. -/
def pubKey : List Word := [
  0x3B704E, 0xFE0612, 0x49941E, 0xE065B1, 0x8038C1, 0xA28DA3, 0xD6758E, 0x7D5F97, 0x2022B0, 0xC44D24, 0x975F1E,
  0x6F3196, 0xFD1E74, 0x979E4B, 0xB70DDB, 0x49DBD9, 0x21B91E, 0x383402, 0xCC3FC2, 0xD462AA, 0x954836, 0x860000]
def signed : List Word := [
  0x7CF27B, 0x188D03, 0x4F7E8A, 0x523803, 0x04B51A, 0xC3C089, 0x69E277, 0xF21B35, 0xA60B48, 0xFC4766, 0x99787C,
  0xF27B18, 0x8D034F, 0x7E8A52, 0x380304, 0xB51AC3, 0xC08969, 0xE277F2, 0x1B35A6, 0x0B48FC, 0x476699, 0x780000]
def dKey : List Word := [
  0xBB1FD2, 0x4FE632, 0x918052, 0x19141C, 0x4E696C, 0x3D9B78, 0xAAF3B0, 0x405AA9, 0x245272, 0x3768CE, 0x8D0C00]

/-- The 32 bytes of that SHA-256. -/
def keyHash : List Nat := [
  0xBB, 0x1F, 0xD2, 0x4F, 0xE6, 0x32, 0x91, 0x80, 0x52, 0x19, 0x14,
  0x1C, 0x4E, 0x69, 0x6C, 0x3D, 0x9B, 0x78, 0xAA, 0xF3, 0xB0, 0x40,
  0x5A, 0xA9, 0x24, 0x52, 0x72, 0x37, 0x68, 0xCE, 0x8D, 0x0C]

theorem test_unlock_hash : Crypto.sha256 ((Crypto.wordBytes pubKey).take 64) = keyHash := by decide +kernel

theorem test_unlock_key : Crypto.packBytes keyHash = dKey ∧ getBits (signed.getD 21 0) 15 0 = 0 ∧
    dKey.getD 0 0 ≠ 0 ∧ getBits (0x800000#24) 23 22 = 2 := by decide +kernel

theorem test_unlock_signature : Crypto.ecdsaVerify (Crypto.sha256 (Crypto.wordBytes ([1, 2, 3, 4, 5, 6, 7, 8] ++ [0x412811, 0x800000])))
    (Crypto.keyPair pubKey).1 (Crypto.keyPair pubKey).2 (Crypto.keyPair signed).1 (Crypto.keyPair signed).2 = true := by decide +kernel

/-- The port with the nonce, the key and the signature entered. -/
def unlocking : State :=
  loupe 0 0 { LoupeSt.init with nonce := [1, 2, 3, 4, 5, 6, 7, 8], key := (pubKey.zipIdx).map (fun x => (x.2, x.1)),
                                resp := (signed.zipIdx).map (fun x => (x.2, x.1)) } ((dKey.zipIdx).map (fun x => (Reg.SYS_FUSEw (22 + x.2), x.1)))

theorem wit_unlock : unlocking.lp.nonce = [1, 2, 3, 4, 5, 6, 7, 8] ∧ (List.range 22).map (SMap.get 0 unlocking.lp.key) = pubKey ∧
    (List.range 22).map (SMap.get 0 unlocking.lp.resp) = signed ∧ (List.range 11).map (fun j => unlocking.rd (Reg.SYS_FUSEw (22 + j))) = dKey ∧
    unlocking.rd Reg.SYS_ID = 0x412811 ∧ unlocking.fl Reg.SYS_DBG Reg.SYS_DBG_DENY = 0 := by decide +kernel

/-- Thread 5 with state `t`, the port open. -/
def debug (lk : Nat) (t : Thread) : State := { loupe lk 0 LoupeSt.init [(Reg.SYS_DBG, w24 (lk * 2 ^ 19 + 1))] with thr := [(5, t)] }
def level0 : Level :=
  { xpc := 0x900040, xst := 0x800000, xtgt := 0, xcause := 0x109, xaddr := 0xC20010, intr := false, src := 0, prio := 0, scan := false,
    claimed := false, live := false }
def halted : Thread := { kth (cx 0x900000 [(3, 7)]) with halt := 1, levels := [level0] }

theorem wit_debug : (debug 1 (cth (cx 0 []))).lock = 1 ∧ ((debug 1 (cth (cx 0 []))).th 5).bind.prv = false ∧
    ((debug 1 (cth (cx 0 []))).th 5).bind.cid = (debug 1 (cth (cx 0 []))).fl Reg.SYS_DBG Reg.SYS_DBG_LCID ∧
    ((debug 1 (kth (cx 0 []))).th 5).bind.prv = true ∧ 2 ≤ (debug 2 (kth (cx 0 []))).lock ∧ ((debug 2 (kth (cx 0 []))).th 5).halt = 0 ∧
    ((debug 2 (kth (cx 0 []))).th 5).infl = [] ∧ ((debug 2 { kth (cx 0 []) with infl := [wait0] }).th 5).infl ≠ [] ∧
    ((debug 2 halted).th 5).halt ≠ 0 ∧ ((debug 2 halted).th 5).levels ≠ [] ∧ ((debug 2 halted).th 5).haltIdx < 8 := by
  decide +kernel

/-- Thread 0 meets breakpoint 3 of engine 0 at its pc. -/
def atBreak : State := { run0 [] with eng := [(0, { Engine.init with bps := [(3, some { addr := 0x900000, mask := 15, acc := 0, m := 0 })] })] }

theorem wit_breakpoint : atBreak.isReady 0 = true ∧ (atBreak.th 0).skipBp = false ∧ (atBreak.th 0).ctx.slot = none ∧
    atBreak.bpHit 0 (atBreak.th 0).ctx.pc = some 3 := by
  decide +kernel

/-- Thread 5 in mode `m`. -/
def inMode (m : Mode) : State := debug 2 { kth (cx 0x900000 []) with mode := m }

theorem wit_tstat : (∀ m ∈ [Mode.off, .run, .stopping, .event, .fence, .drain, .sync], ((inMode m).th 5).mode = m ∧ (inMode m).holdOf 5 = 0 ∧
    ((inMode m).th 5).halt = 0 ∧ ((inMode m).th 5).haltIdx < 8 ∧ ((inMode m).th 5).rom = false) ∧
    (debug 1 (cth (cx 0 []))).lock = 1 ∧ (0x001000#24).getLsbD 12 = true ∧ ((debug 1 (cth (cx 0 []))).th 0).bind.prv = true := by
  decide +kernel

/-! ### Witnesses: resets, devices, the whole state -/

theorem wit_reset : (runs 0 []).fl Reg.SYS_WDCTL Reg.SYS_WDCTL_EN = 1 ∧ (runs 0 []).pwr.state = 0 ∧ (runs 0 []).frozen = false ∧
    (runs 0 [(Reg.SYS_WDCTL, 0)]).fl Reg.SYS_WDCTL Reg.SYS_WDCTL_EN = 0 ∧
    (runs 0 [(Reg.SYS_WDCTL, 0x800240)]).fl Reg.SYS_WDCTL Reg.SYS_WDCTL_MIN ≠ 0 ∧
    (runs 0 [(Reg.FLT_STAT, 0xA00000)]).fl Reg.FLT_STAT Reg.FLT_STAT_ESC = 1 ∧ (runs 0 []).fl Reg.FLT_STAT Reg.FLT_STAT_ESC = 0 ∧
    (∀ i < 11, (runs 0 []).rd (Reg.SYS_FUSEw (22 + i)) = 0) ∧ (4#4).getLsbD 2 = true ∧ (0#4).getLsbD 2 = false := by
  decide +kernel

theorem wit_fuse : getBits (0xF50020#24) 23 16 = 0xF5 ∧ (runs 0 []).fl Reg.PWR_SHSTAT Reg.PWR_SHSTAT_STEP = 0 ∧
    (runs 0 []).fl Reg.SYS_FUSESTAT Reg.SYS_FUSESTAT_BUSY = 0 ∧ (runs 0 [(Reg.SYS_SVC, 1)]).service = true ∧ (runs 0 []).service = false ∧
    (0xF50020#24).toNat % 64 = 32 ∧ (runs 0 []).rd (Reg.SYS_FUSEw 32) = 0 ∧ (runs 0 [(Reg.SYS_FUSEw 33, 63)]).rd (Reg.SYS_FUSEw 33) = 63 ∧
    (runs 0 [(Reg.SYS_FUSEw 33, 64)]).rd (Reg.SYS_FUSEw 33) = 64 ∧
    ({ runs 0 [] with sys := { SysSt.init with fuse := some (33, 1) } } : State).sys.fuse = some (33, 1) := by
  decide +kernel

/-- A register of the precision die that is a setting, with its transfer under way. -/
def moving : State := { runs 0 [(Reg.PREC_BEXCTL, 2)] with dl := { DieLink.init with xfer := [Reg.PREC_BEXCTL] } }

theorem wit_device_write : moving.restAt Reg.PREC_BEXCTL = false ∧ region Reg.PREC_BEXCTL = .dev ∧ devExists Reg.PREC_BEXCTL = true ∧ moving.regRuns Reg.PREC_BEXCTL true = true ∧
    (regGroup Reg.PREC_BEXCTL).isSome ∧ strPort Reg.PREC_BEXCTL = none ∧ ownView (.thread 0) Reg.PREC_BEXCTL = Reg.PREC_BEXCTL ∧
    (moving.th 0).bind.prv = true ∧ Reg.PREC_BEXCTL ∈ moving.dl.xfer := by
  decide +kernel

/-- As `loaded0`, with the access at `pa`. -/
def devAcc (kind : AccKind) (pa : Nat) : Access := { acc0 kind with va := BitVec.ofNat 24 pa, pa := pa, pa2 := pa + 1 }
def devLoad (kind : AccKind) (pa : Nat) (l : List (Nat × Word)) : State :=
  { runs 0 ((Reg.SYS_STRAP, 0x800000) :: l) with
    thr := [(0, { kth { cx 0x900001 [] with pend := if kind = .load then [(3, 7)] else [] } with infl := [wait0] })]
    eng := [(0, { Engine.init with spine := [devAcc kind pa] })] }

theorem wit_device_access : (devLoad .load 0xE00000 [(Reg.XSPI_CTL, 0x800000)]).entering = false ∧ (devLoad .store Reg.CHN_DRAIN []).entering = false ∧
    (((devLoad .load 0xF00000 []).en 0).spine[0]?).isSome ∧ (devLoad .load 0xF00000 []).maySend 0 (devAcc .load 0xF00000) = true ∧
    (devLoad .load 0xF00000 []).quarantined 0 = false ∧ ((devLoad .load 0xF00000 []).th 0).infl = [wait0] ∧ region 0xF00000 = .dev ∧
    region 0xE00000 = .xspi ∧ (devLoad .load 0xE00000 [(Reg.XSPI_CTL, 0x800000)]).islandRuns 4 = true ∧
    (devLoad .load 0xE00000 [(Reg.XSPI_CTL, 0x800000)]).fl Reg.XSPI_CTL Reg.XSPI_CTL_EN = 1 ∧
    (devLoad .load 0xE00000 [(Reg.XSPI_STAT, 0x800000)]).fl Reg.XSPI_STAT Reg.XSPI_STAT_BUSY = 1 ∧
    (devLoad .store Reg.CHN_DRAIN []).islandRuns 8 = true ∧ (devLoad .store Reg.CHN_DRAIN []).isManager = true ∧
    ((devLoad .store Reg.CHN_DRAIN []).th 0).replay = [] ∧ (devLoad .load Reg.CHN_SEQ []).older 0 (devAcc .load Reg.CHN_SEQ) = [] := by
  decide +kernel

/-- A state in which participants 0 to 13 have answered OK (R529), with a load of CHN_SEQ at the spine. -/
def resting0 : State := sets (devLoad .load Reg.CHN_SEQ []) [(Reg.PWR_PSSTAT, Reg.PWR_PSSTAT_BUSY, 1), (Reg.PWR_PSVOTE, fullF, 0x3FFF)]

theorem wit_resting : resting0.entering = true ∧ (∀ p < 14, resting0.resting p = true) ∧ ((resting0.en 0).spine[0]?).isSome ∧
    region Reg.CHN_SEQ = .dev ∧ resting0.restAt (ownView (.thread 0) Reg.CHN_SEQ) = true ∧ resting0.closed Reg.CHN_SEQ = false ∧
    resting0.regRuns Reg.CHN_SEQ true = true ∧ crosses Reg.CHN_SEQ = false := by
  decide +kernel

/-- A replayed load of SYS_ID that has not its outcome. -/
def replaying : State :=
  { devLoad .load Reg.SYS_ID [] with
    thr := [(0, { kth (cx 0x900000 []) with replay := [{ ac := devAcc .load Reg.SYS_ID, out := .wait, depth := 0 }] })] }

theorem wit_replay : replaying.restAt Reg.SYS_ID = false ∧
    (replaying.th 0).replay.map (fun r => r.ac.id) = [7] ∧ (replaying.th 0).infl = [] ∧ replaying.maySend 0 (devAcc .load Reg.SYS_ID) = true ∧
    strPort Reg.SYS_ID = none ∧ crosses Reg.SYS_ID = false ∧ replaying.regRuns Reg.SYS_ID true = true ∧
    replaying.loadReg (.thread 0) Reg.SYS_ID = (replaying, 0x412811) := by
  refine ⟨?_, ?_, ?_, ?_, ?_, ?_, ?_, ?_⟩
  iterate 7 decide +kernel
  rfl

/-- Strand 5 with a push waiting, or a packet whose payload is awaited. -/
def full5 : State := { run0 [] with str := [(5, { Strand.empty with waiting := [(.thread 0, 7, none)] })] }
def payload5 : State := { (run0 []).wr (Reg.STR_sCFG 5) 0xC01000 with str := [(5, { Strand.empty with remain := 2 })] }

theorem wit_strand_timeouts : (∀ c < 4, full5.watches 5 c = []) ∧ full5.atPort 0 0 5 .store = false ∧ (full5.strand 5).waiting.length = 1 ∧
    payload5.atPort 0 0 5 .load = false ∧ payload5.fl (Reg.STR_sCFG 5) Reg.STR_sCFG_EN = 1 ∧ payload5.fl (Reg.STR_sCFG 5) Reg.STR_sCFG_DST = 0 ∧
    payload5.fl (Reg.STR_sCFG 5) Reg.STR_sCFG_FMT = 1 ∧ payload5.fl (Reg.STR_sCFG 5) Reg.STR_sCFG_TO ≠ 0 ∧ (payload5.strand 5).remain ≠ 0 := by
  decide +kernel

/-- The watchdog armed, or with a minimum; an escalation under way at tick `n`. -/
def escal (n : Nat) : State :=
  { runs 0 [(Reg.FLT_STAT, 0xA00000)] with flt := { FltSt.init with escAt := n } }
def escOver : State := let s := escal 0; { s with time := { s.time with ticks := 100000000 } }

theorem wit_watchdog : ((runs 0 []).fl Reg.SYS_WDCTL Reg.SYS_WDCTL_DBGFRZ = 0 ∨ (runs 0 []).frozen = false) ∧ (runs 0 []).sys.warned = false ∧
    ({ runs 0 [] with sys := { SysSt.init with warned := true } } : State).sys.warned = true ∧
    1024 * max 1 ((runs 0 []).fl Reg.SYS_WDCTL Reg.SYS_WDCTL_TO) < 2 ^ 24 ∧
    (0#24).toNat < 1024 * (runs 0 [(Reg.SYS_WDCTL, 0x800240)]).fl Reg.SYS_WDCTL Reg.SYS_WDCTL_MIN ∧
    ¬ (0xFFFFFF#24).toNat < 1024 * (runs 0 [(Reg.SYS_WDCTL, 0x800240)]).fl Reg.SYS_WDCTL Reg.SYS_WDCTL_MIN ∧
    escOver.flt.escAt + 100 * escOver.fl Reg.FLT_CTL Reg.FLT_CTL_ESCDLY ≤ escOver.time.ticks ∧ escOver.fl Reg.FLT_STAT Reg.FLT_STAT_ESC = 1 ∧
    (escal 0).fl Reg.FLT_STAT Reg.FLT_STAT_ESC = 1 ∧ (escal 0).time.locked = true ∧
    ¬ (escal 0).flt.escAt + 100 * (escal 0).fl Reg.FLT_CTL Reg.FLT_CTL_ESCDLY ≤ (escal 0).time.ticks := by
  decide +kernel

theorem wit_tap_acts : (loupe 0 0 LoupeSt.init []).lock = 0 ∧ (({ loupe 1 0 LoupeSt.init [] with lp := { LoupeSt.init with ir := 3 } } : State).lp.ir = 3) ∧
    (loupe 2 0 LoupeSt.init []).bz.check = none ∧ (loupe 2 2 LoupeSt.init []).pwr.state = 2 ∧ (loupe 1 0 LoupeSt.init []).fl Reg.SYS_DBG Reg.SYS_DBG_LCID = 0 := by
  decide +kernel

/-- The registers whose write every state takes, with their groups. -/
theorem wit_plain_registers : ∀ q ∈ [Reg.SYS_KRESUME, Reg.FLT_CTL, Reg.ASY_GUARD, Reg.LP_MAILOUT, Reg.ENG_STALL 5, Reg.EVI_TtXVEC 3 1],
    (regGroup q).isSome ∧ region q = .dev ∧ devExists q = true ∧ strPort q = none ∧ (runs 0 []).regRuns q true = true := by
  decide +kernel

theorem wit_device_write_more : ((runs 0 []).th 0).bind.prv = true ∧ (cap0.th 0).bind.prv = false ∧
    (regGroup Reg.PREC_BEXCTL).map (fun g => decide (g.lim Reg.PREC_BEXCTL = 0xFFFFFF)) = some true ∧ Reg.SYS_ID ∉ moving.dl.xfer := by
  decide +kernel

theorem wit_plain_write (v : Word) : ∃ g, regGroup Reg.FLT_CTL = some g ∧ (runs 0 []).storeBody (.thread 0) Reg.FLT_CTL v = (runs 0 []).plainWrite g Reg.FLT_CTL v :=
  ⟨_, rfl, rfl⟩

theorem wit_device_access_more : ((devLoad .load 0xF00000 []).th 0).haltReq = 0 ∧ ((devLoad .load 0xF00000 []).th 0).stepping = false ∧ wait0.lb = .none ∧
    ((devLoad .store Reg.CHN_DRAIN []).th 0).mode = .run ∧ ((devLoad .load 0xF00000 []).th 0).depth < 16 ∧ wait0.snap.slot = none ∧
    ((devLoad .load Reg.CHN_SEQ []).th 0).ctx.pend = [(3, 7)] ∧ (devLoad .load 0xE00000 [(Reg.XSPI_CTL, 0x800000)]).fl Reg.XSPI_STAT Reg.XSPI_STAT_BUSY = 0 ∧
    (devLoad .load Reg.CHN_DRAIN []).maySend 0 (devAcc .load Reg.CHN_DRAIN) = true := by
  decide +kernel

/-- What a load of SYS_ID gives rests on the registers alone. -/
theorem wit_replay_word : ∀ u : State, (∀ r, u.rd r = replaying.rd r) → u.loadReg (.thread 0) Reg.SYS_ID = (u, 0x412811) := by
  intro u h
  have e : ∃ g, u.loadReg (.thread 0) Reg.SYS_ID = (u, u.plainRead g Reg.SYS_ID) ∧
      (∀ s : State, s.rd Reg.SYS_ID = 0x412811 → s.plainRead g Reg.SYS_ID = 0x412811) :=
    ⟨_, rfl, fun s hs => by simp only [State.plainRead, hs]; decide⟩
  obtain ⟨g, e, hg⟩ := e
  rw [e, hg u ((h _).trans (by decide +kernel))]

theorem wit_strand_timeouts_more : (payload5.strand 5).items = [] ∧ (payload5.strand 5).atHead = false ∧ (∀ c < 4, payload5.watches 5 c = []) := by
  decide +kernel

theorem wit_canonical : State.reset.canon ∧ ∃ t, step State.reset = .next t := ⟨⟨by decide +kernel, by decide +kernel, by decide +kernel, by decide +kernel⟩, _, rfl⟩

theorem wit_floor : (1 : Fin 16384).val ≠ 0 ∧ State.reset.planLevel 8 = 7 := by decide +kernel

/-! ### The well-formedness check refuses each kind of ill-formed command -/

theorem test_wf_register_fields : Instr.wf (.clz 0 1 2 3) = false ∧ Instr.wf (.clz 0 1 2 0) = true ∧ Instr.wf (.li 0 1 2 7) = false ∧
    Instr.wf (.jr 0 1 2) = false ∧ Instr.wf (.jl 0 0 1 5) = false ∧ Instr.wf (.wfe 0 0 1) = false := by decide

theorem test_wf_pairs : Instr.wf (.ldp 0 3 1 0) = false ∧ Instr.wf (.ldp 0 4 1 0) = true ∧ Instr.wf (.waitt 0 0 3) = false ∧
    Instr.wf (.rdt 0 3 0) = false := by decide

theorem test_wf_post_modify : Instr.wf (.ldPostModify 0 5 5 1) = false ∧ Instr.wf (.ldpPostModify 0 4 5 1) = false ∧
    Instr.wf (.ldPostModify 0 4 5 1) = true ∧ Instr.wf (.ldPostModify 0 0 0 1) = true := by decide

theorem test_wf_ranges : Instr.wf (.slli 0 1 2 24) = false ∧ Instr.wf (.slli 0 1 2 23) = true ∧ Instr.wf (.extu 0 1 2 20 4) = false ∧
    Instr.wf (.extu 0 1 2 20 3) = true ∧ Instr.wf (.mpy 0 2 1 1) = false ∧ Instr.wf (.adda 0 1 2) = false ∧
    Instr.wf (.asha 0 1 1 49) = false ∧ Instr.wf (.asha 0 1 1 48) = true ∧ Instr.wf (.rnds 0 1 1 25) = false := by decide

theorem test_wf_immediates : Instr.wf (.sev 0 0 32) = false ∧ Instr.wf (.sev 0 0 31) = true ∧ Instr.wf (.sevl 0 0 1) = false ∧
    Instr.wf (.ckpt 0 1 64) = false := by decide

theorem test_wf_registers_of_units : Instr.wf (.registerWrite (.thread 0) 0xEFFFFF 0) = false ∧ Instr.wf (.registerWrite (.thread 0) 0xF00000 0) = true ∧
    Instr.wf (.keyw 22 0) = false ∧ Instr.wf (.wrreg 0 32 0) = false ∧ Instr.wf (.wrreg 0 33 0) = true ∧ Instr.wf (.rdreg 0 34) = false := by decide

theorem test_table_gives_no_bits : decodeTableWord 24 0x123456 = none ∧ State.withFetchWord State.reset 24 0x123456 = State.reset := by
  exact ⟨rfl, rfl⟩

/-! ### What the spec works out by hand -/

/-- Chapter 3, long-form operations: lui g3, 0x48D, then ori g3, g3, 0x056, make 0x123456; li g3 does so at once. -/
theorem test_lui : greg (get (exec (.lui 0 3 0x48D) (run0 []))) 3 = 0x123400 := by decide +kernel
theorem test_ori : greg (get (exec (.ori 0 3 3 0x056) (run0 [(3, 0x123400)]))) 3 = 0x123456 := by decide +kernel
theorem test_li : greg (get (exec (.li 0 3 0 0x123456) (run0 []))) 3 = 0x123456 := by decide +kernel

/-- T0 with accumulator 0 holding `a`. -/
def acc (a : BitVec 56) (g : SMap Word) : State := one (kth { cx 0x900000 g with a0 := a })

/-- Chapter 4, the interpolation of 0x5A3C00: mac adds 0x0F0000 × 0x080000 × 2 to 0.5, rnd gives 0x40F000. -/
theorem test_mac : ((get (exec (.mac 0 0 1 2) (acc 0x400000000000 [(1, 0x0F0000), (2, 0x080000)]))).th 0).ctx.a0 = 0x40F000000000 := by decide +kernel
theorem test_rnd : greg (get (exec (.rnd 0 5 0) (acc 0x40F000000000 []))) 5 = 0x40F000 := by decide +kernel
theorem test_mtah : ((get (exec (.mtah 0 0 1) (acc 7 [(1, 0x400000)]))).th 0).ctx.a0 = 0x400000000000 := by decide +kernel

/-- Chapter 6: capsule 37 with root 0x03F000 reaches 0x96A515 from 0x02A515. -/
def capsule37 : State :=
  { State.reset with
    mem := [(0x03F001, .good 0x03F081), (0x03F0A9, .good 0x96A40E)]
    bz := { caps := [(37, { Capsule.empty with live := [(0, 0x600000), (1, 0x03F000)] })], check := none } }
theorem test_walk : (capsule37.walk 37 0x02A515 0).2 = .entry { cid := 37, block := false, vpn := 0xA9, base := 0x96A400, perms := 3 } ∧
    (match tcAddr { cid := 37, block := false, vpn := 0xA9, base := 0x96A400, perms := 3 } .store 0x02A515 with
      | .ok a => a | .error _ => 0) = 0x96A515 := by decide +kernel

/-- Chapter 5: the slot of a taken branch at 0x000240 raises XLATE on 0x00A400, whose page is not mapped. -/
def vent : State :=
  { oneC (cth { cx 0x000241 [(4, 5), (7, 0x00A400)] with slot := some { xferAt := 0x000240, long := false, target := some 0x000300, link := none } }) with
    bz := { caps := [(1, { Capsule.empty with live := [(0, 0x600000), (1, 0x03F000)] })], check := none }
    mem := [(0x03F000, .good 0)] }
theorem test_delay_slot_fault : ((get (exec (.ld 0 6 7 0) vent)).th 0).levels.map (fun l => (l.xpc, l.xtgt, l.xcause, l.xaddr)) =
    [(0x000240, 0x000300, 0x000105, 0x00A400)] := by decide +kernel

/-- Chapter 6: at PL7 and a sum of 10,000, capsule 40's request for 400 falls short by 160. -/
theorem test_reservation_short :
    (((sets State.reset [(Reg.MEMC_RSUM, Reg.MEMC_RSUM_SUM, 10000)]).resvRequest 40 400 2).1.rd Reg.MEMC_RSTAT).toNat = 2 ^ 23 + 160 := by decide +kernel

/-- Chapter 6: a fall to PL5 demotes diagnostics (30) and telemetry (21) and no other. -/
def rates : State :=
  { sets State.reset [(Reg.MEMC_RSUM, Reg.MEMC_RSUM_SUM, 10000)] with
    memc := { State.reset.memc with
      resv := [(0, 800, 0), (11, 1200, 6), (12, 1200, 6), (13, 1200, 6), (14, 1200, 6), (20, 1500, 3), (21, 2000, 1), (30, 900, 0)].map
        (fun x => (x.1, { rate := x.2.1, cls := x.2.2, adm := true, dem := false, tokens := 0 })) } }
theorem test_demotion : ((rates.demoteFor 5).memc.resv.filter (fun p => p.2.dem)).map (fun p => p.1) = [21, 30] ∧
    (rates.demoteFor 5).fl Reg.MEMC_RSUM Reg.MEMC_RSUM_SUM = 7100 := by decide +kernel

/-- Chapter 9: the header of channel 3's sample 0x2A is 0x119503. Chapter 10: that of SAR input 5 at sequence 0x10 is 0x1C0803. -/
theorem test_prec_header : (((get (exec (.precSample 3 0x012345 false true 1) (prec3 0x801060 0 0x040000 0x800000))).bqGet 3).map (fun x => x.w)).head? =
    some 0x119503 := by decide +kernel
theorem test_sar_header : (sampleWords true 24 0x10 0 0 0).head? = some 0x1C0803 := by decide +kernel

/-- Chapter 17: C2's PL7 adder at 15 mV at hour 52,000 and at 20 mV at hour 61,000 projects to hour 115,000. -/
def aged : State :=
  { (State.reset).wr (Reg.ASY_MPdp 2 7) 0x040000 with sys := { SysSt.init with hist := [(46, 52000), (47, 61000)] } }
theorem test_projection : aged.projected 2 7 = some 115000 := by decide +kernel

/-- FIPS 180-4's SHA-256 of the bytes 1, 2, 3, computed outside the model. -/
theorem test_sha256 : Crypto.packBytes (Crypto.sha256 [1, 2, 3]) = [0x039058, 0xC6F2C0, 0xCB492C, 0x533B0A, 0x4D14EF, 0x77CC0F, 0x78ABCC,
    0xCED528, 0x7D84A1, 0xA2011C, 0xFB8100] := by decide +kernel

/-- Chapter 19, the ball table: where a line of balls breaks off and goes on, and how many balls the large rails have. -/
theorem test_balls : Pad.ball (.ainp 7) = (.a, 15) ∧ Pad.ball (.ainn 7) = (.a, 16) ∧ Pad.ball (.gh 5) = (.j, 6) ∧ Pad.ball (.sol 9) = (.m, 16) ∧
    Pad.ball (.uartRx 2) = (.aa, 12) ∧ Rail.count .agnd = 30 ∧ Rail.count .pgnd = 24 ∧ Rail.count .gnd = 54 ∧ Rail.count .vcore = 20 := by decide

/-- Chapter 19: asleep the CAN output has its pull-up and the gates are clamped; a UART's output is high-impedance until it is enabled. -/
theorem test_pads : (supply { PwrSt.init with state := 3 } []).pad (.canTx 1) = .hiZ .up ∧ (supply { PwrSt.init with state := 3 } []).pad (.gh 0) = .clampSw ∧
    (run0 []).pad (.uartTx 3) = .hiZ .up ∧ (serial 0x800008 0 UartSt.init SpiSt.init).pad (.uartTx 3) = .driven := by decide +kernel

end Sys2Proof.Tests
end

namespace Sys2Proof.Machine
open Sys2Proof

/-! ### The state after reset -/

/-- Where nothing has been written, a register reads as its reset value. -/
theorem State.reset_rd (a : Nat) : State.reset.rd a = regReset a := rfl

/-- The one register of the engines whose reset value depends on the engine: the boot thread's EN stands in engine 0 alone (R81). -/
theorem regReset_tctl : regReset (Reg.ENG_TCTL 0) = 1 ∧ ∀ e < 128, e ≠ 0 → regReset (Reg.ENG_TCTL e) = 0 := by decide +kernel

/-- Every thread but the boot thread is OFF after reset (R81). -/
theorem State.reset_th_ne (k : Nat) (h : k ≠ 0) : State.reset.th k = Thread.off := if_neg (Ne.symm h)

theorem State.reset_canon : State.reset.canon :=
  ⟨rfl, rfl, by decide +kernel, rfl⟩

/-- Settles O58. -/
theorem resetValues : Obligations.ResetValues := by
  unfold Obligations.ResetValues
  have hvals : State.reset.rd Reg.SYS_ID = 0x412811 ∧ State.reset.rd Reg.SYS_RCAUSE = 0x800000 ∧ State.reset.rd Reg.SYS_WDCTL = 0xA00040 ∧
      State.reset.rd Reg.CHN_TCTL = 0x800000 ∧ State.reset.rd Reg.HOLD_CTL = 0x400F28 ∧ (∀ d < 9, State.reset.rd (Reg.PWR_PLn d) = 0xFC0007) ∧
      State.reset.lock = 0 := by decide +kernel
  obtain ⟨h1, h2, h3, h4, h5, h6, h7⟩ := hvals
  exact ⟨State.reset_rd, h1, h2, h3, h4, h5, h6, regReset_tctl.1, regReset_tctl.2, rfl, rfl, rfl, rfl, State.reset_th_ne, fun _ => rfl, rfl, rfl, rfl,
    rfl, rfl, rfl, h7, fun _ => rfl, State.reset_canon⟩
end Sys2Proof.Machine

namespace Sys2Proof.Machine
open Sys2Proof

/-! ### Writes of registers without behaviour (R6–R8, R634) -/

/-- A bit after a plain write of a register whose index limits no field (R6–R8): a writable bit is taken, a W1C bit is cleared by 1, any
other is left. -/
theorem State.plainWrite_getLsbD (s : State) (g : RegGroup) (r : Nat) (v : Word) (hl : g.lim r = 0xFFFFFF) {b : Nat} (hb : b < 24) :
    ((s.plainWrite g r v).rd r).getLsbD b =
      if (g.rw ||| g.krw ||| g.k ||| g.rws).testBit b then v.getLsbD b
      else (s.rd r).getLsbD b && !(g.w1c.testBit b && v.getLsbD b) := by
  have hall : (0xFFFFFF : Word) = BitVec.allOnes 24 := rfl
  rw [State.plainWrite, State.rd_wr_eq, hl, hall, BitVec.and_allOnes]
  simp only [BitVec.getLsbD_or, BitVec.getLsbD_and, BitVec.getLsbD_not, BitVec.getLsbD_ofNat, hb, decide_true, Bool.true_and]
  split
  · next h => simp [h]
  · next h => simp [h]

/-- The register at `r`, of group `g`, has been written with `v`, and nothing else has changed but that a changed setting of a split block
waits for its transfer. -/
def State.written (s : State) (v : Word) (g : RegGroup) (r : Nat) (t : State) : Prop :=
  s.outside t ∧ s.regsBut t [r] ∧ t.ev = s.ev ∧ t.time = s.time ∧
  (∀ b < 24, (g.rw ||| g.krw ||| g.k ||| g.rws).testBit b = true → (t.rd r).getLsbD b = v.getLsbD b) ∧
  (∀ b < 24, (g.rw ||| g.krw ||| g.k ||| g.rws).testBit b = false →
    (t.rd r).getLsbD b = ((s.rd r).getLsbD b && !(g.w1c.testBit b && v.getLsbD b))) ∧
  (splitBlock r = true → isSetting r = true → t.rd r ≠ s.rd r → r ∈ t.dl.xfer) ∧
  (splitBlock r = false ∨ t.rd r = s.rd r → t.dl = s.dl)

/-- Of the state after a write the die link takes note alone. -/
theorem State.sends_eq (s : State) (r : Nat) (t : State) : ∃ d, s.sends r t = { t with dl := d } := by
  unfold State.sends
  split
  · exact ⟨_, rfl⟩
  · exact ⟨t.dl, rfl⟩

/-- A changed setting of a split block waits for its transfer (R634). -/
theorem State.mem_xfer_sends (s : State) (r : Nat) (t : State) (hs : splitBlock r = true) (hi : isSetting r = true) (hr : t.rd r ≠ s.rd r) :
    r ∈ (s.sends r t).dl.xfer := by
  by_cases hx : r ∈ t.dl.xfer
  · simp [State.sends, hx]
  · simp [State.sends, hs, hi, hr, hx]

/-- What is no changed register of a split block sends nothing (R634). -/
theorem State.sends_same (s : State) (r : Nat) (t : State) (h : splitBlock r = false ∨ t.rd r = s.rd r) : s.sends r t = t := by
  obtain h | h := h <;> simp [State.sends, h]

theorem State.written_sends (s : State) (g : RegGroup) (r : Nat) (v : Word) (hl : g.lim r = 0xFFFFFF) :
    s.written v g r (s.sends r (s.plainWrite g r v)) := by
  have hbit := fun b (hb : b < 24) => State.plainWrite_getLsbD s g r v hl hb
  have hx := State.mem_xfer_sends s r (s.plainWrite g r v)
  have hn := State.sends_same s r (s.plainWrite g r v)
  obtain ⟨d, hd⟩ := State.sends_eq s r (s.plainWrite g r v)
  rw [hd] at hx hn ⊢
  refine ⟨⟨rfl, rfl, rfl, rfl, rfl, rfl⟩, ?_, rfl, rfl, ?_, ?_, hx, ?_⟩
  · intro q hq
    exact State.rd_wr_ne s _ (Ne.symm (by simpa using hq))
  · intro b hb h
    exact (hbit b hb).trans (if_pos h)
  · intro b hb h
    exact (hbit b hb).trans (if_neg (by simp [h]))
  · intro h
    exact (congrArg State.dl (hn h)).trans rfl

/-- The register write of a thread, where the address is a device register in reach. -/
theorem exec_registerWrite_dev (k : Nat) (a v : BitVec 24) (s : State) {r : Nat} (hv : ownView (.thread k) a.toNat = r) (hr : region a.toNat = .dev)
    (he : devExists a.toNat = true) (hc : s.regRuns r true = true) :
    exec (.registerWrite (.thread k) a v) s = .next (s.devStore (.thread k) false r r v 0 false false).1 := by
  show execRegisterWrite _ a v s = _
  simp [execRegisterWrite, hv, hr, he, hc]

/-- A capsule's write to a register that holds a privileged field changes nothing (R6, R633). -/
theorem State.devStore_capsule (s : State) {k r : Nat} {g : RegGroup} (v : Word) (hg : regGroup r = some g) (hp : strPort r = none)
    (hb : (s.th k).bind.prv = false) (hk : g.k ≠ 0 ∨ g.krw ≠ 0) : (s.devStore (.thread k) false r r v 0 false false).1 = s := by
  have hm : s.mayStore (.thread k) r = false := by
    simp only [State.mayStore, State.isKeeper, hb, hg, Bool.false_or, decide_eq_false_iff_not]
    omega
  by_cases hr : s.restAt r = true
  · simp [State.devStore, hr]
  · simp [State.devStore, hr, hp, hm]

/-- A keeper's write to a register without behaviour is a plain write (R7). -/
theorem State.devStore_keeper (s : State) {k r : Nat} {g : RegGroup} {v : Word} (hp : strPort r = none) (hb : (s.th k).bind.prv = true)
    (hr : s.restAt r = false) (hw : s.storeBody (.thread k) r v = s.plainWrite g r v) :
    (s.devStore (.thread k) false r r v 0 false false).1 = s.sends r (s.plainWrite g r v) := by
  have hm : s.mayStore (.thread k) r = true := by simp [State.mayStore, State.isKeeper, hb]
  simp [State.devStore, hr, hp, hm, State.storeReg, hw]

theorem registerWrite_capsule {k : Fin 512} {a v : BitVec 24} {g : RegGroup} {s : State} (hr : region a.toNat = .dev) (he : devExists a.toNat = true)
    (hc : s.regRuns (ownView (.thread k) a.toNat) true = true) (hg : regGroup (ownView (.thread k) a.toNat) = some g)
    (hp : strPort (ownView (.thread k) a.toNat) = none) (hb : (s.th k).bind.prv = false) (hk : g.k ≠ 0 ∨ g.krw ≠ 0) :
    Gives (.registerWrite (.thread k) a v) s (fun t => t = s) :=
  ⟨_, exec_registerWrite_dev k a v s rfl hr he hc, State.devStore_capsule s v hg hp hb hk⟩

theorem registerWrite_keeper {k : Fin 512} {a v : BitVec 24} {g : RegGroup} {r : Nat} {s : State} (hv : ownView (.thread k) a.toNat = r)
    (hr : region a.toNat = .dev) (he : devExists a.toNat = true) (hc : s.regRuns r true = true) (hp : strPort r = none)
    (hb : (s.th k).bind.prv = true) (hq : s.restAt r = false) (hw : s.storeBody (.thread k) r v = s.plainWrite g r v)
    (hl : g.lim r = 0xFFFFFF) : Gives (.registerWrite (.thread k) a v) s (s.written v g r) := by
  refine ⟨_, exec_registerWrite_dev k a v s hv hr he hc, ?_⟩
  rw [State.devStore_keeper s hp hb hq hw]
  exact State.written_sends s g r v hl

/-- A register that no island's clock and no resting participant keeps from the keeper's plain write. -/
def alwaysPlain (q : Nat) : Prop :=
  region (BitVec.ofNat 24 q).toNat = .dev ∧ devExists (BitVec.ofNat 24 q).toNat = true ∧ strPort q = none ∧
  (∀ k, ownView (.thread k) (BitVec.ofNat 24 q).toNat = q) ∧
  ∃ h, regGroup q = some h ∧ h.lim q = 0xFFFFFF ∧
    ∀ s : State, s.regRuns q true = true ∧ s.restAt q = false ∧ ∀ who v, s.storeBody who q v = s.plainWrite h q v

theorem alwaysPlain_of_mem : ∀ q ∈ [Reg.SYS_KRESUME, Reg.FLT_CTL, Reg.ASY_GUARD, Reg.LP_MAILOUT, Reg.ENG_STALL 5, Reg.EVI_TtXVEC 3 1],
    alwaysPlain q := by
  simp only [List.forall_mem_cons]
  refine ⟨?_, ?_, ?_, ?_, ?_, ?_, by simp⟩
  all_goals exact ⟨rfl, rfl, rfl, fun _ => rfl, _, rfl, rfl, fun _ => ⟨rfl, rfl, fun _ _ => rfl⟩⟩

end Sys2Proof.Machine

namespace Sys2Proof.Machine
open Sys2Proof

/-! ### The fault log and the faults of the die link (R560, R568, R570) -/

/-- What a log leaves alone: the fabric, the die link, the power state. -/
def State.besideLog (s t : State) : Prop := s.outside t ∧ t.dl = s.dl ∧ t.pwr = s.pwr

theorem State.besideLog_trans {s t u : State} (h : s.besideLog t) (g : t.besideLog u) : s.besideLog u := by
  simp_all [State.besideLog, State.outside]

theorem State.besideLog_raise (s : State) (ev : Nat) : s.besideLog (s.raise ev) := by simp [State.besideLog, State.outside]

theorem State.besideLog_wr (s : State) (a : Nat) (v : Word) : s.besideLog (s.wr a v) := ⟨⟨rfl, rfl, rfl, rfl, rfl, rfl⟩, rfl, rfl⟩

theorem State.besideLog_faultLog (s : State) (kind thread detail : Nat) (info : Word) : s.besideLog (s.faultLog kind thread detail info) :=
  State.besideLog_trans (State.besideLog_trans (State.besideLog_trans (State.besideLog_trans (State.besideLog_wr _ _ _)
    (State.besideLog_wr _ _ _)) (State.besideLog_wr _ _ _)) (State.besideLog_wr _ _ _)) (State.besideLog_raise _ _)

/-- A router event that the fabric can carry enters the router. -/
theorem State.mem_router_raise (s : State) {ev : Nat} (h : eventIsland ev = none) (hp : s.pwr.state < 2) : ev ∈ (s.raise ev).ev.router := by
  rw [State.raise_router s ev hp h]
  exact List.mem_append_right _ (List.mem_singleton.mpr rfl)

/-- What stands in the router stays there when an event is raised. -/
theorem State.mem_router_raise_of_mem (s : State) (ev : Nat) {x : Nat} (h : x ∈ s.ev.router) : x ∈ (s.raise ev).ev.router := by
  unfold State.raise
  (repeat' split) <;> simp [h]

theorem State.mem_router_faultLog_of_mem (s : State) (kind thread detail : Nat) (info : Word) {x : Nat} (h : x ∈ s.ev.router) :
    x ∈ (s.faultLog kind thread detail info).ev.router := by
  unfold State.faultLog
  apply State.mem_router_raise_of_mem
  rw [State.sf_ev, State.wr_ev, State.wr_ev, State.wr_ev]
  exact h

/-- The registers that writing entry `i` of the fault log may change. -/
def logRegs (i : Nat) : List Nat := [Reg.FLT_LAi i, Reg.FLT_LBi i, Reg.FLT_LCi i, Reg.FLT_HEAD, Reg.EVR_MERGE, Reg.EVR_MLAST]

theorem mem_logRegs {i q : Nat} : q ∈ logRegs i ↔
    q = 0xF03440 + 4 * i ∨ q = 0xF03441 + 4 * i ∨ q = 0xF03442 + 4 * i ∨ q = 0xF03404 ∨ q = 0xF06000 ∨ q = 0xF06001 := by
  simp [logRegs]

/-- A raised event leaves every register below the router's block as it is. -/
theorem State.raise_rd_lt (s : State) (ev : Nat) {q : Nat} (h : q < 0xF06000) : (s.raise ev).rd q = s.rd q :=
  State.raise_rd s ev q (Nat.ne_of_lt h) (Nat.ne_of_lt (Nat.lt_succ_of_lt h))

theorem State.regsBut_faultLog (s : State) (kind thread detail : Nat) (info : Word) :
    s.regsBut (s.faultLog kind thread detail info) (logRegs (s.fl Reg.FLT_HEAD Reg.FLT_HEAD_HEAD)) := by
  intro q hq
  simp only [logRegs, List.mem_cons, List.not_mem_nil, or_false, not_or] at hq
  obtain ⟨ha, hb, hc, hh, hm, hl⟩ := hq
  unfold State.faultLog
  rw [State.raise_rd _ _ _ hm hl, State.rd_sf_ne _ _ _ (Ne.symm hh), State.rd_wr_ne _ _ (Ne.symm hc), State.rd_wr_ne _ _ (Ne.symm hb),
    State.rd_wr_ne _ _ (Ne.symm ha)]

/-- The head of the fault log names one of its 32 entries. -/
theorem State.logHead_lt (s : State) : s.fl Reg.FLT_HEAD Reg.FLT_HEAD_HEAD < 32 := getF_lt _ _

/-- What a fault-log entry holds (R570). -/
theorem State.rd_faultLog (s : State) (kind thread detail : Nat) (info : Word) :
    let i := s.fl Reg.FLT_HEAD Reg.FLT_HEAD_HEAD
    let t := s.faultLog kind thread detail info
    t.rd (Reg.FLT_LAi i) = w24 (2 ^ 23 + kind * 2 ^ 18 + (thread % 512) * 2 ^ 9 + detail % 512) ∧ t.rd (Reg.FLT_LBi i) = info := by
  have hi := State.logHead_lt s
  simp only [State.faultLog]
  generalize s.fl Reg.FLT_HEAD Reg.FLT_HEAD_HEAD = i at hi
  simp only [Reg.FLT_LAi, Reg.FLT_LBi, Reg.FLT_LCi, Reg.FLT_HEAD]
  constructor
  · rw [State.raise_rd_lt _ _ (by omega), State.rd_sf_ne _ _ _ (by omega), State.rd_wr_ne _ _ (by omega), State.rd_wr_ne _ _ (by omega),
      State.rd_wr_eq]
  · rw [State.raise_rd_lt _ _ (by omega), State.rd_sf_ne _ _ _ (by omega), State.rd_wr_ne _ _ (by omega), State.rd_wr_eq]

theorem State.fl_of_rd {s t : State} {a : Nat} (f : Fld) (h : t.rd a = s.rd a) : t.fl a f = s.fl a f := congrArg (fun w => getF w f) h

/-- The head of the fault log advances round its 32 entries (R570). -/
theorem State.logHead_faultLog (s : State) (kind thread detail : Nat) (info : Word) :
    (s.faultLog kind thread detail info).fl Reg.FLT_HEAD Reg.FLT_HEAD_HEAD = (s.fl Reg.FLT_HEAD Reg.FLT_HEAD_HEAD + 1) % 32 := by
  unfold State.faultLog
  rw [State.fl_of_rd _ (State.raise_rd_lt _ _ (by decide)), State.fl_sf_eq _ _ _ _ (by decide)]
  exact Nat.mod_mod _ 32

/-- What an escalation is to whatever is beside the log (R568): nothing, or a log entry with the flags and the event of an escalation that
begins. -/
theorem State.escalate_beside (s : State) (code : Nat) (en : Fld) :
    let t := s.escalate code en
    s.besideLog t ∧ s.regsBut t (Reg.FLT_STAT :: logRegs (s.fl Reg.FLT_HEAD Reg.FLT_HEAD_HEAD)) ∧
    ∀ ev ∈ s.ev.router, ev ∈ t.ev.router := by
  have hb := State.besideLog_faultLog s 11 0x1FF code 0
  have hq := State.regsBut_faultLog s 11 0x1FF code 0
  have he := fun ev (h : ev ∈ s.ev.router) => State.mem_router_faultLog_of_mem s 11 0x1FF code 0 h
  simp only [State.escalate]
  generalize s.faultLog 11 0x1FF code 0 = u at hb hq he
  have hu : s.regsBut u (Reg.FLT_STAT :: logRegs (s.fl Reg.FLT_HEAD Reg.FLT_HEAD_HEAD)) := fun q h => hq q (List.not_mem_of_not_mem_cons h)
  split
  · split
    · exact ⟨hb, hu, he⟩
    · refine ⟨State.besideLog_trans hb (by simp [State.besideLog, State.outside]), ?_, ?_⟩
      · intro q h
        have hn := h
        rw [List.mem_cons, mem_logRegs] at hn
        simp only [not_or] at hn
        obtain ⟨hs, -, -, -, -, hm, hl⟩ := hn
        rw [State.raise_rd _ _ _ hm hl, State.rd_sf_ne _ _ _ (Ne.symm hs), State.rd_sf_ne _ _ _ (Ne.symm hs)]
        exact hu q h
      · exact fun ev h => State.mem_router_raise_of_mem _ _ (he ev h)
  · exact ⟨⟨⟨rfl, rfl, rfl, rfl, rfl, rfl⟩, rfl, rfl⟩, fun _ _ => rfl, fun _ h => h⟩

/-- The fault of the die link that is logged, counted and raised (R560), before its escalation is judged. -/
def State.dieLinkNote (s : State) (accessor : Nat) (a : Word) : State :=
  ((s.faultLog 5 accessor 0 a).inc Reg.FLT_CNT0 Reg.FLT_CNT0_DL).raise 0x005

/-- With the times of the die-link faults of the last millisecond set to `l`. -/
def State.withDl (s : State) (l : List Nat) : State := { s with flt := { s.flt with dl := l } }

/-- A die-link fault is its note, with its time among those of the last millisecond, which may escalate (R560, R568). -/
theorem State.dieLinkFault_eq (s : State) (accessor : Nat) (a : Word) : ∃ l,
    s.dieLinkFault accessor a = (s.dieLinkNote accessor a).withDl l ∨
    s.dieLinkFault accessor a = ((s.dieLinkNote accessor a).withDl l).escalate 2 Reg.FLT_CTL_DLE := by
  unfold State.dieLinkFault
  simp only []
  split
  · exact ⟨_, .inr rfl⟩
  · exact ⟨_, .inl rfl⟩

/-- What a die-link fault without an instruction of its own leaves (R560): beside the fabric its log entry, its count and its event. -/
def State.dieLinkNoted (s : State) (accessor : Nat) (a : Word) (t : State) : Prop :=
  s.besideLog t ∧ t.fl Reg.FLT_CNT0 Reg.FLT_CNT0_DL = satInc (s.fl Reg.FLT_CNT0 Reg.FLT_CNT0_DL) 0xFFF ∧
  t.rd (Reg.FLT_LAi (s.fl Reg.FLT_HEAD Reg.FLT_HEAD_HEAD)) = w24 (2 ^ 23 + 5 * 2 ^ 18 + (accessor % 512) * 2 ^ 9) ∧
  t.rd (Reg.FLT_LBi (s.fl Reg.FLT_HEAD Reg.FLT_HEAD_HEAD)) = a ∧ (s.pwr.state < 2 → 0x005 ∈ t.ev.router)

theorem State.dieLinkNote_noted (s : State) (accessor : Nat) (a : Word) : s.dieLinkNoted accessor a (s.dieLinkNote accessor a) ∧
    (s.dieLinkNote accessor a).fl Reg.FLT_HEAD Reg.FLT_HEAD_HEAD = (s.fl Reg.FLT_HEAD Reg.FLT_HEAD_HEAD + 1) % 32 := by
  have hb := State.besideLog_faultLog s 5 accessor 0 a
  have hq := State.regsBut_faultLog s 5 accessor 0 a
  have hh := State.logHead_faultLog s 5 accessor 0 a
  obtain ⟨hla, hlb⟩ := State.rd_faultLog s 5 accessor 0 a
  have hi := State.logHead_lt s
  unfold State.dieLinkNoted State.dieLinkNote
  generalize s.faultLog 5 accessor 0 a = u at hb hq hh hla hlb
  generalize s.fl Reg.FLT_HEAD Reg.FLT_HEAD_HEAD = i at hq hh hla hlb hi
  have hrd : ∀ q, q < 0xF06000 → q ≠ 0xF03405 → ((u.inc Reg.FLT_CNT0 Reg.FLT_CNT0_DL).raise 0x005).rd q = u.rd q := fun q h hn =>
    (State.raise_rd_lt _ _ h).trans (State.rd_inc_ne _ _ (Ne.symm hn))
  have hcnt : u.rd Reg.FLT_CNT0 = s.rd Reg.FLT_CNT0 := hq _ (by rw [mem_logRegs, Reg.FLT_CNT0]; omega)
  refine ⟨⟨State.besideLog_trans hb (by simp [State.besideLog, State.outside]), ?_, ?_, ?_, ?_⟩, ?_⟩
  · rw [State.fl_of_rd _ (State.raise_rd_lt _ _ (by decide)), State.fl_inc_eq _ _ _ (by decide), State.fl_of_rd _ hcnt]
    rfl
  · rw [hrd _ (by rw [Reg.FLT_LAi]; omega) (by rw [Reg.FLT_LAi]; omega), hla]
    rfl
  · rw [hrd _ (by rw [Reg.FLT_LBi]; omega) (by rw [Reg.FLT_LBi]; omega), hlb]
  · exact fun hp => State.mem_router_raise _ rfl (show u.pwr.state < 2 from hb.2.2 ▸ hp)
  · rw [State.fl_of_rd _ (hrd _ (by decide) (by decide)), hh]

/-- The entry of a die-link fault stands also behind that of an escalation, which takes the next place of the log. -/
theorem State.dieLinkFault_noted (s : State) (accessor : Nat) (a : Word) : s.dieLinkNoted accessor a (s.dieLinkFault accessor a) := by
  obtain ⟨⟨hb, hc, hla, hlb, hv⟩, hh⟩ := State.dieLinkNote_noted s accessor a
  obtain ⟨l, he⟩ := State.dieLinkFault_eq s accessor a
  have hi := State.logHead_lt s
  generalize s.dieLinkNote accessor a = u at hb hc hla hlb hv hh he
  obtain he | he := he
  · rw [he]
    exact ⟨hb, hc, hla, hlb, hv⟩
  · obtain ⟨gb, gq, gv⟩ := State.escalate_beside (u.withDl l) 2 Reg.FLT_CTL_DLE
    have hn : (u.withDl l).fl Reg.FLT_HEAD Reg.FLT_HEAD_HEAD = (s.fl Reg.FLT_HEAD Reg.FLT_HEAD_HEAD + 1) % 32 := hh
    rw [← he] at gb gq gv
    rw [hn] at gq
    unfold State.dieLinkNoted
    generalize s.fl Reg.FLT_HEAD Reg.FLT_HEAD_HEAD = i at gq hla hlb hi
    refine ⟨State.besideLog_trans hb gb, (State.fl_of_rd _ (gq _ ?_)).trans hc, (gq _ ?_).trans hla, (gq _ ?_).trans hlb,
      fun hp => gv _ (hv hp)⟩
    all_goals
      simp only [List.mem_cons, mem_logRegs, Reg.FLT_CNT0, Reg.FLT_LAi, Reg.FLT_LBi, Reg.FLT_STAT]
      omega

/-! ### The transfer of a setting (R634) -/

theorem analogSettingTransfer_arrives {a : BitVec 24} {s : State} (h : a.toNat ∈ s.dl.xfer) :
    exec (.analogSettingTransfer a true) s = .next { s with dl :=
      { xfer := s.dl.xfer.filter (fun x => decide (x ≠ a.toNat)), held := SMap.set (regReset a.toNat) s.dl.held a.toNat (s.rd a.toNat) } } := by
  show execAnalogSettingTransfer a true s = _
  simp [execAnalogSettingTransfer, h]

theorem analogSettingTransfer_fails {a : BitVec 24} {s : State} (h : a.toNat ∈ s.dl.xfer) :
    exec (.analogSettingTransfer a false) s = .next (s.dieLinkFault 0x1FF a) := by
  show execAnalogSettingTransfer a false s = _
  simp [execAnalogSettingTransfer, h]

theorem analogSettingTransfer_none {a : BitVec 24} {s : State} (h : a.toNat ∉ s.dl.xfer) (ok : Bool) :
    exec (.analogSettingTransfer a ok) s = .next s := by
  show execAnalogSettingTransfer a ok s = _
  simp [execAnalogSettingTransfer, h]

end Sys2Proof.Machine

namespace Sys2Proof.Machine
open Sys2Proof

/-! ### What the end of an access may change (R49, R73, R106) -/

/-- Work for thread `k` that leaves memory, the other threads, the link and the communication blocks, the accesses of engine `e`, and the
registers alone, but for the loop-buffer count of the thread's engine. -/
structure State.aside (s t : State) (k e : Nat) : Prop where
  mem   : t.mem = s.mem
  chn   : t.chn = s.chn
  comm  : t.comm = s.comm
  rd    : ∀ r, r ≠ Reg.ENG_LBFILL (k / 4) → t.rd r = s.rd r
  th    : ∀ j, j ≠ k → t.th j = s.th j
  spine : (t.en e).spine = (s.en e).spine

theorem State.aside.trans {s t u : State} {k e : Nat} (h : s.aside t k e) (g : t.aside u k e) : s.aside u k e where
  mem := g.mem.trans h.mem
  chn := g.chn.trans h.chn
  comm := g.comm.trans h.comm
  rd r hr := (g.rd r hr).trans (h.rd r hr)
  th j hj := (g.th j hj).trans (h.th j hj)
  spine := g.spine.trans h.spine

theorem State.aside_refl (s : State) (k e : Nat) : s.aside s k e := ⟨rfl, rfl, rfl, fun _ _ => rfl, fun _ _ => rfl, rfl⟩

theorem State.aside_setTh (s : State) (k e : Nat) (y : Thread) : s.aside (s.setTh k y) k e :=
  ⟨rfl, rfl, rfl, fun _ _ => rfl, fun _ hj => State.th_setTh_ne s y (Ne.symm hj), rfl⟩

theorem State.aside_mapTh (s : State) (k e : Nat) (f : Thread → Thread) : s.aside (s.mapTh k f) k e := State.aside_setTh s k e _

theorem State.aside_mapEn (s : State) (k e j : Nat) (f : Engine → Engine) (h : j = e → (f (s.en e)).spine = (s.en e).spine) :
    s.aside (s.mapEn j f) k e := by
  refine ⟨rfl, rfl, rfl, fun _ _ => rfl, fun _ _ => rfl, ?_⟩
  by_cases hj : j = e
  · subst hj
    rw [State.en_mapEn_eq, h rfl]
  · rw [State.en_mapEn_ne s f hj]

theorem State.aside_incLbFill (s : State) (k e : Nat) : s.aside (s.incW (Reg.ENG_LBFILL (k / 4))) k e :=
  ⟨rfl, rfl, rfl, fun _ hr => State.rd_incW_ne s (Ne.symm hr), fun _ _ => rfl, rfl⟩

/-! ### The loop buffer (R62) -/

/-- A commit acts on the loop buffer beside everything else, and its thread at most loses its marks of owning it. -/
theorem State.lbDo_aside (s : State) (k e : Nat) (act : LbAct) :
    s.aside (s.lbDo k act) k e ∧ ((s.lbDo k act).th k = s.th k ∨ (s.lbDo k act).th k = (s.th k).disown ∧ act ≠ .none) := by
  cases act with
  | none => exact ⟨State.aside_refl s k e, .inl rfl⟩
  | release =>
    by_cases ho : (s.en (k / 4)).lb.owner = some k
    · have he : s.lbDo k .release = s.lbRelease (k / 4) := if_pos ho
      have hr : s.lbRelease (k / 4) = (s.mapTh k Thread.disown).mapEn (k / 4) (fun x => { x with lb := { LoopBuf.free with dis := x.lb.dis } }) := by
        simp only [State.lbRelease, ho]
      rw [he, hr]
      exact ⟨(State.aside_mapTh s k e _).trans (State.aside_mapEn _ k e _ _ (fun _ => rfl)), .inr ⟨State.th_mapTh_eq s k _, nofun⟩⟩
    · have he : s.lbDo k .release = s := if_neg ho
      rw [he]
      exact ⟨State.aside_refl s k e, .inl rfl⟩
  | take bs be pb =>
    have he : s.lbDo k (.take bs be pb) = if (s.en (k / 4)).lb.owner = none ∧ (s.en (k / 4)).lb.dis = false then
        (s.mapEn (k / 4) (fun x =>
          { x with lb := { owner := some k, bs := bs, be := be, pb := pb, ents := [], fails := [], dis := false } })).incW (Reg.ENG_LBFILL (k / 4))
      else s.mapTh k Thread.disown := rfl
    rw [he]
    split
    · exact ⟨(State.aside_mapEn s k e _ _ (fun _ => rfl)).trans (State.aside_incLbFill _ k e), .inl (State.incW_th _ _ k)⟩
    · exact ⟨State.aside_mapTh s k e _, .inr ⟨State.th_mapTh_eq s k _, nofun⟩⟩

/-! ### Taking an exception (R73, R179, R182) -/

/-- Triggers of pairs are kept in the fault unit alone (R562). -/
theorem State.pairTrigger_eq (s : State) (k code : Nat) : ∃ f, s.pairTrigger k code = { s with flt := f } := by
  unfold State.pairTrigger
  simp only []
  generalize List.filter _ _ = l
  induction l generalizing s with
  | nil => exact ⟨s.flt, rfl⟩
  | cons n r ih =>
    have h : ∃ f, s.trigger n code = { s with flt := f } := by
      unfold State.trigger
      split
      · exact ⟨_, rfl⟩
      · exact ⟨s.flt, rfl⟩
    obtain ⟨f, hf⟩ := h
    rw [List.foldl_cons, hf]
    exact ih _

/-- Pending RWS writes take effect in their engines, whose accesses stay (R141). -/
theorem State.rwsApply_eq (s : State) (l : List (Nat × Word)) :
    ∃ g, s.rwsApply l = { s with eng := g } ∧ ∀ e, (SMap.get Engine.init g e).spine = (s.en e).spine := by
  induction l generalizing s with
  | nil => exact ⟨s.eng, rfl, fun _ => rfl⟩
  | cons p r ih =>
    have h : ∀ j f, (∀ x : Engine, (f x).spine = x.spine) → ∃ g, (s.mapEn j f).rwsApply r = { s with eng := g } ∧
        ∀ e, (SMap.get Engine.init g e).spine = (s.en e).spine := by
      intro j f hf
      obtain ⟨g, h1, h2⟩ := ih (s.mapEn j f)
      exact ⟨g, h1, fun e => (h2 e).trans (State.aside_mapEn s 0 e j f (fun _ => hf _)).spine⟩
    simp only [State.rwsApply]
    split
    · exact h _ _ (fun _ => rfl)
    · exact h _ _ (fun _ => rfl)

/-- A waiting counter is the bezel's own (R256). -/
theorem State.waitSettle_eq (s : State) (c : Nat) : ∃ b, s.waitSettle c = { s with bz := b } := by
  unfold State.waitSettle
  split
  · exact ⟨s.bz, rfl⟩
  · exact ⟨_, rfl⟩

/-- A thread that has entered level `l` at `vec` (R166, R179). -/
def Thread.atVector (t : Thread) (l : Level) (vec : Word) : Thread :=
  { t with
    levels := l :: t.levels
    ctx := { t.ctx with pc := vec, slot := none, pend := [], shadow := [], shPend := [] }
    el := t.el || l.intr
    mode := if t.mode = .stopping then .stopping else .run
    bind := { t.bind with prv := true, cid := 0 }
    fbuf := []
    infl := []
    rws := []
    settle := false }

/-- Beside its thread, an entry concerns the bezel and what RWS writes change in engines (R141, R256). -/
theorem State.enterAt_eq (s : State) (k : Nat) (l : Level) (vec : Word) :
    ∃ g b, s.enterAt k l vec = { s.setTh k ((s.th k).atVector l vec) with eng := g, bz := b } ∧
      ∀ e, (SMap.get Engine.init g e).spine = (s.en e).spine := by
  obtain ⟨g, hg, hs⟩ := State.rwsApply_eq s (s.th k).rws
  have he : s.enterAt k l vec = if (s.th k).bind.prv then (s.rwsApply (s.th k).rws).setTh k ((s.th k).atVector l vec)
      else ((s.rwsApply (s.th k).rws).setTh k ((s.th k).atVector l vec)).waitSettle (s.th k).bind.cid := rfl
  rw [he, hg]
  split
  · exact ⟨g, s.bz, rfl, hs⟩
  · obtain ⟨b, hb⟩ := State.waitSettle_eq (State.setTh { s with eng := g } k ((s.th k).atVector l vec)) (s.th k).bind.cid
    exact ⟨g, b, hb, hs⟩

theorem State.enterAt_aside (s : State) (k e : Nat) (l : Level) (vec : Word) :
    s.aside (s.enterAt k l vec) k e ∧ (s.enterAt k l vec).th k = (s.th k).atVector l vec := by
  obtain ⟨g, b, h, hs⟩ := State.enterAt_eq s k l vec
  obtain ⟨h1, h2, h3, h4, h5, -⟩ := State.aside_setTh s k e ((s.th k).atVector l vec)
  rw [h]
  exact ⟨⟨h1, h2, h3, h4, h5, hs e⟩, State.th_setTh_eq s k _⟩

/-- The abandoning of one instruction that has met a fault (R72): its context comes back; where its access has left the spine interface, no
other leaves it. -/
theorem State.abandon_faulted (s : State) (k e : Nat) {h : Infl} (hi : (s.th k).infl = [h]) (hst : h.st ≠ .waiting)
    (hsp : ∀ b ∈ (s.en e).spine, b.id ≠ h.id) :
    s.aside (s.abandon k) k e ∧ (s.abandon k).th k = { s.th k with ctx := h.snap, infl := [] } := by
  have hno : (s.en (k / 4)).spine.find? (fun a => a.id == h.id && a.k == k && a.once && decide (h.st = .waiting)) = none := by
    simp [hst]
  simp only [State.abandon, hi, List.map_cons, List.map_nil, hno]
  refine ⟨(State.aside_mapEn s k e (k / 4) _ ?_).trans (State.aside_setTh _ k e _), State.th_setTh_eq _ k _⟩
  intro hk
  rw [← hk] at hsp ⊢
  rw [List.filter_eq_self]
  intro b hb
  simp [hsp b hb]

/-- The level that a BUS exception of thread `t` pushes, for an instruction `len` words long (R182, R184). -/
def Thread.busLevel (t : Thread) (f : FaultInfo) (len : Nat) (ab : Bool) : Level :=
  let sv := saveOf t.bind t.ctx len t.depth ab
  { xpc := sv.1, xst := setF sv.2.1 (bitF 1) (b2n (decide (t.rws ≠ []))), xtgt := sv.2.2
    xcause := w24 (f.acc.code * 2 ^ 8 + f.lvl * 2 ^ 6 + Cause.bus.code), xaddr := f.addr, intr := false, src := 0, prio := 0
    scan := false, claimed := false, live := false }

theorem Thread.busLevel_xcause (t : Thread) (kind : AccKind) (addr : Word) (len : Nat) (ab : Bool) :
    (t.busLevel ⟨.bus, kind, 0, addr⟩ len ab).xcause = BitVec.ofNat 24 (kind.code * 2 ^ 8 + Cause.bus.code) := by
  simp [Thread.busLevel]

/-- A BUS exception of a thread that has a free level and is not stepped triggers pairs and enters (R179, R182, R562). -/
theorem State.except_bus_eq (s : State) (k len : Nat) {f : FaultInfo} (hf : f.cause = .bus) (hd : (s.th k).depth < 16)
    (hst : (s.th k).stepping = false) (ab : Bool) :
    s.except k f len none ab = (s.pairTrigger k 2).enterAt k ((s.th k).busLevel f len ab) (xvec (s.pairTrigger k 2) k) := by
  have hn : ¬ 16 ≤ (s.th k).depth := by omega
  simp only [State.except, hf, hn, hst, reduceCtorEq, Bool.false_eq_true, if_false]
  rfl

/-- The address saved outside a delay slot is the instruction's own (R184). -/
theorem saveOf_fst (b : Bind) (c : Ctx) (len depth : Nat) (ab : Bool) (h : c.slot = none) : (saveOf b c len depth ab).1 = c.pc := by
  simp [saveOf, h]

theorem State.except_bus (s : State) (k e len : Nat) {f : FaultInfo} (hf : f.cause = .bus) (hd : (s.th k).depth < 16)
    (hst : (s.th k).stepping = false) (ab : Bool) :
    s.aside (s.except k f len none ab) k e ∧
    ∃ vec, (s.except k f len none ab).th k = (s.th k).atVector ((s.th k).busLevel f len ab) vec := by
  obtain ⟨p, hp⟩ := State.pairTrigger_eq s k 2
  obtain ⟨h1, h2⟩ := State.enterAt_aside (s.pairTrigger k 2) k e ((s.th k).busLevel f len ab) (xvec (s.pairTrigger k 2) k)
  have hs : s.aside (s.pairTrigger k 2) k e ∧ (s.pairTrigger k 2).th k = s.th k := by
    rw [hp]
    exact ⟨⟨rfl, rfl, rfl, fun _ _ => rfl, fun _ _ => rfl, rfl⟩, rfl⟩
  rw [State.except_bus_eq s k len hf hd hst ab]
  exact ⟨hs.1.trans h1, _, h2.trans (by rw [hs.2])⟩

/-! ### Commit (R49, R73) -/

/-- A thread whose uncommitted instructions have all committed at tick `w`, which the stall watch counts from (R49, R556). -/
def Thread.committed (t : Thread) (w : Nat) : Thread := { t with watch := w, stall := false, stalled := false, infl := [] }

/-- The commit of a thread's only instruction, which has its results, acts on the loop buffer (R49, R62). -/
theorem State.commit_done_eq (s : State) (k : Nat) {x : Infl} (hi : (s.th k).infl = [x]) (hx : x.st = .done) :
    s.commit k = (s.lbDo k x.lb).setTh k (((s.lbDo k x.lb).th k).committed s.time.ticks) := by
  have hfr : s.commitFront k (s.th k).infl = (s.lbDo k x.lb, []) := by simp only [hi, State.commitFront, hx]
  have hl : ((s.lbDo k x.lb).th k).infl.length = 1 := by
    obtain h | ⟨h, -⟩ := (State.lbDo_aside s k 0 x.lb).2 <;> simp [h, hi, Thread.disown]
  have hd : ((s.lbDo k x.lb).th k).infl.drop 1 = [] := List.drop_eq_nil_of_le (Nat.le_of_eq hl)
  simp only [State.commit, hfr, State.mapTh, List.length_nil, hl, hd, Nat.sub_zero, Nat.one_ne_zero, if_false, State.th_setTh_eq]
  rfl

theorem State.commit_done (s : State) (k e : Nat) {x : Infl} (hi : (s.th k).infl = [x]) (hx : x.st = .done) :
    s.aside (s.commit k) k e ∧ ∃ u, (u = s.th k ∨ u = (s.th k).disown ∧ x.lb ≠ .none) ∧ (s.commit k).th k = u.committed s.time.ticks := by
  obtain ⟨h1, h2⟩ := State.lbDo_aside s k e x.lb
  rw [State.commit_done_eq s k hi hx]
  exact ⟨h1.trans (State.aside_setTh _ k e _), _, h2, State.th_setTh_eq _ k _⟩

/-- The commit of a thread's only instruction, which has met a fault: it is abandoned, and the exception is taken (R73). -/
theorem State.commit_faulted_eq (s : State) (k : Nat) {x : Infl} {f : FaultInfo} (hi : (s.th k).infl = [x]) (hx : x.st = .faulted f) :
    s.commit k = ((s.setTh k { s.th k with infl := [x] }).abandon k).except k f x.len none true := by
  have hfr : s.commitFront k [x] = (s, [x]) := by simp only [State.commitFront, hx]
  simp only [State.commit, hi, hfr, State.mapTh, List.length_singleton, Nat.sub_self, List.drop_zero, if_true, State.th_setTh_eq, hx]

theorem State.commit_faulted (s : State) (k e : Nat) {x : Infl} {f : FaultInfo} (hi : (s.th k).infl = [x]) (hx : x.st = .faulted f)
    (hf : f.cause = .bus) (hd : (s.th k).depth < 16) (hst : (s.th k).stepping = false) (hsp : ∀ b ∈ (s.en e).spine, b.id ≠ x.id) :
    s.aside (s.commit k) k e ∧ ∃ vec, let u : Thread := { s.th k with ctx := x.snap, infl := [] }
      (s.commit k).th k = u.atVector (u.busLevel f x.len true) vec := by
  have h0 := State.aside_setTh s k e { s.th k with infl := [x] }
  have ht := State.th_setTh_eq s k { s.th k with infl := [x] }
  rw [State.commit_faulted_eq s k hi hx]
  generalize s.setTh k { s.th k with infl := [x] } = v at h0 ht
  obtain ⟨h1, h2⟩ := State.abandon_faulted v k e (h := x) (by rw [ht]) (by simp [hx]) (by rw [h0.spine]; exact hsp)
  rw [ht] at h2
  obtain ⟨h3, vec, h4⟩ := State.except_bus (v.abandon k) k e x.len hf (by rw [h2]; exact hd) (by rw [h2]; exact hst) true
  rw [h2] at h4
  exact ⟨h0.trans (h1.trans h3), vec, h4⟩

/-! ### The end of an access (R49, R75, R106, R208) -/

/-- An access that has ended stands no longer in the spine interface. -/
theorem State.spine_spineDrop (s : State) (e : Nat) (a : Access) :
    ((s.spineDrop e a).en e).spine = (s.en e).spine.filter (fun b => decide (b.id ≠ a.id)) := by
  rw [State.spineDrop, State.en_mapEn_eq]
  exact List.filter_congr (fun b _ => by by_cases h : b.id = a.id <;> simp [h])

/-- Thread `t` has one uncommitted instruction, that of access `a`, and nobody halts or steps it. -/
structure Thread.awaits (t : Thread) (a : Access) (x : Infl) : Prop where
  infl : t.infl = [x]
  id : x.id = a.id
  haltReq : t.haltReq = 0
  stepping : t.stepping = false

/-- The state in which outcome `o` of access `a` has reached its instruction `x`, which then stands at `st` (R49, R208). -/
def State.reached (s : State) (e : Nat) (a : Access) (o : AccOut) (x : Infl) (st : InflSt) : State :=
  (s.spineDrop e a).setTh a.k { s.th a.k with
    ctx := (s.th a.k).ctx.arrived a o, infl := [{ x with snap := x.snap.arrived a o, st := st }] }

/-- What the outcome of access `a` makes of its instruction (R49, R73, R182). -/
def AccOut.st (a : Access) : AccOut → InflSt
  | .data _ _ => .done
  | .fault c sec => .faulted ⟨c, a.kind, 0, a.va + w24 (b2n sec)⟩

/-- The end of the access of a thread's only uncommitted instruction, where it is no store that stops the thread (R80): the instruction
takes the outcome and commits. -/
theorem State.accEnd_eq (s : State) (e : Nat) {a : Access} {x : Infl} (o : AccOut) (ht : (s.th a.k).awaits a x)
    (hs : ∀ u : State, u.ownStop a o = false) : s.accEnd e a o = ((s.reached e a o x (o.st a)).commit a.k).haltCheck a.k := by
  have hth : (s.spineDrop e a).th a.k = s.th a.k := rfl
  cases o <;>
    simp only [State.accEnd, hth, ht.infl, List.any_cons, ht.id, beq_self_eq_true, Bool.true_or, if_true, hs, Bool.false_eq_true, if_false,
      List.map_cons, List.map_nil, State.reached, AccOut.st]

theorem State.reached_aside (s : State) (e : Nat) (a : Access) (o : AccOut) (x : Infl) (st : InflSt) :
    (s.spineDrop e a).aside (s.reached e a o x st) a.k e := State.aside_setTh _ a.k e _

theorem State.reached_th (s : State) (e : Nat) (a : Access) (o : AccOut) (x : Infl) (st : InflSt) :
    (s.reached e a o x st).th a.k = { s.th a.k with
      ctx := (s.th a.k).ctx.arrived a o, infl := [{ x with snap := x.snap.arrived a o, st := st }] } := State.th_setTh_eq _ a.k _

/-- An access that ends with its data: the instruction commits with them, and at most loses its marks of owning the loop buffer. -/
theorem State.accEnd_data (s : State) (e : Nat) {a : Access} {x : Infl} (d0 d1 : Word) (ht : (s.th a.k).awaits a x)
    (hs : ∀ u : State, u.ownStop a (.data d0 d1) = false) :
    let c0 := (s.th a.k).ctx.arrived a (.data d0 d1)
    (s.spineDrop e a).aside (s.accEnd e a (.data d0 d1)) a.k e ∧
    ∃ c w, (c = c0 ∨ c = c0.disown ∧ x.lb ≠ .none) ∧
      (s.accEnd e a (.data d0 d1)).th a.k = ({ s.th a.k with ctx := c } : Thread).committed w := by
  have h0 := State.reached_aside s e a (.data d0 d1) x .done
  have h1 := State.reached_th s e a (.data d0 d1) x .done
  have he : _ = ((s.reached e a (.data d0 d1) x .done).commit a.k).haltCheck a.k := State.accEnd_eq s e (.data d0 d1) ht hs
  generalize s.reached e a (.data d0 d1) x .done = u at h0 h1 he
  generalize (s.th a.k).ctx.arrived a (.data d0 d1) = c0 at h1
  obtain ⟨h2, v, hv, h3⟩ := State.commit_done u a.k e (congrArg Thread.infl h1) rfl
  have hctx : ∃ c, (c = c0 ∨ c = c0.disown ∧ x.lb ≠ .none) ∧ v.committed u.time.ticks = ({ s.th a.k with ctx := c } : Thread).committed u.time.ticks := by
    obtain rfl | ⟨rfl, hn⟩ := hv
    · exact ⟨c0, .inl rfl, by rw [h1]; rfl⟩
    · exact ⟨c0.disown, .inr ⟨rfl, hn⟩, by rw [h1]; rfl⟩
  obtain ⟨c, hc, hw⟩ := hctx
  rw [hw] at h3
  rw [State.haltCheck_none _ _ (by rw [h3]; exact ht.haltReq) (by rw [h3]; exact ht.stepping)] at he
  rw [he]
  exact ⟨h0.trans h2, c, _, hc, h3⟩

/-- An access that ends with BUS, of a thread that has a free level: the instruction is abandoned, and the thread enters (R73, R179). -/
theorem State.accEnd_bus (s : State) (e : Nat) {a : Access} {x : Infl} (ht : (s.th a.k).awaits a x) (hd : (s.th a.k).depth < 16) :
    let u : Thread := { s.th a.k with ctx := x.snap, infl := [] }
    (s.spineDrop e a).aside (s.accEnd e a (.fault .bus false)) a.k e ∧
    ∃ vec, (s.accEnd e a (.fault .bus false)).th a.k = u.atVector (u.busLevel ⟨.bus, a.kind, 0, a.va + 0⟩ x.len true) vec := by
  have h0 := State.reached_aside s e a (.fault .bus false) x (.faulted ⟨.bus, a.kind, 0, a.va + 0⟩)
  have h1 := State.reached_th s e a (.fault .bus false) x (.faulted ⟨.bus, a.kind, 0, a.va + 0⟩)
  have he : _ = ((s.reached e a (.fault .bus false) x (.faulted ⟨.bus, a.kind, 0, a.va + 0⟩)).commit a.k).haltCheck a.k :=
    State.accEnd_eq s e (.fault .bus false) ht (fun _ => rfl)
  generalize s.reached e a (.fault .bus false) x _ = u at h0 h1 he
  have hsp : ∀ b ∈ (u.en e).spine, b.id ≠ x.id := by
    rw [h0.spine, State.spine_spineDrop, ht.id]
    intro b hb
    simpa using (List.mem_filter.mp hb).2
  obtain ⟨h2, vec, h3⟩ := State.commit_faulted u a.k e (congrArg Thread.infl h1) rfl rfl (by rw [h1]; exact hd) (by rw [h1]; exact ht.stepping) hsp
  rw [h1] at h3
  rw [State.haltCheck_none _ _ (by rw [h3]; exact ht.haltReq) (by rw [h3]; exact ht.stepping)] at he
  rw [he]
  exact ⟨h0.trans h2, vec, h3⟩

/-! ### What a load and a fault leave, in the claim's terms -/

/-- The access has left the spine interface of its engine, and its thread has no uncommitted instruction; memory and the other threads'
contexts are as they were. -/
def State.ended (s : State) (e : Nat) (a : Access) (t : State) : Prop :=
  (t.mem = s.mem ∧ ∀ j, j ≠ a.k → (t.th j).ctx = (s.th j).ctx) ∧
  (t.en e).spine = (s.en e).spine.filter (fun b => decide (b.id ≠ a.id)) ∧ (t.th a.k).infl = []

theorem State.ended_of_aside {s t : State} {e : Nat} {a : Access} (h : (s.spineDrop e a).aside t a.k e) (hi : (t.th a.k).infl = []) :
    s.ended e a t :=
  ⟨⟨h.mem, fun j hj => congrArg Thread.ctx (h.th j hj)⟩, h.spine.trans (State.spine_spineDrop s e a), hi⟩

/-- The data of a load of one word reach its register (R99). -/
theorem Ctx.peekG_arrived (c : Ctx) {a : Access} (d0 d1 : Word) (hk : a.kind = .load) (hp : c.pend = [(a.rd, a.id)]) (h0 : a.rd ≠ 0) (q : Nat) :
    (c.arrived a (.data d0 d1)).peekG q = if q = 0 then 0 else if q = a.rd then d0 else c.peekG q := by
  simp only [Ctx.arrived, hk, reduceCtorEq, if_false, Ctx.deliver, hp, List.foldl_cons, List.foldl_nil, ne_eq, h0, not_false_eq_true, and_self,
    if_true, Ctx.peekG, SMap.get_set]
  by_cases hq : q = a.rd
  · simp [hq]
  · rw [if_neg (Ne.symm hq), if_neg hq]
    by_cases hz : q = 0 <;> simp [hz]

/-- A load of one word has ended with `w`. -/
def State.gotten (s : State) (e : Nat) (a : Access) (w : Word) (t : State) : Prop :=
  (t.mem = s.mem ∧ ∀ j, j ≠ a.k → (t.th j).ctx = (s.th j).ctx) ∧
  (t.en e).spine = (s.en e).spine.filter (fun b => decide (b.id ≠ a.id)) ∧ (t.th a.k).infl = [] ∧
  ∀ q, (t.th a.k).ctx.peekG q = if q = 0 then 0 else if q = a.rd then w else (s.th a.k).ctx.peekG q

theorem State.accEnd_load (s : State) (e : Nat) {a : Access} {x : Infl} (d0 d1 : Word) (ht : (s.th a.k).awaits a x) (hk : a.kind = .load)
    (hp : (s.th a.k).ctx.pend = [(a.rd, a.id)]) (h0 : a.rd ≠ 0) :
    s.gotten e a d0 (s.accEnd e a (.data d0 d1)) ∧ (s.accEnd e a (.data d0 d1)).comm = s.comm := by
  obtain ⟨h, c, w, hc, hth⟩ := State.accEnd_data s e d0 d1 ht (fun u => by simp [State.ownStop, hk])
  obtain ⟨hot, hgone, hinf⟩ := State.ended_of_aside h (congrArg Thread.infl hth)
  have hg : ∀ q, c.peekG q = ((s.th a.k).ctx.arrived a (.data d0 d1)).peekG q := by
    obtain rfl | ⟨rfl, -⟩ := hc <;> exact fun _ => rfl
  exact ⟨⟨hot, hgone, hinf, fun q => by rw [hth]; exact (hg q).trans (Ctx.peekG_arrived _ d0 d1 hk hp h0 q)⟩, h.comm⟩

/-- An access has ended with BUS at its own instruction `x`. -/
def State.bused (s : State) (e : Nat) (a : Access) (x : Infl) (t : State) : Prop :=
  (t.mem = s.mem ∧ ∀ j, j ≠ a.k → (t.th j).ctx = (s.th j).ctx) ∧
  (t.en e).spine = (s.en e).spine.filter (fun b => decide (b.id ≠ a.id)) ∧ (t.th a.k).infl = [] ∧
  ∃ l, (t.th a.k).levels = l :: (s.th a.k).levels ∧ l.xpc = x.snap.pc ∧ l.xaddr = a.va ∧
    l.xcause = BitVec.ofNat 24 (a.kind.code * 2 ^ 8 + Cause.bus.code)

theorem State.accEnd_bused (s : State) (e : Nat) {a : Access} {x : Infl} (ht : (s.th a.k).awaits a x) (hd : (s.th a.k).depth < 16)
    (hsl : x.snap.slot = none) :
    s.bused e a x (s.accEnd e a (.fault .bus false)) ∧
    ∀ r, r ≠ Reg.ENG_LBFILL (a.k / 4) → (s.accEnd e a (.fault .bus false)).rd r = s.rd r := by
  obtain ⟨h, vec, hth⟩ := State.accEnd_bus s e ht hd
  obtain ⟨hot, hgone, hinf⟩ := State.ended_of_aside h (congrArg Thread.infl hth)
  exact ⟨⟨hot, hgone, hinf, _, congrArg Thread.levels hth, saveOf_fst _ _ _ _ _ hsl, BitVec.add_zero _, Thread.busLevel_xcause _ _ _ _ _⟩, h.rd⟩

end Sys2Proof.Machine

namespace Sys2Proof.Machine
open Sys2Proof

/-! ### Accesses at their target (R28, R75, R208) -/

/-- Two states of the same memory, threads, engines and registers; a thread table may list its threads differently. -/
structure State.sameThreads (s u : State) : Prop where
  th  : ∀ j, u.th j = s.th j
  mem : u.mem = s.mem
  en  : ∀ e, u.en e = s.en e
  rd  : ∀ r, u.rd r = s.rd r

/-- The thread of access `a` under the binding it had when it issued it, without the `n` levels entered since (R75). -/
def Thread.asIssued (a : Access) (n : Nat) (u : Thread) : Thread :=
  { u with bind := { u.bind with prv := a.prv, cid := a.cid }, levels := u.levels.drop n }

/-- A thread with the binding and the `n` newest levels of thread `t` given back. -/
def Thread.givenBack (t : Thread) (n : Nat) (u : Thread) : Thread :=
  { u with bind := { u.bind with prv := t.bind.prv, cid := t.bind.cid }, levels := t.levels.take n ++ u.levels }

theorem Thread.givenBack_asIssued (t : Thread) (a : Access) (n : Nat) : t.givenBack n (t.asIssued a n) = t := by
  simp [Thread.givenBack, Thread.asIssued]

/-- What a read answers that leaves the state as it is, under the binding and the levels its access was issued with (R75). -/
theorem State.boundAs_read {α : Type} (s : State) (a : Access) (f : State → State × α) (o : α)
    (hf : ∀ u : State, (∀ r, u.rd r = s.rd r) → u.chn = s.chn → (u.th a.k).bind.prv = a.prv → f u = (u, o)) :
    ∃ u, s.boundAs a f = (u, o) ∧ s.sameThreads u := by
  let n := (s.th a.k).depth - s.depthOf a
  let v := s.mapTh a.k (Thread.asIssued a n)
  have he : s.boundAs a f = if (s.th a.k).bind.prv = a.prv ∧ n = 0 then f s
      else ((f v).1.mapTh a.k ((s.th a.k).givenBack n), (f v).2) := rfl
  rw [he]
  split
  · next h => exact ⟨s, hf s (fun _ => rfl) rfl h.1, fun _ => rfl, rfl, fun _ => rfl, fun _ => rfl⟩
  · have hv : v.th a.k = (s.th a.k).asIssued a n := State.th_mapTh_eq s a.k _
    rw [hf v (fun _ => rfl) rfl (by rw [hv]; rfl)]
    refine ⟨_, rfl, fun j => ?_, rfl, fun _ => rfl, fun _ => rfl⟩
    by_cases hj : j = a.k
    · rw [hj, State.th_mapTh_eq, hv, Thread.givenBack_asIssued]
    · rw [State.th_mapTh_ne _ _ (Ne.symm hj), State.th_mapTh_ne _ _ (Ne.symm hj)]

/-- The access of a device register at the head of a completion (R208). -/
theorem State.complAt_dev (s : State) {e i : Nat} {a : Access} (ok tck late : Bool) {p : Access → Bool} (ha : (s.en e).spine[i]? = some a)
    (hm : s.maySend e a = true) (hq : s.quarantined (e / 16) = false) (hp : p a = true) (hr : region a.pa = .dev) :
    s.complAt e i ok tck late p = s.devComplete e a ok tck late := by
  have hat : s.spineAt e i = some a := ha
  simp [State.complAt, hat, hm, hq, hp, hr]

/-- Below the engines' blocks a device address is its own, and no cluster closes it (R40, R43, R558). -/
theorem ownView_lt {who : Who} {a : Nat} (h : a < 0xF80000) : ownView who a = a := if_neg (by omega)

theorem le_of_region_dev {a : Nat} (h : region a = .dev) : 0xF00000 ≤ a := by
  unfold region at h
  repeat (split at h; · cases h)
  omega

theorem State.closed_dev (s : State) {a : Nat} (hr : region a = .dev) (h : a < 0xF80000) : s.closed a = false := by
  have hge := le_of_region_dev hr
  have hc : clusterOf a = none := by rw [clusterOf, if_neg (by omega), if_neg (by omega), if_neg (by omega)]
  rw [State.closed, hc]

/-- Whether a block rests is told by the registers (R529). -/
theorem State.restAt_congr {s u : State} (h : ∀ r, u.rd r = s.rd r) (a : Nat) : u.restAt a = s.restAt a := by
  have hf : ∀ q f, u.fb q f = s.fb q f := fun q f => by rw [State.fb, State.fl, h, ← State.fl, ← State.fb]
  have hp : ∀ p, u.resting p = s.resting p := fun p => by rw [State.resting, State.resting, State.entering, State.entering, hf, hf]
  unfold State.restAt
  cases partOf a with
  | none => rfl
  | some p => exact hp p

/-- A load of one word from a device register in reach, whose read has no side effect (R19, R28, R208). -/
theorem State.devComplete_load (s : State) (e : Nat) {a : Access} {w : Word} {tck : Bool} (late : Bool) (hk : a.kind = .load) (hpr : a.pair = false)
    (hr : region a.pa = .dev) (hlt : a.pa < 0xF80000) (hp : strPort a.pa = none) (hc : crosses a.pa = false) (ho : s.regRuns a.pa tck = true)
    (hq : s.restAt a.pa = false)
    (hseq : a.pa = Reg.CHN_SEQ → (s.older e a).any (fun b => decide (b.k = a.k ∧ b.kind = .store ∧ region b.pa = .chaden)) = false)
    (hmay : a.prv = true ∨ ∃ g, regGroup a.pa = some g ∧ g.k = 0)
    (hw : ∀ u : State, (∀ r, u.rd r = s.rd r) → u.chn = s.chn → u.loadReg (.thread a.k) a.pa = (u, w)) :
    ∃ u, s.sameThreads u ∧ s.devComplete e a true tck late = u.accEnd e a (.data w 0) := by
  have hld : ∀ u : State, (∀ r, u.rd r = s.rd r) → u.chn = s.chn → (u.th a.k).bind.prv = a.prv →
      u.devLoad (.thread a.k) a.pair a.pa (ownView (.thread a.k) a.pa2) late = (u, .data w 0) := by
    intro u hrd hch hb
    have hqu : u.restAt a.pa = false := (State.restAt_congr hrd a.pa).trans hq
    have hm : u.mayLoad (.thread a.k) a.pa = true := by
      obtain h | ⟨g, hg, hz⟩ := hmay
      · simp [State.mayLoad, State.isKeeper, hb, h]
      · simp [State.mayLoad, hg, hz]
    simp [State.devLoad, hqu, hp, hm, hpr, hw u hrd hch]
  obtain ⟨u, hu, hs⟩ := State.boundAs_read s a _ _ hld
  have hsq : (a.seqRead && (s.older e a).any (fun b => decide (b.k = a.k ∧ b.kind = .store ∧ region b.pa = .chaden))) = false := by
    by_cases h : a.pa = Reg.CHN_SEQ
    · rw [hseq h, Bool.and_false]
    · simp [Access.seqRead, h, hpr]
  refine ⟨u, hs, ?_⟩
  simp only [State.devComplete, ownView_lt hlt, State.closed_dev s hr hlt, ho, hc, hk, hsq, hu, Bool.false_eq_true, Bool.true_eq_false, or_self, if_false,
    Bool.false_and, reduceCtorEq]

/-! ### The link's own registers (R484, R488) -/

theorem regRuns_chaden (s : State) {a : Nat} (hi : regIsland a = some 8) (h : s.islandRuns 8 = true) : s.regRuns a true = true := by
  simp [State.regRuns, hi, h]

/-- On a manager a thread's load of CHN_SEQ returns its last sequence (R484, R501). -/
theorem State.loadReg_seq (u : State) (k : Nat) (hm : u.isManager = true) :
    u.loadReg (.thread k) Reg.CHN_SEQ = (u, SMap.get 0 u.chn.last k) := by
  have hg : ∃ g, u.loadReg (.thread k) Reg.CHN_SEQ = (u, u.chnLoadReg (.thread k) g Reg.CHN_SEQ) ∧ g.base = 0xF3C002 := ⟨_, rfl, rfl⟩
  obtain ⟨g, hl, hb⟩ := hg
  rw [hl]
  simp [State.chnLoadReg, State.otherRole, hm, hb, workerReg]

/-- On a manager a thread's load of CHN_DRAIN returns the failures of its last drain (R488, R501). -/
theorem State.loadReg_drain (u : State) (k : Nat) (hm : u.isManager = true) :
    u.loadReg (.thread k) Reg.CHN_DRAIN = (u, w24 (SMap.get 0 u.chn.dval k)) := by
  have hg : ∃ g, u.loadReg (.thread k) Reg.CHN_DRAIN = (u, u.chnLoadReg (.thread k) g Reg.CHN_DRAIN) ∧ g.base = 0xF3C003 := ⟨_, rfl, rfl⟩
  obtain ⟨g, hl, hb⟩ := hg
  rw [hl]
  simp [State.chnLoadReg, State.otherRole, hm, hb, workerReg]

/-- A store to CHN_DRAIN writes no register (R488). -/
theorem State.storeReg_drain (u : State) (who : Who) (v : Word) : u.storeReg who Reg.CHN_DRAIN v = u := by
  have hg : ∃ g, u.storeBody who Reg.CHN_DRAIN v = u.chnStore g Reg.CHN_DRAIN v ∧ g.base = 0xF3C003 := ⟨_, rfl, rfl⟩
  obtain ⟨g, hs, hb⟩ := hg
  rw [State.storeReg, hs, State.chnStore, if_pos (.inr hb)]
  rfl

/-- The store to CHN_DRAIN of a thread that is bound as it was when it made it (R488). -/
theorem State.boundAs_drain (s : State) {a : Access} (hb : (s.th a.k).bind.prv = a.prv) (hr : ∀ q ∈ (s.th a.k).replay, q.ac.id ≠ a.id)
    (hq : s.resting 13 = false) (hpr : a.pair = false) (pa2 : Nat) (late half : Bool) :
    s.boundAs a (fun s => s.devStore (.thread a.k) a.pair Reg.CHN_DRAIN pa2 a.d0 a.d1 late half) = (s, .ok) ∧
    s.depthOf a = (s.th a.k).depth := by
  have hd : s.depthOf a = (s.th a.k).depth := by
    have hf : (s.th a.k).replay.find? (fun r => r.ac.id == a.id) = none := by
      rw [List.find?_eq_none]
      intro q hm
      simp [hr q hm]
    rw [State.depthOf, hf]
  have hrest : s.restAt Reg.CHN_DRAIN = false := hq
  have hport : strPort Reg.CHN_DRAIN = none := rfl
  have hmay : s.mayStore (.thread a.k) Reg.CHN_DRAIN = true := Bool.or_true _
  refine ⟨?_, hd⟩
  unfold State.boundAs
  simp only []
  rw [if_pos ⟨hb, by rw [hd, Nat.sub_self]⟩]
  simp [State.devStore, hrest, hport, hmay, hpr, State.storeReg_drain]

end Sys2Proof.Machine

namespace Sys2Proof.Machine
open Sys2Proof

/-! ### How the accesses of the claim end -/

/-- Access `a` stands at place `i` of engine `e`'s spine interface and may complete, and its thread awaits it with instruction `x` under the
binding it issued it with. -/
structure State.atSpine (s : State) (e : Fin 128) (i : Fin 4) (a : Access) (x : Infl) : Prop where
  at_ : (s.en e).spine[i.val]? = some a
  may : s.maySend e a = true
  open_ : s.quarantined (e.val / 16) = false
  awaits : (s.th a.k).awaits a x
  st : x.st = .waiting
  prv : (s.th a.k).bind.prv = a.prv

/-- Access `a` loads one word into a register other than g0. -/
def State.loadsWord (s : State) (a : Access) : Prop :=
  a.kind = .load ∧ a.pair = false ∧ (s.th a.k).ctx.pend = [(a.rd, a.id)] ∧ a.rd ≠ 0

section
variable {s : State} {e : Fin 128} {i : Fin 4} {a : Access} {x : Infl}

theorem registerAccessTimeout_bus (h : s.atSpine e i a x) (hr : region a.pa = .dev) (hd : (s.th a.k).depth < 16) (hsl : x.snap.slot = none) :
    Gives (.registerAccessTimeout e i) s (s.bused e a x) := by
  have hat : s.spineAt e i = some a := h.at_
  refine ⟨_, rfl, ?_⟩
  rw [hat]
  simp only [hr, h.may, and_self, if_true]
  exact (State.accEnd_bused s e h.awaits hd hsl).1

/-- A load from the xSPI window asks its controller (R450, R451). -/
theorem exec_xspiWindowRead (h : s.atSpine e i a x) (hr : region a.pa = .xspi) (hq : s.resting 12 = false) (d0 d1 : BitVec 24) :
    exec (.xspiWindowRead e i d0 d1) s = .next (if s.xspiAsk.2 then
      ({ s.xspiAsk.1 with comm := { s.xspiAsk.1.comm with flash := some (s.xspiAsk.1.windowTx a.pa a.pair) } } : State).accEnd e a (.data d0 d1)
      else s.xspiAsk.1.accEnd e a (.fault .bus false)) := by
  have hat : s.spineAt e i = some a := h.at_
  show execXspiWindowRead e i d0 d1 s = _
  simp only [execXspiWindowRead, hat, hr, h.may, h.open_, hq, ne_eq, not_true_eq_false, Bool.true_eq_false, Bool.false_eq_true, or_self, if_false]
  obtain ⟨u, b⟩ := s.xspiAsk
  cases b <;> rfl

theorem State.fb_of_fl {s : State} {r : Nat} {f : Fld} (h : s.fl r f = 1) : s.fb r f = true := by simp [State.fb, h]

theorem State.not_fb_of_fl {s : State} {r : Nat} {f : Fld} (h : s.fl r f = 0) : s.fb r f = false := by simp [State.fb, h]

/-- The state that has counted a read of the busy flash (R451). -/
def State.xspiBusy (s : State) : State :=
  ((s.inc Reg.XSPI_STAT Reg.XSPI_STAT_WBUSYCNT).sf Reg.XSPI_STAT Reg.XSPI_STAT_WBUSYF 1).raise 0x3A1

theorem State.xspiAsk_idle (hi : s.islandRuns 4 = true) (he : s.fl Reg.XSPI_CTL Reg.XSPI_CTL_EN = 1)
    (hb : s.fl Reg.XSPI_STAT Reg.XSPI_STAT_BUSY = 0) (hq : s.resting 12 = false) : s.xspiAsk = (s, true) := by
  simp [State.xspiAsk, hi, State.fb_of_fl he, State.not_fb_of_fl hb, hq]

theorem State.xspiAsk_busy (hi : s.islandRuns 4 = true) (he : s.fl Reg.XSPI_CTL Reg.XSPI_CTL_EN = 1)
    (hb : s.fl Reg.XSPI_STAT Reg.XSPI_STAT_BUSY = 1) (hq : s.resting 12 = false) : s.xspiAsk = (s.xspiBusy, false) := by
  simp [State.xspiAsk, hi, State.fb_of_fl he, State.fb_of_fl hb, hq, State.xspiBusy]

theorem State.xspiBusy_flags (s : State) : s.xspiBusy.fl Reg.XSPI_STAT Reg.XSPI_STAT_WBUSYF = 1 ∧
    s.xspiBusy.fl Reg.XSPI_STAT Reg.XSPI_STAT_WBUSYCNT = satInc (s.fl Reg.XSPI_STAT Reg.XSPI_STAT_WBUSYCNT) 0xFFF := by
  have hr : ∀ f, s.xspiBusy.fl Reg.XSPI_STAT f =
      ((s.inc Reg.XSPI_STAT Reg.XSPI_STAT_WBUSYCNT).sf Reg.XSPI_STAT Reg.XSPI_STAT_WBUSYF 1).fl Reg.XSPI_STAT f := fun f =>
    State.fl_of_rd f (State.raise_rd _ _ _ (by decide) (by decide))
  constructor
  · rw [hr, State.fl_sf_eq _ _ _ _ (by decide)]
    rfl
  · rw [hr, State.fl_sf_field _ _ _ _ _ _ (by decide) (by decide), State.fl_inc_eq _ _ _ (by decide)]
    rfl

theorem xspiWindowRead_data (h : s.atSpine e i a x) (hr : region a.pa = .xspi) (hl : s.loadsWord a) (hi : s.islandRuns 4 = true)
    (he : s.fl Reg.XSPI_CTL Reg.XSPI_CTL_EN = 1) (hb : s.fl Reg.XSPI_STAT Reg.XSPI_STAT_BUSY = 0) (d0 d1 : BitVec 24) :
    Takes 12 (.xspiWindowRead e i d0 d1) s (fun t => s.gotten e a d0 t ∧ t.comm.flash = some (s.windowTx a.pa false)) := by
  intro hq
  obtain ⟨hk, hpr, hp, h0⟩ := hl
  have hx := exec_xspiWindowRead h hr hq d0 d1
  rw [State.xspiAsk_idle hi he hb hq] at hx
  obtain ⟨hg, hc⟩ := State.accEnd_load { s with comm := { s.comm with flash := some (s.windowTx a.pa a.pair) } } e d0 d1 h.awaits hk hp h0
  refine ⟨_, hx, hg, ?_⟩
  rw [← hpr]
  exact congrArg CommSt.flash hc

theorem xspiWindowRead_busy (h : s.atSpine e i a x) (hr : region a.pa = .xspi) (hi : s.islandRuns 4 = true)
    (he : s.fl Reg.XSPI_CTL Reg.XSPI_CTL_EN = 1) (hb : s.fl Reg.XSPI_STAT Reg.XSPI_STAT_BUSY = 1) (hd : (s.th a.k).depth < 16)
    (hsl : x.snap.slot = none) (d0 d1 : BitVec 24) :
    Takes 12 (.xspiWindowRead e i d0 d1) s (fun t => s.bused e a x t ∧ t.fl Reg.XSPI_STAT Reg.XSPI_STAT_WBUSYF = 1 ∧
      t.fl Reg.XSPI_STAT Reg.XSPI_STAT_WBUSYCNT = satInc (s.fl Reg.XSPI_STAT Reg.XSPI_STAT_WBUSYCNT) 0xFFF) := by
  intro hq
  have hx := exec_xspiWindowRead h hr hq d0 d1
  rw [State.xspiAsk_busy hi he hb hq] at hx
  obtain ⟨hf, hc⟩ := State.xspiBusy_flags s
  have hth : ∀ j, s.xspiBusy.th j = s.th j := fun j => by simp [State.xspiBusy]
  have hen : s.xspiBusy.en e = s.en e := by simp [State.xspiBusy]
  have hmem : s.xspiBusy.mem = s.mem := by simp [State.xspiBusy]
  obtain ⟨hbu, hrd⟩ := State.accEnd_bused s.xspiBusy e (a := a) (x := x) (by rw [hth]; exact h.awaits) (by rw [hth]; exact hd) hsl
  have hst : ∀ f, (s.xspiBusy.accEnd e a (.fault .bus false)).fl Reg.XSPI_STAT f = s.xspiBusy.fl Reg.XSPI_STAT f := fun f =>
    State.fl_of_rd f (hrd _ (by unfold Reg.XSPI_STAT Reg.ENG_LBFILL; omega))
  simp only [State.bused, hth, hen, hmem] at hbu
  exact ⟨_, hx, hbu, (hst _).trans hf, (hst _).trans hc⟩

/-- What a load's end says of a state, it says of every state of the same threads. -/
theorem State.gotten_of_sameThreads {u t : State} {w : Word} (hs : s.sameThreads u) (hg : u.gotten e a w t) : s.gotten e a w t := by
  simpa only [State.gotten, hs.mem, hs.th, hs.en] using hg

/-- A load of a link register that has no keeper type and whose read has no side effect (R208, R484, R488). -/
theorem complAt_chaden_load (h : s.atSpine e i a x) (hl : s.loadsWord a) {w : Word} {p : Access → Bool} (hp : p a = true)
    (hmem : a.pa = Reg.CHN_SEQ ∨ a.pa = Reg.CHN_DRAIN) (hi : s.islandRuns 8 = true) (hq : s.resting 13 = false)
    (hseq : a.pa = Reg.CHN_SEQ → (s.older e a).any (fun b => decide (b.k = a.k ∧ b.kind = .store ∧ region b.pa = .chaden)) = false)
    (hw : ∀ u : State, (∀ r, u.rd r = s.rd r) → u.chn = s.chn → u.loadReg (.thread a.k) a.pa = (u, w)) :
    s.gotten e a w (s.complAt e i true true false p) := by
  obtain ⟨hk, hpr, hpe, h0⟩ := hl
  have hreg : region a.pa = .dev ∧ a.pa < 0xF80000 ∧ strPort a.pa = none ∧ crosses a.pa = false ∧ regIsland a.pa = some 8 ∧ partOf a.pa = some 13 ∧
      ∃ g, regGroup a.pa = some g ∧ g.k = 0 := by
    obtain hm | hm := hmem <;> rw [hm] <;> exact ⟨rfl, by decide, rfl, rfl, rfl, rfl, _, rfl, rfl⟩
  obtain ⟨hr, hlt, hport, hc, hisl, hpart, hg⟩ := hreg
  have hrest : s.restAt a.pa = false := by rw [State.restAt, hpart]; exact hq
  obtain ⟨u, hs, hd⟩ := State.devComplete_load s e (tck := true) false hk hpr hr hlt hport hc (regRuns_chaden s hisl hi) hrest hseq (.inr hg) hw
  rw [State.complAt_dev s true true false h.at_ h.may h.open_ hp hr, hd]
  exact State.gotten_of_sameThreads hs (State.accEnd_load u e w 0 (by rw [hs.th]; exact h.awaits) hk (by rw [hs.th]; exact hpe) h0).1

theorem State.isManager_congr {u : State} (h : ∀ r, u.rd r = s.rd r) : u.isManager = s.isManager := by
  unfold State.isManager State.fb State.fl
  rw [h]

theorem chnSeqRead_gets (h : s.atSpine e i a x) (hl : s.loadsWord a) (ha : a.pa = Reg.CHN_SEQ) (hi : s.islandRuns 8 = true) (hm : s.isManager = true)
    (ho : ∀ b ∈ s.older e a, b.k = a.k → b.kind = .store → region b.pa ≠ .chaden) :
    Takes 13 (.chnSeqRead e i) s (s.gotten e a (SMap.get 0 s.chn.last a.k)) := by
  intro hq
  refine ⟨_, rfl, complAt_chaden_load h hl (by simp [Access.seqRead, hl.1, ha]) (.inl ha) hi hq (fun _ => ?_) (fun u hrd hch => ?_)⟩
  · rw [List.any_eq_false]
    intro b hb hd
    obtain ⟨h1, h2, h3⟩ := of_decide_eq_true hd
    exact ho b hb h1 h2 h3
  · rw [ha, State.loadReg_seq u a.k ((State.isManager_congr hrd).trans hm), hch]

theorem chnDrainRead_gets (h : s.atSpine e i a x) (hl : s.loadsWord a) (ha : a.pa = Reg.CHN_DRAIN) (hi : s.islandRuns 8 = true)
    (hm : s.isManager = true) : Takes 13 (.chnDrainRead e i) s (s.gotten e a (BitVec.ofNat 24 (SMap.get 0 s.chn.dval a.k))) := by
  intro hq
  refine ⟨_, rfl, complAt_chaden_load h hl (by simp [hl.1, ha]) (.inr ha) hi hq (fun hs => ?_) (fun u hrd hch => ?_)⟩
  · rw [ha] at hs
    cases hs
  · rw [ha, State.loadReg_drain u a.k ((State.isManager_congr hrd).trans hm), hch]

end

end Sys2Proof.Machine

namespace Sys2Proof.Machine
open Sys2Proof

section
variable {s : State} {e : Fin 128} {i : Fin 4} {a : Access} {x : Infl}

/-- A drain that a running thread starts at its own depth (R488). -/
theorem State.drainStart_run (u : State) (k id : Nat) (hm : (u.th k).mode = .run) :
    let t := u.drainStart k (u.th k).depth id
    t.mem = u.mem ∧ (∀ j, j ≠ k → t.th j = u.th j) ∧ (∀ e, t.en e = u.en e) ∧ t.th k = { u.th k with mode := .drain } ∧
    t.chn.drains.head? = some { thread := k, depth := (u.th k).depth, acc := id } ∧ t.chn.wr = u.chn.wr := by
  simp only [State.drainStart, hm, reduceCtorEq, or_self, and_self, if_false, if_true]
  exact ⟨rfl, fun j hj => State.th_setTh_ne _ _ (Ne.symm hj), fun _ => rfl, State.th_setTh_eq _ k _, rfl, rfl⟩

/-- A manager's thread that stores to CHN_DRAIN waits in DRAIN (R488). -/
theorem chnDrainStore_drains (h : s.atSpine e i a x) (hk : a.kind = .store) (hpr : a.pair = false) (ha : a.pa = Reg.CHN_DRAIN)
    (hi : s.islandRuns 8 = true) (hm : s.isManager = true) (hrun : (s.th a.k).mode = .run) (hlb : x.lb = .none)
    (hrp : ∀ q ∈ (s.th a.k).replay, q.ac.id ≠ a.id) :
    Takes 13 (.chnDrainStore e i) s (fun t => (t.mem = s.mem ∧ ∀ j, j ≠ a.k → (t.th j).ctx = (s.th j).ctx) ∧
      (t.en e).spine = (s.en e).spine.filter (fun b => decide (b.id ≠ a.id)) ∧
      (t.th a.k).infl = [] ∧ (t.th a.k).mode = .drain ∧ (t.th a.k).ctx = (s.th a.k).ctx ∧
      t.chn.drains.head? = some { thread := a.k, depth := (s.th a.k).depth, acc := a.id } ∧ t.chn.wr = s.chn.wr) := by
  intro hq
  have hr : region a.pa = .dev := by rw [ha]; rfl
  have hds : a.drainStore = true := by simp [Access.drainStore, hk, ha]
  obtain ⟨hb, hdep⟩ := State.boundAs_drain s h.prv hrp hq hpr (ownView (.thread a.k) a.pa2) false a.half
  have hown : ownView (.thread a.k) Reg.CHN_DRAIN = Reg.CHN_DRAIN := rfl
  have hcl : s.closed Reg.CHN_DRAIN = false := rfl
  have hrr : s.regRuns Reg.CHN_DRAIN true = true := regRuns_chaden s rfl hi
  have hcr : crosses Reg.CHN_DRAIN = false := rfl
  have hdev : s.devComplete e a true true false = (s.accEnd e a (.data 0 0)).drainStart a.k (s.th a.k).depth a.id := by
    simp only [State.devComplete, ha, hown, hcl, hrr, hcr, hk, hb, hdep, hds, hm, Bool.false_eq_true, Bool.true_eq_false, or_self, if_false, if_true,
      Bool.false_and, Bool.and_self]
  have hns : ∀ u : State, u.ownStop a (.data 0 0) = false := by
    intro u
    have hne : ownView (.thread a.k) a.pa ≠ Reg.ENG_TCTL (a.k / 4) := by
      rw [ha, hown, Reg.CHN_DRAIN, Reg.ENG_TCTL]
      omega
    simp [State.ownStop, hne]
  obtain ⟨hsd, c, w, hc, hth⟩ := State.accEnd_data s e 0 0 h.awaits hns
  have hctx : c = (s.th a.k).ctx := by
    have hc0 : (s.th a.k).ctx.arrived a (.data 0 0) = (s.th a.k).ctx := if_pos hk
    obtain rfl | ⟨-, hn⟩ := hc
    · exact hc0
    · exact absurd hlb hn
  rw [hctx] at hth
  generalize s.accEnd e a (.data 0 0) = u at hsd hth hdev
  have hmode : (u.th a.k).mode = .run := by rw [hth]; exact hrun
  have hdu : (u.th a.k).depth = (s.th a.k).depth := by rw [hth]; rfl
  obtain ⟨d1, d2, d3, d4, d5, d6⟩ := State.drainStart_run u a.k a.id hmode
  rw [hdu] at d1 d2 d3 d4 d5 d6
  have hcu : (u.th a.k).ctx = (s.th a.k).ctx := by rw [hth]; rfl
  have hiu : (u.th a.k).infl = [] := by rw [hth]; rfl
  have hct : ((u.drainStart a.k (s.th a.k).depth a.id).th a.k).ctx = (u.th a.k).ctx := by rw [d4]
  have hit : ((u.drainStart a.k (s.th a.k).depth a.id).th a.k).infl = (u.th a.k).infl := by rw [d4]
  refine ⟨_, rfl, ?_⟩
  rw [State.complAt_dev s true true false h.at_ h.may h.open_ hds hr, hdev]
  exact ⟨⟨d1.trans hsd.mem, fun j hj => congrArg Thread.ctx ((d2 j hj).trans (hsd.th j hj))⟩,
    (congrArg Engine.spine (d3 e)).trans (hsd.spine.trans (State.spine_spineDrop s e a)),
    hit.trans hiu, congrArg Thread.mode d4, hct.trans hcu, d5, d6.trans (congrArg ChnSt.wr hsd.chn)⟩

end

/-! ### Abandoned accesses (R75) -/

/-- An access whose instruction has been abandoned ends in its replay entry (R75). -/
theorem State.accEnd_replay (u : State) (e : Nat) {a : Access} (d0 d1 : Word) (hn : ∀ x ∈ (u.th a.k).infl, x.id ≠ a.id)
    (hr : ∃ r ∈ (u.th a.k).replay, r.ac.id = a.id ∧ r.out = .wait) :
    u.accEnd e a (.data d0 d1) = (u.spineDrop e a).setTh a.k { u.th a.k with
      replay := (u.th a.k).replay.map (fun r => if r.ac.id = a.id then { r with out := .data d0 d1 } else r) } := by
  have hth : (u.spineDrop e a).th a.k = u.th a.k := rfl
  have hni : (u.th a.k).infl.any (fun x => x.id == a.id) = false := by
    rw [List.any_eq_false]
    intro x hx
    simp [hn x hx]
  have hra : (u.th a.k).replay.any (fun r => r.ac.id == a.id && decide (r.out = .wait)) = true := by
    obtain ⟨r, hm, h1, h2⟩ := hr
    exact List.any_eq_true.mpr ⟨r, hm, by simp [h1, h2]⟩
  simp only [State.accEnd, hth, hni, hra, Bool.false_eq_true, if_false, if_true]

theorem replayOutcomeArrival_keeps {s : State} {e : Fin 128} {i : Fin 4} {a : Access} {w : Word} (ha : (s.en e).spine[i.val]? = some a)
    (hm : s.maySend e a = true) (hq : s.quarantined (e.val / 16) = false) (hn : ∀ x ∈ (s.th a.k).infl, x.id ≠ a.id)
    (hrp : ∃ r ∈ (s.th a.k).replay, r.ac.id = a.id ∧ r.out = .wait) (hprv : a.prv = true) (hk : a.kind = .load) (hpr : a.pair = false)
    (hr : region a.pa = .dev) (hlt : a.pa < 0xF80000) (hp : strPort a.pa = none) (hc : crosses a.pa = false) (ho : s.regRuns a.pa true = true)
    (hrest : s.restAt a.pa = false) (hseq : a.pa ≠ Reg.CHN_SEQ)
    (hw : ∀ u : State, (∀ r, u.rd r = s.rd r) → u.loadReg (.thread a.k) a.pa = (u, w)) :
    Gives (.replayOutcomeArrival e i true true) s (fun t => t.mem = s.mem ∧ (∀ r, t.rd r = s.rd r) ∧ (∀ j, j ≠ a.k → t.th j = s.th j) ∧
      (t.en e).spine = (s.en e).spine.filter (fun b => decide (b.id ≠ a.id)) ∧
      t.th a.k = { s.th a.k with
        replay := (s.th a.k).replay.map (fun r => if r.ac.id = a.id then { r with out := .data w 0 } else r) }) := by
  have hrep : s.replayed a = true := by
    obtain ⟨r, hm, h1, h2⟩ := hrp
    exact List.any_eq_true.mpr ⟨r, hm, by simp [h1, h2]⟩
  obtain ⟨u, hs, hd⟩ := State.devComplete_load s e (tck := true) false hk hpr hr hlt hp hc ho hrest (fun h => absurd h hseq) (.inl hprv)
    (fun u hu _ => hw u hu)
  refine ⟨_, rfl, ?_⟩
  rw [State.complAt_dev s true true false ha hm hq hrep hr, hd, State.accEnd_replay u e w 0 (by rw [hs.th]; exact hn) (by rw [hs.th]; exact hrp)]
  refine ⟨hs.mem, hs.rd, fun j hj => ?_, ?_, ?_⟩
  · exact (State.th_setTh_ne _ _ (Ne.symm hj)).trans (hs.th j)
  · rw [← hs.en e]
    exact State.spine_spineDrop u e a
  · rw [State.th_setTh_eq, hs.th]

/-! ### Waits at strand ports (R273, R279) -/

/-- A strand changed by `f`, read back. -/
theorem State.strand_mapStrand (s : State) (i j : Nat) (f : Strand → Strand) :
    (s.mapStrand i f).strand j = if i = j then f (s.strand i) else s.strand j := SMap.get_set _ _ _ _ _

/-- Work on strand `i` that leaves it as `y` and every other strand and the fabric alone. -/
def State.strandOnly (s : State) (i : Nat) (u : State) (y : Strand) : Prop :=
  u.strand i = y ∧ (∀ j, j ≠ i → u.strand j = s.strand j) ∧ s.outside u

theorem State.strandOnly_mapStrand (s : State) (i : Nat) (f : Strand → Strand) : s.strandOnly i (s.mapStrand i f) (f (s.strand i)) :=
  ⟨(State.strand_mapStrand s i i f).trans (if_pos rfl), fun j hj => (State.strand_mapStrand s i j f).trans (if_neg (Ne.symm hj)),
    rfl, rfl, rfl, rfl, rfl, rfl⟩

theorem State.outside_trans {s t u : State} (h : s.outside t) (h' : t.outside u) : s.outside u := by
  simp_all [State.outside]

/-- An entry of a map just written was there before or is the one written. -/
theorem SMap.mem_put {α : Type} {m : SMap α} {k : Nat} {v : α} {p : Nat × α} (h : p ∈ SMap.put m k v) : p ∈ m ∨ p = (k, v) := by
  induction m with
  | nil => exact .inr (by simpa [SMap.put] using h)
  | cons q r ih =>
    obtain ⟨k', v'⟩ := q
    simp only [SMap.put] at h
    split at h
    · exact (List.mem_cons.mp h).symm
    · split at h
      · exact (List.mem_cons.mp h).symm.imp_left (List.mem_cons_of_mem _)
      · obtain h | h := List.mem_cons.mp h
        · exact .inl (List.mem_cons.mpr (.inl h))
        · exact (ih h).imp_left (List.mem_cons_of_mem _)

theorem SMap.mem_set {α : Type} [DecidableEq α] {d : α} {m : SMap α} {k : Nat} {v : α} {p : Nat × α} (h : p ∈ SMap.set d m k v) :
    p ∈ m ∨ p = (k, v) := by
  unfold SMap.set at h
  split at h
  · exact .inl (List.mem_filter.mp h).1
  · exact SMap.mem_put h

/-- A write outside the watches' registers gives no strand a watch (R285). -/
theorem State.watches_wr (s : State) {q : Nat} (v : Word) (hq : q < 0xF43100 ∨ 0xF43140 ≤ q) {i c : Nat} (h : s.watches i c = []) :
    (s.wr q v).watches i c = [] := by
  simp only [State.watches, List.filterMap_eq_nil_iff] at h ⊢
  intro p hp
  obtain hp | rfl := SMap.mem_set hp
  · exact h p hp
  · exact if_neg (by omega)

theorem State.watchFire_none (s : State) {i c : Nat} (h : s.watches i c = []) : s.watchFire i c = s := by
  rw [State.watchFire, h]
  rfl

/-- A counted drop of a strand that nothing watches (R273, R285): its count goes up, or stands at its maximum. -/
theorem State.pushFull_unwatched (s : State) (i : Fin 512) (h : ∀ c, s.watches i c = []) :
    let q := Reg.STR_sDROP i
    let u := s.pushFull i
    u.str = s.str ∧ s.outside u ∧ s.regsBut u [q] ∧ u.fl q Reg.STR_sDROP_FULL = satInc (s.fl q Reg.STR_sDROP_FULL) Reg.STR_sDROP_FULL.max := by
  intro q u
  by_cases hf : s.fl q Reg.STR_sDROP_FULL = 0xFF
  · have hu : u = s := if_pos hf
    rw [hu, hf]
    exact ⟨rfl, ⟨rfl, rfl, rfl, rfl, rfl, rfl⟩, fun _ _ => rfl, rfl⟩
  · have hw : (s.inc q Reg.STR_sDROP_FULL).watches i 2 = [] := State.watches_wr s _ (by simp only [q, Reg.STR_sDROP]; omega) (h 2)
    have hu : u = s.inc q Reg.STR_sDROP_FULL := (if_neg hf).trans (State.watchFire_none _ hw)
    rw [hu]
    exact ⟨rfl, ⟨rfl, rfl, rfl, rfl, rfl, rfl⟩, fun r hr => State.rd_inc_ne s _ (Ne.symm (by simpa using hr)), State.fl_inc_eq s q _ (by decide)⟩

theorem strandFullTimeout_drops {i : Fin 512} {e : Fin 128} {p : Fin 4} {s : State} {y : Prod × Word × Option Nat}
    {r : List (Prod × Word × Option Nat)} (hw : ∀ c, s.watches i c = []) (hp : s.atPort e p i .store = false)
    (hx : (s.strand i).waiting = y :: r) :
    Gives (.strandFullTimeout i e p) s (fun u => s.strandOnly i u { s.strand i with waiting := r } ∧ s.regsBut u [Reg.STR_sDROP i] ∧
      u.fl (Reg.STR_sDROP i) Reg.STR_sDROP_FULL = satInc (s.fl (Reg.STR_sDROP i) Reg.STR_sDROP_FULL) Reg.STR_sDROP_FULL.max) := by
  obtain ⟨h1, h2, h3⟩ := State.strandOnly_mapStrand s i (fun x => { x with waiting := r })
  obtain ⟨hs, ho, hr, hf⟩ := State.pushFull_unwatched (s.mapStrand i (fun x => { x with waiting := r })) i hw
  have hst : ∀ j, (State.pushFull (s.mapStrand i (fun x => { x with waiting := r })) i).strand j =
      (s.mapStrand i (fun x => { x with waiting := r })).strand j := fun j => by rw [State.strand, hs, State.strand]
  have he : exec (.strandFullTimeout i e p) s = .next ((s.mapStrand i (fun x => { x with waiting := r })).pushFull i) := by
    show execStrandFullTimeout i e p s = _
    simp only [execStrandFullTimeout, hp, hx, Bool.false_eq_true, if_false]
  exact ⟨_, he, ⟨(hst i).trans h1, fun j hj => (hst j).trans (h2 j hj), ho⟩, hr, hf⟩

/-- A flag of a strand that nothing watches is set (R279, R285). -/
theorem State.strFlag_unwatched (s : State) (i : Fin 512) (h : ∀ c, s.watches i c = []) :
    let q := Reg.STR_sSTAT i
    let u := s.strFlag i Reg.STR_sSTAT_BRK
    u.str = s.str ∧ s.outside u ∧ s.regsBut u [q] ∧ u.fl q Reg.STR_sSTAT_BRK = 1 := by
  intro q u
  by_cases hf : s.fb q Reg.STR_sSTAT_BRK = true
  · have hu : u = s := if_pos hf
    have hlt : s.fl q Reg.STR_sSTAT_BRK < 2 := getF_lt _ _
    have hne : s.fl q Reg.STR_sSTAT_BRK ≠ 0 := of_decide_eq_true hf
    rw [hu]
    exact ⟨rfl, ⟨rfl, rfl, rfl, rfl, rfl, rfl⟩, fun _ _ => rfl, by omega⟩
  · have hw : (s.sf q Reg.STR_sSTAT_BRK 1).watches i 3 = [] := State.watches_wr s _ (by simp only [q, Reg.STR_sSTAT]; omega) (h 3)
    have hu : u = s.sf q Reg.STR_sSTAT_BRK 1 := (if_neg hf).trans (State.watchFire_none _ hw)
    rw [hu]
    exact ⟨rfl, ⟨rfl, rfl, rfl, rfl, rfl, rfl⟩, fun r hr => State.rd_sf_ne s _ _ (Ne.symm (by simpa using hr)),
      State.fl_sf_eq s q _ _ (by decide)⟩

/-- In packet mode a read of a packet's payload that has not come waits (R279). -/
theorem State.pop_waits (s : State) (i : Nat) (hen : s.strCfg i Reg.STR_sCFG_EN = 1) (hdst : s.strCfg i Reg.STR_sCFG_DST = 0)
    (hfmt : s.strCfg i Reg.STR_sCFG_FMT = 1) (hto : s.strCfg i Reg.STR_sCFG_TO ≠ 0) (hrem : (s.strand i).remain ≠ 0)
    (hit : (s.strand i).items = []) : s.pop i = (s, .wait) := by
  have hfill : s.headFill i 17 = s := if_pos (.inr hit)
  simp only [State.pop, hen, hdst, hfmt, hto, hrem, hfill, hit, ne_eq, Nat.one_ne_zero, not_true_eq_false, or_self, if_false]

/-- The strand whose packet has broken: its reader discards the rest (R279). -/
def Strand.broken (x : Strand) : Strand := { x with remain := 0, nread := 0, rdy := false, discard := true }

/-- A packet that breaks while its payload is read. -/
theorem State.breakPacket_reading (s : State) (i : Nat) (hh : (s.strand i).atHead = false) :
    s.breakPacket i = ((s.mapStrand i Strand.broken).strFlag i Reg.STR_sSTAT_BRK).judge i := by
  have hb : (s.strand i).broken = { s.strand i with atHead := false, remain := 0, nread := 0, rdy := false, discard := true } := by
    simp only [Strand.broken, hh]
  simp only [State.breakPacket, State.mapStrand, hb, hh, Bool.false_and, Bool.false_eq_true, if_false, Bool.not_false]

/-- A strand without items that reads no packet has none that is ready (R278). -/
theorem State.judge_empty (s : State) (i : Nat) (hit : (s.strand i).items = []) (hrem : (s.strand i).remain = 0) : s.judge i = s := by
  simp [State.judge, State.packetReady, hit, hrem]

theorem payloadReadTimeout_breaks {i : Fin 512} {e : Fin 128} {p : Fin 4} {s : State} (hw : ∀ c, s.watches i c = [])
    (hp : s.atPort e p i .load = false) (hen : s.fl (Reg.STR_sCFG i) Reg.STR_sCFG_EN = 1) (hdst : s.fl (Reg.STR_sCFG i) Reg.STR_sCFG_DST = 0)
    (hfmt : s.fl (Reg.STR_sCFG i) Reg.STR_sCFG_FMT = 1) (hto : s.fl (Reg.STR_sCFG i) Reg.STR_sCFG_TO ≠ 0) (hrem : (s.strand i).remain ≠ 0)
    (hit : (s.strand i).items = []) (hh : (s.strand i).atHead = false) :
    Gives (.payloadReadTimeout i e p) s (fun u =>
      s.strandOnly i u { s.strand i with remain := 0, nread := 0, rdy := false, discard := true } ∧
      u.rdata = 0x800000 ∧ u.fl (Reg.STR_sSTAT i) Reg.STR_sSTAT_BRK = 1 ∧ s.regsBut u [Reg.STR_sSTAT i]) := by
  have hpop := State.pop_waits s i hen hdst hfmt hto hrem hit
  have he : exec (.payloadReadTimeout i e p) s = .next { s.breakPacket i with rdata := blank } := by
    show execPayloadReadTimeout i e p s = _
    simp only [execPayloadReadTimeout, hp, hpop, Bool.false_eq_true, if_false]
  obtain ⟨h1, h2, h3⟩ := State.strandOnly_mapStrand s i Strand.broken
  have hu : ∀ r, (s.mapStrand i Strand.broken).rd r = s.rd r := fun _ => rfl
  have hwu : ∀ c, (s.mapStrand i Strand.broken).watches i c = [] := hw
  have hbrk := State.breakPacket_reading s i hh
  generalize s.mapStrand i Strand.broken = u at h1 h2 h3 hu hwu hbrk
  obtain ⟨hs, ho, hr, hf⟩ := State.strFlag_unwatched u i hwu
  generalize u.strFlag i Reg.STR_sSTAT_BRK = t at hs ho hr hf hbrk
  have hst : ∀ j, t.strand j = u.strand j := fun j => by rw [State.strand, hs, State.strand]
  have hti : t.strand i = (s.strand i).broken := (hst i).trans h1
  rw [State.judge_empty t i (by rw [hti]; exact hit) (by rw [hti]; rfl)] at hbrk
  rw [hbrk] at he
  exact ⟨_, he, ⟨hti, fun j hj => (hst j).trans (h2 j hj), State.outside_trans h3 ho⟩, rfl, hf, fun r hn => (hr r hn).trans (hu r)⟩

/-! ### The claim -/

/-- A setting that has arrived is what the mixed-signal die holds, and only the transfers beside it stay due (R634). -/
theorem analogSettingTransfer_delivers {a : BitVec 24} {s : State} (h : a.toNat ∈ s.dl.xfer) :
    Gives (.analogSettingTransfer a true) s (fun t => s.outside t ∧ (∀ r, t.rd r = s.rd r) ∧ t.ev = s.ev ∧ a.toNat ∉ t.dl.xfer ∧
      SMap.get (regReset a.toNat) t.dl.held a.toNat = s.rd a.toNat ∧ ∀ x ∈ s.dl.xfer, x ≠ a.toNat → x ∈ t.dl.xfer) :=
  ⟨_, analogSettingTransfer_arrives h, ⟨rfl, rfl, rfl, rfl, rfl, rfl⟩, fun _ => rfl, rfl, by simp, SMap.get_set_eq _ _ _ _,
    fun _ hx hn => List.mem_filter.mpr ⟨hx, decide_eq_true hn⟩⟩

theorem analogSettingTransfer_notes {a : BitVec 24} {s : State} (h : a.toNat ∈ s.dl.xfer) :
    Gives (.analogSettingTransfer a false) s (s.dieLinkNoted 0x1FF a) :=
  ⟨_, analogSettingTransfer_fails h, State.dieLinkFault_noted s 0x1FF a⟩

/-- Settles O57: clause by clause, each command's own lemma. -/
theorem deviceAccesses : Obligations.DeviceAccesses := by
  unfold Obligations.DeviceAccesses
  refine ⟨fun k a v g s => ⟨fun hb q hq => ?_, fun hr he hc hg hp => ⟨fun hb hk => ?_, fun hb hq hw hl => ?_⟩⟩,
    fun a s => ⟨fun h => ⟨analogSettingTransfer_delivers h, ?_⟩, fun h ok => ⟨s, analogSettingTransfer_none h ok, rfl⟩⟩,
    fun e i a x d0 d1 s hat hmay hq hinfl hid hst hhalt hstep hprv => ?_,
    fun e i a w s hat hmay hq hn hrp _ hprv hk hpr hr hlt hp hc ho hrest hseq hw => ?_, fun i e p s hw => ⟨fun y r hp hx => ?_, ?_⟩⟩
  · obtain ⟨hr, he, hp, hv, g', hg, hl, hs⟩ := alwaysPlain_of_mem q hq
    obtain ⟨hc, hrest, hw⟩ := hs s
    exact ⟨g', hg, registerWrite_keeper (hv k) hr he hc hp hb hrest (hw _ v) hl⟩
  · exact registerWrite_capsule hr he hc hg hp hb hk
  · exact registerWrite_keeper rfl hr he hc hp hb hq hw hl
  · obtain ⟨t, ht, ⟨ho, hd, -⟩, hcnt, hla, hlb, hv⟩ := analogSettingTransfer_notes h
    exact ⟨t, ht, ho, hd, hcnt, ⟨hla, hlb⟩, hv⟩
  · have hs : s.atSpine e i a x := ⟨hat, hmay, hq, ⟨hinfl, hid, hhalt, hstep⟩, hst, hprv⟩
    exact ⟨registerAccessTimeout_bus hs, fun hr hl => ⟨fun hi he hb => xspiWindowRead_data hs hr hl hi he hb d0 d1,
        fun hi he hb hd hsl => xspiWindowRead_busy hs hr hi he hb hd hsl d0 d1⟩,
      fun hi hm => ⟨fun hk hpr ha hrun hlb hrp => chnDrainStore_drains hs hk hpr ha hi hm hrun hlb hrp,
        fun hl ha ho => chnSeqRead_gets hs hl ha hi hm ho, fun hl ha => chnDrainRead_gets hs hl ha hi hm⟩⟩
  · exact replayOutcomeArrival_keeps hat hmay hq hn hrp hprv hk hpr hr hlt hp hc ho hrest hseq hw
  · exact strandFullTimeout_drops hw hp hx
  · exact fun hp hen hdst hfmt hto hrem hit hh => payloadReadTimeout_breaks hw hp hen hdst hfmt hto hrem hit hh

end Sys2Proof.Machine
